-- ==== Sys2Proof/Word.lean ====
section
/-! DEFINITION. The words of the engine: bytes, and numbers written as little-endian bytes (R5, 00_scope.md). -/

namespace Sys2Proof

/-- One byte, as memory, descriptors and frames hold it. -/
abbrev Byte := BitVec 8

/-- A run of bytes, lowest address first. -/
abbrev Bytes := List Byte

end Sys2Proof
end

