-- ==== Sys2Proof/Syntax.lean ====
section
/-! DEFINITION. The commands the engine takes: one constructor for each row of spec/opcode_table.json, with the
operands the row's rule names. -/

namespace Sys2Proof

/-- Who makes a dictionary request: the PCIe window, or a node of 10BASE-T1S with its MAC address (R310). -/
inductive Src where
  | window
  | node (n mac : Nat)
  deriving DecidableEq, Repr

/-- A dictionary request: its client, its transaction ID and its selector override (R291). -/
structure Req where
  src : Src
  txn : Nat
  sel : Option Nat
  deriving DecidableEq, Repr

/-- What carries an ADP message: the window, or a frame with its destination and source MAC, its EtherType and its FCS check (R298).
`wait` is whether the management core is still at work when a frame comes, so that its request waits (R300). -/
inductive Carrier where
  | window
  | frame (dmac smac etype : Nat) (fcsOk wait : Bool)
  deriving DecidableEq, Repr

/-- What another engine of a job reports at job start (R11, R210). -/
structure Peer where
  stepping : Nat
  fwHigh : Nat
  cls : Nat
  size : Nat
  grid : Nat
  tray : Nat
  slot : Nat
  /-- Whether its ports of Table 9.6 trained. -/
  trained : Bool
  /-- Whether those that trained found the neighbours of Table 9.6. -/
  wired : Bool
  deriving DecidableEq, Repr

/-- The identity a neighbour sends in training stage 5 (Table 9.1). -/
structure Nbr where
  chip : Nat
  cls : Nat
  tray : Nat
  slot : Nat
  port : Nat
  deriving DecidableEq, Repr

/-- A received link header (Table 9.2) with the check of its CRC. `bad` is the first later flit of its message that is not intact, by
its place among those that come with it, and whether its CRC mismatches, or else its reserved bits or its SEQ (R206). -/
structure RxHdr where
  seq : Nat
  ack : Nat
  vc : Nat
  dlc : Nat
  reserved : Nat
  crcOk : Bool
  bad : Option (Nat × Bool) := none
  deriving DecidableEq, Repr

/-- A received message header (Table 9.5); for a collective, `addr` holds the collective ID and sequence. `auth` is
whether a sealed message authenticated (R215). -/
structure MsgHdr where
  dst : Nat
  src : Nat
  srcLog : Nat
  tag : Nat
  len : Nat
  addr : Nat
  epoch : Nat
  auth : Bool
  deriving DecidableEq, Repr

/-- The stage whose operation a row carries out, and how far each core of the stage has come when a pre-emption is honoured inside the
operation, in tiles, rows or elements as its class in R115 has it; with an empty list, or with no pre-emption asked for, the operation
runs to its end (R24, R68, R114; log entry 8). -/
structure StageRun where
  stage : Nat
  upto : List Nat := []
  deriving DecidableEq, Repr

/-- A calibration of a channel: a retraining, or else a ZQ calibration (R169). -/
structure Calib where
  ch : Nat
  retrain : Bool
  deriving DecidableEq, Repr

/-- A write of `n` bytes with the value `v` to a register of the dictionary window (R303). -/
structure RegWrite where
  n : Nat
  v : Nat
  deriving DecidableEq, Repr

/-- A write to GO, and whether the management core is still at work, so that the request waits (R304). -/
structure GoWrite extends RegWrite where
  wait : Bool
  deriving DecidableEq, Repr

/-- A scan through the bypass register: the instruction code that was loaded, and the bit shifted in (R361). -/
structure TapScan where
  code : Nat := 0xFF
  tdi : Nat
  deriving DecidableEq, Repr

/-- The commands. Rows of operations name the task by queue and sequence, and its stage. -/
inductive Instr where
  /-- PROD_WRITE (R323): Host software writes a queue's producer sequence to PROD; the write is accepted or refused and the queue's posting window advances. -/
  | prodWrite (q p : Nat)
  /-- TASK_FETCH (R323): Once its conditions hold, the engine fetches the descriptor of sequence F from the task ring and advances F. -/
  | taskFetch (q : Nat) (desc : Bytes)
  /-- CACK_WRITE (R325): Host software acknowledges completions by writing CACK; an out-of-range value stops the queue. -/
  | cackWrite (q a : Nat)
  /-- CANCEL_WRITE (R327): Host software writes a task sequence to CANCEL; a fetched task ends at its next pre-emption point, or an unfetched one is remembered for cancellation at fetch. -/
  | cancelWrite (q s : Nat)
  /-- STREAM_INPUT_WRITTEN (R338): A STREAM write with bit 7 clear announces a PCIe-source input frame; the engine writes its header and posts the input semaphore, or drops the frame. -/
  | streamInputWritten (q v : Nat)
  /-- STREAM_OUTPUT_TAKEN (R340): A STREAM write with bit 7 set tells the engine that host software has taken a PCIe-sink output frame. -/
  | streamOutputTaken (q v : Nat)
  /-- COALESCING_TIMEOUT (R326): The oldest unsignalled completion has waited the coalescing time, so the queue's MSI-X vector is raised. -/
  | coalescingTimeout (q : Nat)
  /-- QUEUE_DISABLE (R328): Writing 0 to queue control stops fetching, and tasks already fetched run to DONE. -/
  | queueDisable (r : Req) (q : Nat)
  /-- QUEUE_ENABLE (R321): Writing 1 to queue control checks the bases and E, then sets F and P to S and sets C and A to 0. -/
  | queueEnable (r : Req) (q : Nat)
  /-- QUEUE_RESET (R328): Writing 2 to queue control cancels every task of the queue that is not DONE, writes its completion and disables the queue; the write is pending. -/
  | queueReset (r : Req) (q : Nat)
  /-- FUNCTION_LEVEL_RESET (R320): An FLR disables and resets every queue, ends unfinished tasks without completions and clears the dictionary window. -/
  | functionLevelReset
  /-- PERST_N_LOW (R320): PERST_N falls and the engine acts as for an FLR. -/
  | perstNLow
  /-- LINK_DOWN (R320): A PCIe link-down event acts as for an FLR, and completions in flight are discarded. -/
  | linkDown (lost : Nat)
  /-- PCIE_LINK_TRAINING (R316): Once READY and PERST_N are both high, the PCIe link trains up to the target speed. -/
  | pcieLinkTraining (speed width : Nat)
  /-- WINDOW_READ (R319): A host read through the memory window is mapped by its entry; a read through an invalid entry or a sealed region completes as Unsupported Request. -/
  | windowRead (off len : Nat)
  /-- WINDOW_WRITE (R319): A host write through the memory window is mapped and applied whole per sector, or dropped and counted when refused. -/
  | windowWrite (off : Nat) (data : Bytes)
  /-- TDM_PORT_ENABLE (R332): Enabling a TDM port checks its rate, slot count and slot width, and starts its framing in the chosen role. -/
  | tdmPortEnable (r : Req) (p : Nat)
  /-- TDM_FRAME_START (R337): At each frame start of a TDM source, the engine decides whether to write the frame or count an overrun. -/
  | tdmFrameStart (c bclks : Nat)
  /-- TDM_FRAME_END (R337): Within 2 µs of its last sample slot, the engine writes the input frame header and posts the input semaphore. -/
  | tdmFrameEnd (c : Nat) (codes : List Nat)
  /-- CLOCK_LOSS (R333): A slave port sees no BCLK for four frame periods; its state becomes clock lost and vector 67 is raised. -/
  | clockLoss (p : Nat)
  /-- CONTEXT_OPEN (R335): Writing 1 to a stream context's control checks its sources, sinks, slots, rings and semaphores, and opens it. -/
  | contextOpen (r : Req) (c : Nat)
  /-- CONTEXT_CLOSE (R335): Writing 0 to a stream context's control closes it, so that its configuration may be written again. -/
  | contextClose (r : Req) (c : Nat)
  /-- PLAYOUT_DUE (R339): Output frame k falls due at D_k; a TDM sink plays its slot, or plays zeros and counts an underrun and debt. -/
  | playoutDue (c : Nat)
  /-- NOP (R115): A NOP operation does nothing but its wait, post and fences. -/
  | nopOp (q s g : Nat)
  /-- END (R100): END ends the stage's stream, and the task completes when all its stages have ended. -/
  | endOp (q s g : Nat)
  /-- JUMP (R100): JUMP continues the stream at another 64-B aligned local address. -/
  | jumpOp (q s g : Nat)
  /-- TSTAMP (R115): TSTAMP writes the R8 timestamp to D. -/
  | tstamp (q s g : Nat)
  /-- DROP (R106): DROP applies the dead-block mark of A only. -/
  | dropOp (q s g : Nat)
  /-- COPY (R118): COPY moves K bytes from A to D unchanged. -/
  | copyOp (q s : Nat) (r : StageRun)
  /-- FILL (R115): FILL writes V1, converted to D's code, to every element of D. -/
  | fillOp (q s : Nat) (r : StageRun)
  /-- LOADS (R118): LOADS moves K bytes from memory to staging SRAM. -/
  | loads (q s : Nat) (r : StageRun)
  /-- STORES (R118): STORES moves K bytes from staging SRAM to memory. -/
  | stores (q s : Nat) (r : StageRun)
  /-- GATHER (R118): GATHER writes each row i of D from row B[i] of A, writing zero rows for out-of-range indices. -/
  | gather (q s : Nat) (r : StageRun)
  /-- SCATTER (R118): SCATTER writes row i of A to row B[i] of D in ascending i, skipping out-of-range indices. -/
  | scatter (q s : Nat) (r : StageRun)
  /-- TRANSPOSE (R118): TRANSPOSE moves an M × K tensor into a K × M tensor unchanged. -/
  | transpose (q s : Nat) (r : StageRun)
  /-- PREFETCH (R163): PREFETCH fills K bytes of A into the cache slices without consuming them. -/
  | prefetch (q s : Nat) (r : StageRun)
  /-- MATMUL (R56): MATMUL forms D = A·Bᵀ (+ C) by grouped, windowed dot products and passes the result through the output stage. -/
  | matmul (q s : Nat) (r : StageRun)
  /-- MATMULT (R56): MATMULT forms D = A·B with B stored K × N, as MATMUL does. -/
  | matmult (q s : Nat) (r : StageRun)
  /-- CONV1D (R56): CONV1D forms a per-channel one-dimensional convolution of A with the taps of B. -/
  | conv1d (q s : Nat) (r : StageRun)
  /-- REDUCE_SUM (R70): REDUCE of kind SUM forms each row's sum as a dot product with 1. -/
  | reduceSum (q s : Nat) (r : StageRun)
  /-- REDUCE_SUMSQ (R70): REDUCE of kind SUMSQ forms each row's sum of squares. -/
  | reduceSumsq (q s : Nat) (r : StageRun)
  /-- REDUCE_MAX (R70): REDUCE of kind MAX writes each row's greatest value exactly. -/
  | reduceMax (q s : Nat) (r : StageRun)
  /-- REDUCE_MIN (R70): REDUCE of kind MIN writes each row's least value exactly. -/
  | reduceMin (q s : Nat) (r : StageRun)
  /-- REDUCE_AMAX (R70): REDUCE of kind AMAX writes each row's greatest magnitude. -/
  | reduceAmax (q s : Nat) (r : StageRun)
  /-- REDUCE_ARGMAX (R70): REDUCE of kind ARGMAX writes the I32 index of each row's greatest value. -/
  | reduceArgmax (q s : Nat) (r : StageRun)
  /-- REDUCE_ARGMIN (R70): REDUCE of kind ARGMIN writes the I32 index of each row's least value. -/
  | reduceArgmin (q s : Nat) (r : StageRun)
  /-- VADD (R116): VADD writes D = A + B elementwise, with one rounding. -/
  | vadd (q s : Nat) (r : StageRun)
  /-- VMUL (R116): VMUL writes D = A × B elementwise, with one rounding. -/
  | vmul (q s : Nat) (r : StageRun)
  /-- VFMA (R116): VFMA writes D = A × B + C elementwise, with one rounding. -/
  | vfma (q s : Nat) (r : StageRun)
  /-- VMAX (R116): VMINMAX with MOD 0 writes the elementwise maximum under R41. -/
  | vmax (q s : Nat) (r : StageRun)
  /-- VMIN (R116): VMINMAX with MOD 1 writes the elementwise minimum under R41. -/
  | vmin (q s : Nat) (r : StageRun)
  /-- VFUNC_RELU (R116): VFUNC with MOD 0 applies ReLU to each element. -/
  | vfuncRelu (q s : Nat) (r : StageRun)
  /-- VFUNC_GELU (R116): VFUNC with MOD 1 applies GELU in its erf form. -/
  | vfuncGelu (q s : Nat) (r : StageRun)
  /-- VFUNC_SILU (R116): VFUNC with MOD 2 applies SiLU. -/
  | vfuncSilu (q s : Nat) (r : StageRun)
  /-- VFUNC_TANH (R116): VFUNC with MOD 3 applies tanh. -/
  | vfuncTanh (q s : Nat) (r : StageRun)
  /-- VFUNC_SIGMOID (R116): VFUNC with MOD 4 applies sigmoid. -/
  | vfuncSigmoid (q s : Nat) (r : StageRun)
  /-- VFUNC_EXP (R116): VFUNC with MOD 5 applies exp. -/
  | vfuncExp (q s : Nat) (r : StageRun)
  /-- VFUNC_RECIPROCAL (R116): VFUNC with MOD 6 applies the reciprocal. -/
  | vfuncReciprocal (q s : Nat) (r : StageRun)
  /-- VFUNC_RSQRT (R116): VFUNC with MOD 7 applies the reciprocal square root. -/
  | vfuncRsqrt (q s : Nat) (r : StageRun)
  /-- VFUNC_SQRT (R116): VFUNC with MOD 8 applies the square root. -/
  | vfuncSqrt (q s : Nat) (r : StageRun)
  /-- VFUNC_ABS (R116): VFUNC with MOD 9 takes the absolute value by clearing the sign. -/
  | vfuncAbs (q s : Nat) (r : StageRun)
  /-- VFUNC_NEGATION (R116): VFUNC with MOD 10 negates each element by flipping the sign. -/
  | vfuncNegation (q s : Nat) (r : StageRun)
  /-- SOFTMAX (R117): SOFTMAX computes a row-wise softmax using an internal sum. -/
  | softmax (q s : Nat) (r : StageRun)
  /-- LAYER_NORM (R117): NORM with MOD 0 computes layer norm with gain B and bias C. -/
  | layerNorm (q s : Nat) (r : StageRun)
  /-- RMS_NORM (R117): NORM with MOD 1 computes RMS norm with gain B. -/
  | rmsNorm (q s : Nat) (r : StageRun)
  /-- VSCALE (R116): VSCALE writes D = A × 2ⁿ. -/
  | vscale (q s : Nat) (r : StageRun)
  /-- VSELECT (R116): VSELECT writes A where C ≠ 0 and B elsewhere, reading every input. -/
  | vselect (q s : Nat) (r : StageRun)
  /-- CONVERT (R72): CONVERT passes each decoded element of A through the output stage into D's code. -/
  | convert (q s : Nat) (r : StageRun)
  /-- SCALEUPD (R80): SCALEUPD updates the named scale slots from their pending maxima, reduced over the tree in an ensemble. -/
  | scaleupd (q s g : Nat)
  /-- OBSERVE (R79): OBSERVE records A's maximum exponent in D's scale slot. -/
  | observe (q s : Nat) (r : StageRun)
  /-- ACTSAVE (R180): ACTSAVE writes activations to a saved stream in lossless block encodings. -/
  | actsave (q s : Nat) (r : StageRun)
  /-- ACTLOAD (R182): ACTLOAD checks a saved stream and expands it back into D. -/
  | actload (q s : Nat) (r : StageRun)
  /-- GNORM (R185): GNORM adds the SUMSQ of each chunk of A exactly to the step's norm accumulator. -/
  | gnorm (q s : Nat) (r : StageRun)
  /-- CLIPNOISE (R189): CLIPNOISE clips the gradient by the frozen factor and adds Gaussian noise drawn under the tenant-derived key. -/
  | clipnoise (q s : Nat) (r : StageRun)
  /-- REEL (R196): REEL applies the optimiser to masters and moments, and writes the shadow generation and the working copy. -/
  | reel (q s g : Nat)
  /-- COMMIT (R198): COMMIT waits for serving holders, then performs the commit act, or votes ready-to-commit in an ensemble. -/
  | commit (q s g : Nat)
  /-- CKPT (R388): CKPT writes the tenant's checkpoint into its scratch area and copies the scale-slot state. -/
  | ckpt (q s g : Nat)
  /-- ALLREDUCE_SUM (R217): ALLREDUCE with MOD 0 sums A over the fixed tree and writes the result on every engine. -/
  | allreduceSum (q s g : Nat)
  /-- ALLREDUCE_MAX (R217): ALLREDUCE with MOD 1 takes the maximum over the fixed tree. -/
  | allreduceMax (q s g : Nat)
  /-- ALLREDUCE_MIN (R217): ALLREDUCE with MOD 2 takes the minimum over the fixed tree. -/
  | allreduceMin (q s g : Nat)
  /-- REDUCE_ROOT_SUM (R218): REDUCE_ROOT with MOD 0 sums over the tree and writes D on the root only. -/
  | reduceRootSum (q s g : Nat)
  /-- REDUCE_ROOT_MAX (R218): REDUCE_ROOT with MOD 1 takes the maximum and writes D on the root only. -/
  | reduceRootMax (q s g : Nat)
  /-- REDUCE_ROOT_MIN (R218): REDUCE_ROOT with MOD 2 takes the minimum and writes D on the root only. -/
  | reduceRootMin (q s g : Nat)
  /-- BROADCAST (R218): BROADCAST copies the root's A to D on every engine down the relabelled tree. -/
  | broadcast (q s g : Nat)
  /-- ALLGATHER (R218): ALLGATHER writes each engine's A into D in logical-engine order. -/
  | allgather (q s g : Nat)
  /-- BARRIER (R218): BARRIER returns when every engine of the job has reached it. -/
  | barrier (q s g : Nat)
  /-- PUSHPOST (R214): PUSHPOST writes local A to remote D, then posts PSEM on D's engine. -/
  | pushpost (q s : Nat) (r : StageRun)
  /-- RNGBITS (R188): RNGBITS writes raw Philox words to D. -/
  | rngbits (q s : Nat) (r : StageRun)
  /-- RNGUNI (R188): RNGUNI writes uniform values in [V1, V2). -/
  | rnguni (q s : Nat) (r : StageRun)
  /-- RNGGAUSS (R188): RNGGAUSS writes Gaussian values with mean V1 and deviation V2. -/
  | rnggauss (q s : Nat) (r : StageRun)
  /-- DROPOUT (R188): DROPOUT keeps each element with probability V1, scaled by 1/V1, or writes +0. -/
  | dropout (q s : Nat) (r : StageRun)
  /-- SEM_RELEASE (R138): A semaphore becomes non-zero, so its highest-ranked, earliest waiter is released and acquires it. -/
  | semRelease (glob : Bool) (n : Nat)
  /-- HOLD_BUDGET_EXPIRY (R142): The hold budget expires; the waiting operation completes with 0x0102 and the holders return to their own rank. -/
  | holdBudgetExpiry (q s : Nat)
  /-- OP_COMPLETE (R114): After execution and its release fence, the operation applies its dead-block marks, posts its semaphore and writes its report. -/
  | opComplete (q s g : Nat)
  /-- PHASE_MARK_RELEASE (R177): Every other stage has reached END, so the held phase-marking operation in the final stage is released. -/
  | phaseMarkRelease (q s : Nat)
  /-- STEP_ADMISSION (R18): The scheduler checks a step task's validity, energy and ledger in order, and admits it or completes it at once. -/
  | stepAdmission (q s : Nat)
  /-- STEP_ABANDON (R28): After a power alert, the last core of the step reaches its boundary and the step completes with 0x0601, changing no state. -/
  | stepAbandon (q s : Nat)
  /-- TASK_PLACEMENT (R130): The scheduler places a ready task whole on qualifying cores, and pre-empts lower-ranked tasks where needed. -/
  | taskPlacement (q s : Nat)
  /-- PREEMPTION_POINT (R134): A task with a pending pre-emption, cancellation or Idle entry reaches a pre-emption point and begins its switch-out drain. -/
  | preemptionPoint (q s core : Nat)
  /-- DRAIN_COMPLETE (R134): The task's link transactions have drained; its credits return and its context record is saved. -/
  | drainComplete (q s core ns : Nat)
  /-- CONTEXT_SAVE_DONE (R134): The 36 KiB context record is stored, and the pre-empting task is switched in. -/
  | contextSaveDone (q s core : Nat)
  /-- CONTEXT_RESTORE_DONE (R69): A restored task resumes with its next group, as though it had not stopped. -/
  | contextRestoreDone (q s core : Nat) (ok : Bool)
  /-- DRAIN_TIMEOUT (R135): A drain has not finished after 50 µs; this is a link fault, and the task completes with a link-class status. -/
  | drainTimeout (q s core : Nat)
  /-- SEM_VALUE_WRITE (R139): Host software writes a selected semaphore's value, which releases waiters if it is non-zero. -/
  | semValueWrite (r : Req) (v : Nat)
  /-- REGULATOR_REFILL (R132): At each microsecond, every partition's token bucket gains Q × 1,000 tokens, up to its ceiling. -/
  | regulatorRefill
  /-- INTERFERENCE_WINDOW_END (R133): At each 1 ms window end, the interference and regulator stall indices are set. -/
  | interferenceWindowEnd (cycles : List (Nat × Nat × Nat))
  /-- SLICE_READ (R148): A read reaches a cache slice and hits, or allocates, merges or bypasses and fetches the sectors it needs. -/
  | sliceRead (core addr mask : Nat) (serving : Bool)
  /-- SLICE_WRITE (R148): A write reaches a cache slice and is merged, or written whole, into its sectors. -/
  | sliceWrite (core addr : Nat) (data : Bytes) (serving : Bool)
  /-- SECTOR_FILL (R163): A sector arrives from a channel, is checked by SECDED and delivered to every waiting requester. -/
  | sectorFill (slice line sector ecc : Nat)
  /-- STREAM_BYPASS_WINDOW (R155): After 1,024 lines delivered without allocation, the slice sets a new train length N. -/
  | streamBypassWindow (slice : Nat)
  /-- COMPRESSION_SAMPLE_END (R172): After 65,536 requests, the slice turns compression on or off for its remaining sets. -/
  | compressionSampleEnd (slice : Nat)
  /-- PATROL_SCRUB_READ (R167): The patrol scrubber reads and checks a sector into an empty channel queue. -/
  | patrolScrubRead (ch addr ecc : Nat) (last overdue : Bool)
  /-- SLICE_SCRUB (R168): The slice scrubber checks one line when no request needs the slice. -/
  | sliceScrub (slice set way sector ecc : Nat)
  /-- FORCED_SCRUB_SPELL (R168): A slice has checked no line for 10 s, so it forces one line every 1,024 fabric cycles. -/
  | forcedScrubSpell (slice : Nat)
  /-- REFRESH (R166): A refresh falls due on a channel, and may be postponed for at most 8 intervals. -/
  | refresh (ch : Nat) (postpone : Bool)
  /-- CALIBRATION_DUE (R169): ZQ calibration or retraining falls due on a channel. -/
  | calibrationDue (c : Calib)
  /-- CALIBRATION_RUN (R169): The channel queue has been empty for 2 µs, so the due calibration runs. -/
  | calibrationRun (c : Calib) (deferUs : Nat)
  /-- FORCED_CALIBRATION (R169): After 32 ms of deferral, the channel stops issuing and runs the calibration, stalling for up to 4 µs. -/
  | forcedCalibration (c : Calib)
  /-- MEM_BAND_CONFLICT (R173): Once per second, a MEM_BAND_CONFLICT event is logged for each memory loop counter that has changed. -/
  | memBandConflict
  /-- NUM_BAND_CONFLICT (R97): Once per second, a NUM_BAND_CONFLICT event is logged for each numeric loop counter that has changed. -/
  | numBandConflict
  /-- PWR_BAND_CONFLICT (R281): Once per second, a PWR_BAND_CONFLICT event is logged if the DVFS conflict counter has changed. -/
  | pwrBandConflict
  /-- JOB_START (R210): Writing 1 to job control runs the identity, class, configuration and wiring checks, trains the ports and assigns logical IDs; the write is pending. -/
  | jobStart (r : Req) (peers : List Peer)
  /-- JOB_STOP (R248): Writing 2 to job control stops the job. -/
  | jobStop (r : Req)
  /-- PORT_TRAINING_STAGE_DONE (R202): A port completes a training stage and moves to the next, or becomes up. -/
  | portTrainingStageDone (k : Nat) (nbr : Nbr)
  /-- PORT_TRAINING_TIMEOUT (R202): A training stage times out; the port retries, or is marked failed after three attempts. -/
  | portTrainingTimeout (k : Nat)
  /-- CONTROL_FLIT (R204): A received control flit returns credits and may carry a NAK. -/
  | controlFlit (k : Nat) (h : RxHdr) (credits : List Nat) (nak : Nat)
  /-- CREDIT_RETURN_TIMER (R204): A credit has been pending for 100 ns, so a control flit is sent. -/
  | creditReturnTimer (k : Nat)
  /-- ACK_PROGRESS_TIMEOUT (R207): 10 µs pass without ACK progress, which is a port fault and a job fault. -/
  | ackProgressTimeout (k : Nat)
  /-- HEARTBEAT_SEND (R222): Every 10 µs, each trained port sends a HEARTBEAT carrying the alive bit and the ceiling. -/
  | heartbeatSend
  /-- HEARTBEAT (R222): A heartbeat is received; an alive bit of 0 declares the neighbour lost. -/
  | heartbeat (k blk : Nat)
  /-- HEARTBEAT_TIMEOUT (R222): 50 µs pass with no heartbeat or intact flit, so the neighbour is lost and a job fault follows. -/
  | heartbeatTimeout (k : Nat)
  /-- CEILING (R232): A CEILING sideband block is received, flooded on, and scheduled to apply with its job profile. -/
  | ceiling (k blk : Nat)
  /-- CEILING_APPLY (R232): The hop-dependent delay ends, and the new job point and profile take effect. -/
  | ceilingApply
  /-- CEILING_VOTE (R233): Every 1 ms, the ceilings go up the tree by minimum and engine 0 floods the result. -/
  | ceilingVote
  /-- FAULT (R223): On the first FAULT of its epoch, an engine raises its epoch, discards old messages, stops job tasks and begins the restart. -/
  | faultFlood (k blk : Nat)
  /-- REMAP (R224): A REMAP gives the lost engine's logical ID to its tray's spare, which moves to Active. -/
  | remap (k blk : Nat)
  /-- RESUME (R224): RESUME ends the restart; the job awaits host software and the event vector is raised. -/
  | resume (k blk : Nat)
  /-- CENSUS_TIMEOUT (R224): The 100 µs census window closes, and every engine that did not answer is counted as lost. -/
  | censusTimeout
  /-- READ_MSG (R214): A remote read message is served at the home slice, whole sectors at a time. -/
  | readMsg (k : Nat) (h : RxHdr) (m : MsgHdr)
  /-- READ_DATA_MSG (R161): Remote read data arrives and fills a clean remote line. -/
  | readDataMsg (k : Nat) (h : RxHdr) (m : MsgHdr) (data : Bytes)
  /-- WRITE_MSG (R214): A remote write is applied at the home slice and acknowledged. -/
  | writeMsg (k : Nat) (h : RxHdr) (m : MsgHdr) (data : Bytes)
  /-- WRITE_ACK_MSG (R214): A write acknowledgement returns a transaction credit and may complete a release fence. -/
  | writeAckMsg (k : Nat) (h : RxHdr) (m : MsgHdr)
  /-- PUSHPOST_POST_MSG (R214): Once all of PUSHPOST's writes have been applied at the home, its semaphore is posted there. -/
  | pushpostPostMsg (k : Nat) (h : RxHdr) (m : MsgHdr) (sem q slot core : Nat)
  /-- COLLECTIVE_SETUP_MSG (R219): A collective setup is checked against the local sequence number, ID and λ. -/
  | collectiveSetupMsg (k : Nat) (h : RxHdr) (m : MsgHdr) (lam node span : Nat) (down : Bool)
  /-- COLLECTIVE_DATA (R216): A partner's partial arrives and is combined at its tree level. -/
  | collectiveData (k : Nat) (h : RxHdr) (m : MsgHdr) (lam node span : Nat) (down : Bool) (data : Bytes)
  /-- LATENESS_DEADLINE (R230): In LENIENT mode, a partner's partial is late; the level continues alone and a skip notice is sent. -/
  | latenessDeadline (q s g node : Nat)
  /-- SKIP_NOTICE_MSG (R231): The late engine carries or drops its unsent partial. -/
  | skipNoticeMsg (k : Nat) (h : RxHdr) (m : MsgHdr) (lam node span : Nat)
  /-- VOTE_MSG (R26): An admission, ready-to-commit, commit, abandon, barrier or checkpoint vote is combined up or acted on down the tree. -/
  | voteMsg (k : Nat) (h : RxHdr) (m : MsgHdr) (kind : Nat) (down : Bool) (status value : Nat)
  /-- SEMAPHORE_MSG (R140): A global semaphore wait or post is applied at the home engine and answered. -/
  | semaphoreMsg (k : Nat) (h : RxHdr) (m : MsgHdr) (op sem q slot core rank : Nat)
  /-- CENSUS_MSG (R224): A census request is answered over the management channel. -/
  | censusMsg (k : Nat) (h : RxHdr) (m : MsgHdr) (answer : Bool)
  /-- CHECKPOINT_COPY_MSG (R225): A checkpoint copy is received, and the spare restores from it. -/
  | checkpointCopyMsg (k : Nat) (h : RxHdr) (m : MsgHdr) (data : Bytes)
  /-- WAKE_RISE (R249): A WAKE high level is recognised, which starts a wake or aborts a power-down. -/
  | wakeRise
  /-- WAKE_FALL (R250): A WAKE low level is recognised, which starts a power-down or unwinds a power-up. -/
  | wakeFall
  /-- WAKE_STAGE_DONE (R242): A wake stage completes and the next stage starts; after stage 6, READY rises. -/
  | wakeStageDone (straps : Nat)
  /-- WAKE_STAGE_TIMEOUT (R242): A stage attempt times out; it is undone and retried after a settle, or the third failure leads to Wake-Failed. -/
  | wakeStageTimeout
  /-- RETRY_SETTLE_END (R242): The 0.5 ms settle ends, and the failed stage is attempted again. -/
  | retrySettleEnd
  /-- READY_BURST (R245): Every 3,277 RC cycles, READY sends a burst of pulses carrying the stage code. -/
  | readyBurst
  /-- WAKE_FAILED_EXIT (R246): WAKE has been low for 1 ms in Wake-Failed, so the engine enters Dormant. -/
  | wakeFailedExit
  /-- UNWIND_DONE (R250): The unwind of a cancelled power-up completes in Dormant; a new wake follows if WAKE is high. -/
  | unwindDone
  /-- REQUEST_ACTIVE (R236): Writing 0 to the requested state makes Active the target while WAKE is high. -/
  | requestActive (r : Req)
  /-- REQUEST_IDLE (R237): Writing 1 to the requested state starts entry to Idle, which switches out every running task. -/
  | requestIdle (r : Req)
  /-- REQUEST_DOZE (R247): Writing 2 to the requested state starts a power-down to Doze. -/
  | requestDoze (r : Req)
  /-- IDLE_ENTRY_DONE (R237): Every task has been switched out and X operations have ended, so the state reads Idle. -/
  | idleEntryDone
  /-- DOZE_EXIT_PCIE (R239): The host starts a PCIe L1.2 exit in Doze, which returns the engine to Active. -/
  | dozeExitPcie
  /-- DOZE_EXIT_FRAME (R302): An ADP frame for this node arrives in Doze; it starts an exit, or is dropped if that source is disabled. -/
  | dozeExitFrame (car : Carrier) (msg : Bytes)
  /-- DOZE_RESIDENCY_END (R254): The 200 µs Doze residency ends, and a held exit event proceeds. -/
  | dozeResidencyEnd
  /-- POWER_DOWN_STEP_DONE (R247): A power-down step D1–D6 completes and the next one begins; the start of D3 is the point of no return. -/
  | powerDownStepDone
  /-- RESET_N_LOW (R255): RESET_N held low causes an immediate power-off to Dormant without completions. -/
  | resetNLow
  /-- VIN_LOSS (R256): VIN stays below the input-good threshold for 50 µs, so the engine powers off and re-wakes if WAKE is high. -/
  | vinLoss
  /-- DVFS_SAMPLE (R262): At each millisecond sample, the ceilings, floor, safety sources and cap loop are combined into the engine's own ceiling. -/
  | dvfsSample (doms : List Nat) (vin : Nat)
  /-- VOLTAGE_RAMP_DONE (R261): A voltage ramp and settle end, and an upward change switches its clocks. -/
  | voltageRampDone
  /-- CURRENT_CLAMP_ENGAGE (R269): The compute-rail current has stayed above the soft limit for 0.5 µs, so the issue limit falls to 8/16. -/
  | currentClampEngage (ma : Nat)
  /-- CURRENT_CLAMP_RELEASE_STEP (R269): After 100 µs below 90 % of the limit, and then every 10 µs, the clamp releases by 2/16. -/
  | currentClampReleaseStep
  /-- SENSOR_SAMPLE (R271): Every 100 µs, the 24 junction sensors are read. -/
  | sensorSample (temps : List Int)
  /-- THERMAL_TRIP_RELEASE (R272): Every sensor has read below 95 °C for 10 ms, so the thermal trip releases. -/
  | thermalTripRelease
  /-- PWR_ALERT_FALL (R273): PWR_ALERT_N is recognised low; a forced descent to (OP0, M0) follows and any step in progress is abandoned. -/
  | pwrAlertFall
  /-- PWR_ALERT_RISE (R273): PWR_ALERT_N rises and the release hold starts. -/
  | pwrAlertRise
  /-- PWR_ALERT_HOLD_END (R273): The release hold after PWR_ALERT_N rose expires. -/
  | pwrAlertHoldEnd
  /-- REGULATOR_ALERT (R274): A rail reaches its hard limit, a regulator overheats or VIN drops below 2.9 V, forcing a descent. -/
  | regulatorAlert
  /-- REGULATOR_ALERT_CLEAR (R274): The regulator alert has been clear for 10 ms, and the forced point is released. -/
  | regulatorAlertClear
  /-- COOL_OK_FALL (R275): COOL_OK is recognised low; the engine halts with its core state kept and FAULT_N low. -/
  | coolOkFall
  /-- HALT_RELEASE (R275): COOL_OK has been high for 100 ms and every sensor reads below 95 °C, so the cores resume at OP0. -/
  | haltRelease
  /-- REGULATOR_CALIBRATION_START (R278): After 5 ms in Idle with no safety source, and with a stale calibration, regulator calibration begins. -/
  | regulatorCalibrationStart
  /-- REGULATOR_CALIBRATION_DONE (R278): Regulator calibration completes after 2 ms and resets its age. -/
  | regulatorCalibrationDone
  /-- READ (R295): An ADP READ request returns an object's value, or segment 0 of a snapshot. -/
  | adpRead (car : Carrier) (msg : Bytes)
  /-- WRITE (R289): An ADP WRITE request is checked and applied to any object that has no row of its own, or is answered as pending. -/
  | adpWrite (car : Carrier) (msg : Bytes)
  /-- READ_SEG (R295): A READ_SEG request returns one segment of the READ snapshot. -/
  | readSeg (car : Carrier) (msg : Bytes)
  /-- WRITE_SEG (R296): A WRITE_SEG request stages a segment, and the last segment applies the whole value. -/
  | writeSeg (car : Carrier) (msg : Bytes)
  /-- ABORT (R297): An ABORT request ends the client's open segmented transfer without applying anything. -/
  | adpAbort (car : Carrier) (msg : Bytes)
  /-- DISCOVER (R294): A DISCOVER request returns the 20-B identity and state, in the engine's own transmit opportunity. -/
  | discover (car : Carrier) (msg : Bytes)
  /-- NOTIFY_ACK (R307): A NOTIFY_ACK request stops resends of the acknowledged notification. -/
  | notifyAck (car : Carrier) (msg : Bytes)
  /-- SEGMENT_TIMEOUT (R297): No segment has arrived for the segment timeout, so the transfer ends. -/
  | segmentTimeout (client : Nat)
  /-- WINDOW_GO (R304): A write of 1 to GO submits the window request; the response follows with DONE and vector 64, or OVERRUN is set if BUSY.
  `msg` is written to the request buffer first. -/
  | windowGo (msg : Bytes) (x : GoWrite)
  /-- WINDOW_STATUS_CLEAR (R303): Writing 1 to DONE or OVERRUN in STATUS clears that bit. -/
  | windowStatusClear (x : RegWrite)
  /-- WATCH_COMPARE (R306): Every 1 ms, watched objects are compared and a type-1 notification is sent for each change. -/
  | watchCompare
  /-- NOTIFY_RESEND (R307): A 10BASE-T1S notification is unacknowledged after 10 ms; it is resent, or dropped after three resends. -/
  | notifyResend (seq : Nat)
  /-- PLCA_BEACON (R299): The coordinator node sends a PLCA beacon that starts a cycle. -/
  | plcaBeacon
  /-- TRANSMIT_OPPORTUNITY (R299): The engine's own transmit opportunity arrives, and it sends one queued frame. -/
  | transmitOpportunity
  /-- BEACON_LOSS (R299): No beacon has been received for 4 ms, so the engine holds its frames. -/
  | beaconLoss
  /-- LEVEL_CHALLENGE (R310): A read of the level challenge returns a fresh 16-B challenge bound to the client. -/
  | levelChallenge (r : Req)
  /-- LEVEL_RESPONSE (R310): A written HMAC response opens the integrator or factory level, or is refused. -/
  | levelResponse (r : Req) (data : Bytes)
  /-- CLOSE_LEVEL (R311): A write to the close-level object returns the client to the open level. -/
  | closeLevel (r : Req) (v : Nat)
  /-- LEVEL_IDLE_TIMEOUT (R311): The client has sent no request for the idle timeout, so its level closes. -/
  | levelIdleTimeout (client : Nat)
  /-- CHALLENGE_EXPIRY (R310): A challenge expires 10 s after it was issued. -/
  | challengeExpiry (client : Nat) (debug : Bool)
  /-- LOCKOUT_EXPIRY (R312): A client's lockout period ends. -/
  | lockoutExpiry (client : Nat) (debug : Bool)
  /-- PROGRAM_STAGED_RECORD (R371): Writing 1 programs the staged configuration record into the lowest blank generation; the write is pending. -/
  | programStagedRecord (r : Req)
  /-- OTP_WORD_PROGRAMMED (R368): One OTP word finishes programming and verifying, which advances or completes the pending OTP request. -/
  | otpWordProgrammed (ok : Bool)
  /-- RETIRE_FACTORY_LEVEL (R394): Writing 1 permanently sets security bit 2, which retires the factory level. -/
  | retireFactoryLevel (r : Req)
  /-- FIRMWARE_LOAD (R373): A firmware load copies the image and starts verifying its magic, slot, key hash and signature. -/
  | firmwareLoad (r : Req) (addr len : Nat)
  /-- FIRMWARE_LOAD_DONE (R373): Verification ends; the new image starts, or the previous firmware stays with SIGNATURE_INVALID or KEY_REVOKED. -/
  | firmwareLoadDone
  /-- PROGRAM_KEY_SLOT (R374): A key-hash slot is programmed and marked valid. -/
  | programKeySlot (r : Req) (slot : Nat) (hash : Bytes)
  /-- REVOKE_KEY_SLOT (R374): A key slot is revoked, unless that would leave no usable slot. -/
  | revokeKeySlot (r : Req) (slot : Nat)
  /-- DEBUG_CHALLENGE (R391): A read of the debug challenge returns a fresh challenge bound to the client. -/
  | debugChallenge (r : Req)
  /-- DEBUG_RESPONSE (R391): A debug response by method 1 or 2 unlocks the chain or is refused, and DEBUG_OPENED is logged. -/
  | debugResponse (r : Req) (data : Bytes)
  /-- RELOCK_DEBUG (R393): A write to the relock object relocks the debug chain, unless a tenant is held or a session is open. -/
  | relockDebug (r : Req) (v : Nat)
  /-- DISABLE_DEBUG (R394): Writing 1 permanently sets security bit 1, which disables debug. -/
  | disableDebug (r : Req)
  /-- SESSION_OPEN (R385): A session request with op 1 checks the basis, advances the counter and writes the open manifest. -/
  | sessionOpen (r : Req) (data : Bytes)
  /-- SESSION_CLOSE (R387): A session request with op 2 writes blobs, advances the counter, writes the close manifest and releases every tenant. -/
  | sessionClose (r : Req) (data : Bytes)
  /-- CREATE_TENANT (R382): The creation record seals a new armed tenant's areas and enciphers its initial generation. -/
  | createTenant (r : Req) (data : Bytes)
  /-- TENANT_IMPORT (R386): A tenant command with op 1 imports a listed tenant from its blob, as armed or held. -/
  | tenantImport (r : Req) (data : Bytes)
  /-- TENANT_RETIRE (R384): A tenant command with op 2 zeroes and unseals a tenant, which becomes absent for good. -/
  | tenantRetire (r : Req) (data : Bytes)
  /-- WATCHDOG (R401): The management core misses its 1 ms watchdog; it restarts into the boot ROM, ends all tasks and drives FAULT_N low. -/
  | watchdog
  /-- CORE_ERROR (R400): An uncorrectable error in a compute core stops its task, and the core is reinitialised within 10 µs. -/
  | coreError (core : Nat)
  /-- EVENT_LOG_COPY (R403): A staged event is copied from the buffer to the event-log ring as a telemetry write. -/
  | eventLogCopy
  /-- CALIBRATION_STALE (R405): The regulator calibration age passes 3,600 s, so one CALIBRATION_STALE event is logged. -/
  | calibrationStale
  /-- BYPASS (R361): The TAP instruction BYPASS selects the one-bit bypass register. -/
  | tapBypass (x : TapScan)
  /-- IDCODE (R361): The TAP instruction IDCODE shifts out 0x1041_6A4B. -/
  | tapIdcode
  /-- SAMPLE_PRELOAD (R361): The TAP instruction SAMPLE/PRELOAD samples or loads the boundary-scan cells. -/
  | tapSample (cells : Nat)
  /-- EXTEST (R362): The TAP instruction EXTEST takes over the single-ended balls while the engine keeps running. -/
  | tapExtest
  /-- HIGHZ (R362): The TAP instruction HIGHZ releases the single-ended balls. -/
  | tapHighz
  /-- CLAMP (R362): The TAP instruction CLAMP holds the single-ended balls at the preloaded values. -/
  | tapClamp
  /-- TEST_LOGIC_RESET (R362): The TAP enters Test-Logic-Reset, which ends any boundary-scan takeover. -/
  | testLogicReset
  /-- COOL_OK_RISE (R275): COOL_OK returns high during a halt, and the 100 ms release hold begins. -/
  | coolOkRise
  /-- RESET_N_RELEASE (R255): RESET_N goes high again after a reset power-off, and a wake starts if WAKE is high. -/
  | resetNRelease
  /-- DOZE_EXIT_COMPLETE (R239): The up-to-1.5 ms return from Doze ends with READY rising and the engine in Active, where a waiting frame is answered. -/
  | dozeExitComplete
  /-- CHECKPOINT_RESTORE_DONE (R225): An engine finishes restoring the last checkpoint from its own copy during a restart and sends its ready vote up the tree. -/
  | checkpointRestoreDone
  /-- TENANT_COMMAND_DONE (R289): A pending tenant creation, import or retirement finishes its enciphering or zeroing, and its write-done notification carries the final status. -/
  | tenantCommandDone
  /-- NOTIFICATION_RING_TAIL_WRITE (R305): Host software writes the ring tail register of the dictionary window, freeing notification ring entries. -/
  | notificationRingTailWrite (x : RegWrite)
  /-- TELEMETRY_SAMPLE_DROPPED (R170): A telemetry write that cannot issue within 1 ms is dropped, and 0x3400:15 rises. -/
  | telemetrySampleDropped
  /-- DOZE_ENERGY_INTEGRATION (R277): In Doze, every 1,024 RC cycles, the always-on power block integrates the input current into the energy counter. -/
  | dozeEnergyIntegration (uj : Nat)
  /-- ENTROPY_HEALTH_TEST_FAIL (R375): The entropy source fails, or passes again, its continuous health test, which sets or clears 0x1300:0E. -/
  | entropyHealthTestFail (failed : Bool)
  /-- CALIBRATION_END (R169): A ZQ calibration or retraining on a channel ends, the stall lifts and serving requests issue first. -/
  | calibrationEnd (ch stallUs : Nat)
  deriving DecidableEq, Repr

end Sys2Proof
end

