-- ==== Sys2Proof/Machine/Bits.lean ====
section
/-! DEFINITION. Bit fields, byte orders and saturating counts shared by every part of the engine
(R4 to R6 and the pseudocode conventions of 00_scope.md). -/

namespace Sys2Proof.Machine

/-- The field `[lo + w - 1 : lo]` of a number. -/
def fld (v lo w : Nat) : Nat := v / 2 ^ lo % 2 ^ w

/-- Bit `i` of a number. -/
def bitAt (v i : Nat) : Bool := v.testBit i

/-- A byte of a number. -/
def byteOf (v : Nat) : Byte := BitVec.ofNat 8 v

/-- The little-endian value of a run of bytes (R5). -/
def leVal : Bytes → Nat
  | [] => 0
  | b :: bs => b.toNat + 256 * leVal bs

/-- `n` little-endian bytes of a value (R5). -/
def leBytes : Nat → Nat → Bytes
  | 0, _ => []
  | n + 1, v => byteOf (v % 256) :: leBytes n (v / 256)

/-- `n` bytes from byte `off` of a run, zeros past its end. -/
def slice (bs : Bytes) (off n : Nat) : Bytes :=
  let t := (bs.drop off).take n
  t ++ List.replicate (n - t.length) 0

/-- The little-endian field of `n` bytes at byte `off`. -/
def leAt (bs : Bytes) (off n : Nat) : Nat := leVal (slice bs off n)

/-- The big-endian value of a run of bytes (network order of R5, and digests). -/
def beVal (bs : Bytes) : Nat := leVal bs.reverse

/-- `n` big-endian bytes of a value. -/
def beBytes (n v : Nat) : Bytes := (leBytes n v).reverse

/-- A run of zero bytes. -/
def zeros (n : Nat) : Bytes := List.replicate n 0

/-- Whether all the bytes are zero, as reserved bytes must be (R6). -/
def allZero (bs : Bytes) : Bool := bs.all (· == 0)

/-- The signed value of a `w`-bit two's complement pattern. -/
def toSigned (w v : Nat) : Int :=
  if v % 2 ^ w < 2 ^ (w - 1) then (v % 2 ^ w : Nat) else (v % 2 ^ w : Nat) - (2 ^ w : Nat)

/-- The `w`-bit two's complement pattern of a signed value. -/
def ofSigned (w : Nat) (v : Int) : Nat := (v % (2 ^ w : Nat)).toNat

/-- A count held in `w` bits that saturates. -/
def satTo (w v : Nat) : Nat := min v (2 ^ w - 1)

/-- Adds to a 32-bit saturating counter (R73 and every counter marked saturating). -/
def sat32 (c n : Nat) : Nat := satTo 32 (c + n)

/-- A 64-bit counter after `n` more; such counters do not wrap (R406). -/
def add64 (c n : Nat) : Nat := satTo 64 (c + n)

/-- `⌈a / b⌉`. -/
def cdiv (a b : Nat) : Nat := (a + b - 1) / b

/-- `a` rounded up to a multiple of `b`. -/
def alignUp (a b : Nat) : Nat := cdiv a b * b

/-- Clamps a signed value to a range. -/
def clampI (v lo hi : Int) : Int := if v < lo then lo else if hi < v then hi else v

/-- The exclusive-or of two runs of bytes, over the shorter. -/
def xorBytes (a b : Bytes) : Bytes := List.zipWith (· ^^^ ·) a b

/-- The bits of a 16-bit mask that are set, ascending. -/
def maskBits (w m : Nat) : List Nat := (List.range w).filter (fun i => m.testBit i)

/-- The number of bits set among the low `w`. -/
def popCount (w m : Nat) : Nat := (maskBits w m).length

/-- Replaces the element at an index, where it exists. -/
def setAt {α : Type} (l : List α) (i : Nat) (a : α) : List α := l.set i a

/-- Changes the element at an index, where it exists. -/
def modAt {α : Type} (l : List α) (i : Nat) (f : α → α) : List α := l.modify i f

/-- The characters of a short text as bytes (STR objects). -/
def strBytes (s : String) : Bytes := s.toList.map (fun c => byteOf c.toNat)

end Sys2Proof.Machine
end

