-- ==== Sys2Proof/Machine/Params.lean ====
section
/-! DEFINITION. Figures the spec fixes for every part: the operating points of Table 11.1 and the sizes of memory. -/

namespace Sys2Proof.Machine

/-- The compute clock of an operating point, in MHz (Table 11.1). -/
def computeMHz : Nat → Nat
  | 0 => 100 | 1 => 200 | 2 => 300 | 3 => 400 | 4 => 550 | 5 => 700 | 6 => 850 | _ => 1000

/-- The fabric clock of an operating point, in MHz (Table 11.1). -/
def fabricMHz : Nat → Nat
  | 0 => 200 | 1 => 300 | 2 => 400 | 3 => 600 | 4 => 800 | 5 => 900 | 6 => 1100 | _ => 1200

/-- The typical core voltage of an operating point, in mV (Table 11.1). -/
def typicalMv : Nat → Nat
  | 0 => 550 | 1 => 580 | 2 => 620 | 3 => 660 | 4 => 710 | 5 => 760 | 6 => 810 | _ => 860

/-- The highest memory rate state of an operating point (Table 11.1). -/
def maxMem : Nat → Nat
  | 0 => 0 | 1 => 0 | 2 => 1 | 3 => 1 | _ => 2

/-- The size of the host region in bytes (Table 7.2, 0x3400:01). -/
def hostRegion : Nat := 0x3B0000000

/-- The sealing granule in bytes (R378). -/
def granule : Nat := 4096

end Sys2Proof.Machine
end

