-- ==== Sys2Proof/Machine/Tab.lean ====
section
/-! DEFINITION. Sparse tables in one canonical form: keys strictly rising, and no entry equal to what an unlisted
key reads as. Memory and every numbered set of the engine's objects (slots, semaphores, tenants) is one. -/

namespace Sys2Proof.Machine

/-- A sparse table by number. -/
abbrev Tab (α : Type) := List (Nat × α)

/-- Reads a key; an unlisted key reads as `d`. -/
def Tab.get {α : Type} (d : α) : Tab α → Nat → α
  | [], _ => d
  | (k', a) :: t, k => if k = k' then a else Tab.get d t k

/-- Lists a value for a key. -/
def Tab.put {α : Type} : Tab α → Nat → α → Tab α
  | [], k, a => [(k, a)]
  | (k', a') :: t, k, a => if k < k' then (k, a) :: (k', a') :: t else if k = k' then (k, a) :: t else (k', a') :: Tab.put t k a

/-- Writes a key, keeping the canonical form: the value that an unlisted key reads as is not listed. -/
def Tab.set {α : Type} [DecidableEq α] (d : α) (t : Tab α) (k : Nat) (a : α) : Tab α :=
  if a = d then t.filter (fun e => decide (e.1 ≠ k)) else t.put k a

/-- Changes a key's value. -/
def Tab.upd {α : Type} [DecidableEq α] (d : α) (t : Tab α) (k : Nat) (f : α → α) : Tab α :=
  Tab.set d t k (f (Tab.get d t k))

/-- Keys above `lo` rise strictly, and no entry equals the value an unlisted key reads as. -/
def Tab.wfFrom {α : Type} [DecidableEq α] (d : α) : Option Nat → Tab α → Bool
  | _, [] => true
  | lo, (k, a) :: t => (match lo with | none => true | some l => decide (l < k)) && decide (a ≠ d) && Tab.wfFrom d (some k) t

/-- The canonical form. -/
def Tab.wf {α : Type} [DecidableEq α] (d : α) (t : Tab α) : Bool := Tab.wfFrom d none t

/-- Keeps the entries that pass a test, changing the others back to what an unlisted key reads as. -/
def Tab.keep {α : Type} (t : Tab α) (p : Nat → α → Bool) : Tab α := t.filter (fun e => p e.1 e.2)

/-- Writes a run of values at consecutive keys. -/
def Tab.setRun {α : Type} [DecidableEq α] (d : α) : Tab α → Nat → List α → Tab α
  | t, _, [] => t
  | t, k, a :: as => Tab.setRun d (Tab.set d t k a) (k + 1) as

/-- Reads a run of values at consecutive keys. -/
def Tab.getRun {α : Type} (d : α) (t : Tab α) (k : Nat) : Nat → List α
  | 0 => []
  | n + 1 => Tab.get d t k :: Tab.getRun d t (k + 1) n

/-- Changes every listed entry, dropping those that become what an unlisted key reads as. -/
def Tab.mapAll {α : Type} [DecidableEq α] (d : α) (t : Tab α) (f : Nat → α → α) : Tab α :=
  (t.map (fun e => (e.1, f e.1 e.2))).filter (fun e => decide (e.2 ≠ d))

end Sys2Proof.Machine
end

