-- ==== Sys2Proof/Machine/StateMem.lean ====
section
/-! DEFINITION. State of memory and the cache slices (07_memory_and_last_level_cache.md). -/

namespace Sys2Proof.Machine

/-- A line held in a slice: its line address (global address / 128), the valid and dirty bits of its four sectors, its
encoding (Table 7.4) and, for a remote line, its epoch (R162). -/
structure Line where
  addr : Nat := 0
  valid : Nat := 0
  dirty : Nat := 0
  enc : Nat := 0
  remote : Bool := false
  epoch : Nat := 0
  deriving DecidableEq, Repr

/-- One set of a slice: 16 ways of at most two lines each, and the 15 bits of its tree (R148, R150). -/
structure CSet where
  ways : List (List Line) := []
  plru : Nat := 0
  deriving DecidableEq, Repr

/-- An entry of the miss tracker: its line, the sectors asked for and not come, the waiting requesters and the class
(R152, R153). -/
structure Miss where
  line : Nat
  want : Nat := 0
  /-- The sectors whose fetch has been issued; none while the channel issues nothing (R152, R169). -/
  issued : Nat := 0
  who : List Nat := []
  /-- Whether any requester is of the serving class (R153), and whether the one that opened the entry was (R152). -/
  serving : Bool := false
  opened : Bool := false
  /-- The sectors that a write of a part merges into when they come (R148). -/
  merge : Nat := 0
  /-- The bypassed stream that it serves, by number: the line is delivered without allocation (R154). -/
  bypass : Option Nat := none
  /-- A dead-block mark has taken effect, for an operation on these cores: the line is dropped when its fill ends (R156). -/
  drop : Option (List Nat) := none
  deriving DecidableEq, Repr

/-- A request stream that a slice watches (R154). -/
structure Strm where
  core : Nat
  /-- The number of the stream among all that its slice has watched. -/
  num : Nat := 0
  last : Nat
  up : Bool := true
  run : Nat := 0
  bypassed : Bool := false
  deriving DecidableEq, Repr

/-- A request that waits at the slice input for a free entry (R152). -/
structure Held where
  core : Nat
  addr : Nat
  mask : Nat
  serving : Bool
  /-- Whether it is a write of parts of sectors (R148). -/
  write : Bool := false
  /-- The bypassed stream that it belongs to, by number. -/
  bypass : Option Nat := none
  deriving DecidableEq, Repr

/-- A cache slice's trackers (R152 to R155, R168, R172). -/
structure Slice where
  misses : List Miss := []
  waiting : List Held := []
  streams : List Strm := []
  /-- Streams watched so far. -/
  nextNum : Nat := 0
  /-- Lines most recently delivered without allocation, newest first, at most 64, each with the number of its stream. -/
  filter : List (Nat × Nat) := []
  delivered : Nat := 0
  rerefs : Nat := 0
  n : Nat := 8
  /-- Requests in the present compression sample, and the misses of its two halves. -/
  sample : Nat := 0
  missOn : Nat := 0
  missOff : Nat := 0
  forced : Bool := false
  deriving DecidableEq, Repr

/-- A memory channel (R166, R167, R169). -/
structure Chan where
  postponed : Nat := 0
  /-- ZQ calibration is due; retraining is due. -/
  due : Bool := false
  dueTrain : Bool := false
  /-- Tj at the last retraining, in sixteenths of a degree; none before the first sample. -/
  trained : Option Int := none
  /-- A calibration or retraining runs, and whether it was forced. -/
  running : Bool := false
  forced : Bool := false
  /-- The address after the last one that the patrol scrubber checked. -/
  patrol : Nat := 0
  deriving DecidableEq, Repr

/-- A remote write not yet acknowledged (R159). -/
structure RWrite where
  tag : Nat
  node : Nat
  addr : Nat
  task : Nat × Nat := (0, 0)
  deriving DecidableEq, Repr

/-- Memory, slices, channels and their objects (Table 7.9). -/
structure Mem where
  /-- The value of every byte at its point of coherence (R149). -/
  mem : Tab (BitVec 8) := []
  /-- What the channels hold: the last value written back (R157). -/
  dram : Tab (BitVec 8) := []
  /-- Staging SRAM: byte `core × 524,288 + offset`. -/
  staging : Tab (BitVec 8) := []
  /-- The lines each compute core's L1 holds, latest first: the line address, and whether it is remote (R158). -/
  l1 : Tab (List (Nat × Bool)) := []
  /-- Poisoned sectors, by sector number (R163). -/
  poison : List Nat := []
  /-- Sectors whose place in memory holds the poison word (R163). -/
  dramPoison : List Nat := []
  /-- Those poisoned by an uncorrectable error of a dirty slice sector (R164). -/
  slicePoison : List Nat := []
  /-- Cached bytes of other engines' memory, by global address (R161). -/
  far : Tab (BitVec 8) := []
  /-- Remote sectors delivered to a waiting operation, whether or not a slice still holds them, each with the value of `farSeq` when
  it was asked for (R161, R162). -/
  given : List (Nat × Nat) := []
  /-- Acquires and remote writes so far: an operation takes only what was asked for since it started (R162, R214). -/
  farSeq : Nat := 0
  sets : Tab CSet := []
  slices : Tab Slice := []
  chans : Tab Chan := []
  rwrites : List RWrite := []
  /-- The tenant that owns each sealed granule (R378), plus one. -/
  seals : Tab Nat := []
  remEpoch : Nat := 0
  corr : Nat := 0
  ue : Nat := 0
  ueAddr : Nat := 0
  sliceCorr : Nat := 0
  sliceUe : Nat := 0
  patrolH : Nat := 12
  patrolDone : Nat := 0
  patrolLate : Nat := 0
  forcedScrub : Nat := 0
  forcedCal : Nat := 0
  longDefer : Nat := 0
  dropLines : Nat := 0
  dropDirty : Nat := 0
  fullWaits : Nat := 0
  merged : Nat := 0
  quota : Nat := 8
  remFills : Nat := 0
  acquires : Nat := 0
  telDrops : Nat := 0
  strMode : Nat := 0
  strLo : Nat := 4
  strHi : Nat := 32
  strN : Nat := 8
  notAlloc : Nat := 0
  strConf : Nat := 0
  cmpMode : Nat := 0
  cmpOn : Nat := 0
  cmpLines : Nat := 0
  cmpMoves : Nat := 0
  cmpConf : Nat := 0
  /-- The two conflict counters at the last comparison (R173). -/
  seen : List Nat := [0, 0]
  deriving DecidableEq, Repr

end Sys2Proof.Machine
end

