-- ==== Sys2Proof/Machine/Cache.lean ====
section
/-! DEFINITION. The cache slices: hash, lines, sectors, replacement, compression and drops (07_memory_and_last_level_cache.md). -/

namespace Sys2Proof.Machine

/-- The exclusive-or of the address bits that fold into bit `i` of the slice number (R147). -/
def sliceBit (a i : Nat) : Bool :=
  (List.range 33).foldl (fun p j => if j % 4 = i then xor p (bitAt a (7 + j)) else p) false

/-- The slice, and the channel, of a 40-bit address (R147). -/
def sliceOf (a : Nat) : Nat := (List.range 4).foldl (fun s i => if sliceBit a i then s + 2 ^ i else s) 0

/-- The set within the slice (R147). -/
def setOf (a : Nat) : Nat := Nat.xor (a / 2 ^ 11) (a / 2 ^ 19) % 256

/-- The key of an address's set among all sets; remote lines are placed by bits [39:0] (R147). -/
def setKey (a : Nat) : Nat := sliceOf (a % 2 ^ 40) * 256 + setOf (a % 2 ^ 40)

/-- The sectors of a line that `n` bytes from `a` touch, as a 4-bit mask, for the line at `128 * la`. -/
def touchMask (la a n : Nat) : Nat :=
  (List.range 4).foldl (fun m i =>
    let lo := 128 * la + 32 * i
    if decide (a < lo + 32) && decide (lo < a + n) then m + 2 ^ i else m) 0

/-- The line addresses that `n` bytes from `a` touch, ascending. -/
def linesOf (a n : Nat) : List Nat :=
  if n = 0 then [] else (List.range ((a + n - 1) / 128 - a / 128 + 1)).map (· + a / 128)

/-- The sector numbers that `n` bytes from `a` touch, ascending. -/
def sectorsOf (a n : Nat) : List Nat :=
  if n = 0 then [] else (List.range ((a + n - 1) / 32 - a / 32 + 1)).map (· + a / 32)

/-- The sectors that `n` bytes from `a` cover whole. -/
def wholeSectors (a n : Nat) : List Nat :=
  (sectorsOf a n).filter (fun s => decide (a ≤ 32 * s) && decide (32 * s + 32 ≤ a + n))

/-! Lines and sets. -/

/-- The ways of a set, sixteen of them. -/
def CSet.way (c : CSet) (i : Nat) : List Line := c.ways.getD i []

/-- Replaces a way of a set. -/
def CSet.setWay (c : CSet) (i : Nat) (ls : List Line) : CSet :=
  { c with ways := (List.range 16).map (fun j => if j = i then ls else c.way j) }

/-- The way that holds a line, if any. -/
def CSet.find (c : CSet) (la : Nat) (remote : Bool) : Option Nat :=
  (List.range 16).find? (fun i => (c.way i).any (fun l => l.addr == la && l.remote == remote))

/-- The line itself, where the set holds it. -/
def CSet.line? (c : CSet) (la : Nat) (remote : Bool) : Option Line :=
  (c.find la remote).bind (fun i => (c.way i).find? (fun l => l.addr == la && l.remote == remote))

/-- Points the tree of pseudo-LRU away from a way (R148). -/
def plruTouch (bits way : Nat) : Nat :=
  let step := fun (b lvl : Nat) =>
    let node := 2 ^ lvl - 1 + way / 2 ^ (4 - lvl)
    let right := bitAt way (3 - lvl)
    if right then (if bitAt b node then b - 2 ^ node else b) else (if bitAt b node then b else b + 2 ^ node)
  (List.range 4).foldl step bits

/-- The way that the tree points to (R148). -/
def plruVictim (bits : Nat) : Nat :=
  (List.range 4).foldl (fun w lvl => 2 * w + (if bitAt bits (2 ^ lvl - 1 + w) then 1 else 0)) 0

/-- The way to take: the lowest invalid way, else the tree's (R148). -/
def CSet.victim (c : CSet) : Nat :=
  ((List.range 16).find? (fun i => (c.way i).isEmpty)).getD (plruVictim c.plru)

/-! Encodings of Table 7.4. -/

/-- Whether a signed value fits in `d` signed bytes. -/
def fitsIn (d : Nat) (v : Int) : Bool := decide (-(2 ^ (8 * d - 1) : Int) ≤ v) && decide (v < (2 ^ (8 * d - 1) : Int))

/-- Whether every word of a line encodes with a base and deltas (R150). -/
def baseDelta (w d : Nat) (bs : Bytes) : Bool :=
  let words := (List.range (128 / w)).map (fun i => leAt bs (w * i) w)
  let zr := fun x => fitsIn d (toSigned (8 * w) x)
  match words.find? (fun x => !zr x) with
  | none => true
  | some base => words.all (fun x => zr x || fitsIn d (toSigned (8 * w) ((x + 2 ^ (8 * w) - base) % 2 ^ (8 * w))))

/-- The smallest encoding of a line that fits in 64 bytes, ties to the lower code; 0 is uncompressed (R150). -/
def lineCode (bs : Bytes) : Nat :=
  let nz := (List.range 32).countP (fun i => decide (leAt bs (4 * i) 4 ≠ 0))
  if nz = 0 then 1
  else
    let c : List (Nat × Nat) :=
      (if nz ≤ 15 then [(4 + 4 * nz, 2)] else []) ++ (if baseDelta 8 1 bs then [(26, 3)] else []) ++
      (if baseDelta 4 1 bs then [(40, 4)] else []) ++ (if baseDelta 8 2 bs then [(42, 5)] else [])
    (c.foldl (fun b x => match b with | none => some x | some y => if x.1 < y.1 then some x else some y) none).elim 0 (·.2)

/-- Whether a slice compresses in a set: pinned, or its sample set, or its decision (R150, R172). -/
def Mem.compressing (m : Mem) (key : Nat) : Bool :=
  if m.cmpMode = 1 then false
  else if m.cmpMode = 2 then true
  else if key % 8 = 0 then true
  else if key % 8 = 1 then false
  else bitAt m.cmpOn (key / 256)

/-- The 128 bytes of a line as the slice holds them. -/
def Mem.lineBytes (m : Mem) (l : Line) : Bytes :=
  if l.remote then m.far.getRun 0 (128 * l.addr) 128 else m.mem.getRun 0 (128 * l.addr) 128

/-! Write-back, eviction and allocation. -/

/-- Replaces a set of a slice. -/
def Mem.putSet (m : Mem) (key : Nat) (c : CSet) : Mem := { m with sets := m.sets.set {} key c }

/-- Counts a line that has become compressed (R151). -/
def Mem.countEnc (m : Mem) (b : Bool) : Mem := if b then { m with cmpLines := add64 m.cmpLines 1 } else m

/-- Gives a sector back the value that the channel holds, poison word and all (R156, R163). -/
def Mem.readBack (m : Mem) (sector : Nat) : Mem :=
  { m with
    mem := m.mem.setRun 0 (32 * sector) (m.dram.getRun 0 (32 * sector) 32)
    poison := if m.dramPoison.contains sector then (if m.poison.contains sector then m.poison else m.poison ++ [sector]) else m.poison.filter (· != sector)
    slicePoison := if m.dramPoison.contains sector then m.slicePoison else m.slicePoison.filter (· != sector) }

/-- A line whose fill is in flight is dropped when the fill ends (R156). -/
def Mem.dropMisses (m : Mem) (cores : List Nat) (la : Nat) : Mem :=
  { m with slices := m.slices.mapAll {} (fun _ s =>
      { s with misses := s.misses.map (fun x => if x.line == la then { x with drop := some (x.drop.getD [] ++ cores) } else x) }) }

/-- Copies a sector's coherent value to the channel, with the poison word where the sector is poisoned and a normal check word
otherwise (R148, R157, R163). -/
def Mem.writeBack (m : Mem) (sector : Nat) : Mem :=
  { m with
    dram := m.dram.setRun 0 (32 * sector) (m.mem.getRun 0 (32 * sector) 32)
    dramPoison := if m.poison.contains sector then (if m.dramPoison.contains sector then m.dramPoison else m.dramPoison ++ [sector]) else m.dramPoison.filter (· != sector) }

/-- Evicts a line: a local line writes back its dirty sectors, and a remote one is forgotten (R148, R161). -/
def Mem.evict (m : Mem) (l : Line) : Mem :=
  if l.remote then
    { m with far := m.far.keep (fun k _ => decide (k < 128 * l.addr) || decide (128 * l.addr + 128 ≤ k) || m.given.any (fun x => x.1 == k / 32)) }
  else (maskBits 4 l.dirty).foldl (fun m i => m.writeBack (4 * l.addr + i)) m

/-- The lowest way of a set that holds one compressed line, other than the line itself, beside which a compressed line fits
(R150; DESIGN CHOICE, log entry 85). -/
def CSet.shareFor (c : CSet) (l : Line) : Option Nat :=
  if l.enc = 0 then none
  else (List.range 16).find? (fun i => match c.way i with
    | [o] => decide (o.enc ≠ 0) && decide (o.remote = l.remote) && decide (o.addr ≠ l.addr)
    | _ => false)

/-- Puts a line into its set: beside one compressed line where both fit, else in the way R148 chooses. -/
def Mem.place (m : Mem) (l : Line) : Mem :=
  let key := setKey (128 * l.addr)
  let c := m.sets.get {} key
  match c.shareFor l with
  | some i =>
    m.putSet key { c.setWay i (c.way i ++ [l]) with plru := plruTouch c.plru i }
  | none =>
    let i := c.victim
    let m := (c.way i).foldl Mem.evict m
    m.putSet key { c.setWay i [l] with plru := plruTouch c.plru i }

/-- The encoding that a line now takes: a line whole in a compressing set has a code, others are uncompressed (R150). -/
def Mem.encOf (m : Mem) (key : Nat) (l : Line) : Nat :=
  if l.valid = 15 && m.compressing key then lineCode (m.lineBytes l) else 0

/-- Counts a partner moved to another way (R151). -/
def Mem.countMove (m : Mem) : Mem := { m with cmpMoves := sat32 m.cmpMoves 1 }

/-- Puts a line back into its way beside its partners, which move away where it is uncompressed (R151). A compressed line alone in
its way joins another way that has room for it (R150). -/
def Mem.resettle (m : Mem) (key : Nat) (c : CSet) (i : Nat) (l : Line) (rest : List Line) : Mem :=
  if l.enc = 0 && !rest.isEmpty then rest.foldl Mem.place (m.countMove.putSet key (c.setWay i [l]))
  else match (if rest.isEmpty then c.shareFor l else none) with
    | some j => m.putSet key ((c.setWay i []).setWay j (c.way j ++ [l]))
    | none => m.putSet key (c.setWay i (l :: rest))

/-- Recomputes a line's encoding after a fill or a write, moving its partner away where the line has grown (R150, R151). -/
def Mem.recode (m : Mem) (la : Nat) (remote : Bool) : Mem :=
  let key := setKey (128 * la)
  let c := m.sets.get {} key
  match c.find la remote, c.line? la remote with
  | some i, some l =>
    let enc := m.encOf key l
    let rest := (c.way i).filter (fun o => !(o.addr == la && o.remote == remote))
    (m.countEnc (enc ≠ 0 && l.enc = 0)).resettle key c i { l with enc := enc } rest
  | _, _ => m

/-- Marks sectors of a line valid, and dirty where `dirty` says, allocating the line where the set lacks it (R148). -/
def Mem.touch (m : Mem) (la valid dirty : Nat) : Mem :=
  let key := setKey (128 * la)
  let c := m.sets.get {} key
  let m := match c.find la false with
    | some i =>
      let upd := (c.way i).map (fun (l : Line) => if l.addr == la && l.remote == false
        then { l with valid := Nat.lor l.valid valid, dirty := Nat.lor l.dirty dirty } else l)
      m.putSet key { c.setWay i upd with plru := plruTouch c.plru i }
    | none => m.place { addr := la, valid := valid, dirty := dirty }
  m.recode la false

/-- Changes the coherent value of bytes; a sector written whole is good again (R149, R163). -/
def Mem.storeValue (m : Mem) (a : Nat) (bs : Bytes) : Mem :=
  { m with
    mem := m.mem.setRun 0 a bs
    poison := m.poison.filter (fun s => !(wholeSectors a bs.length).contains s)
    slicePoison := m.slicePoison.filter (fun s => !(wholeSectors a bs.length).contains s) }

/-- Stores bytes at a local address through the slices: the coherent value, and valid and dirty sectors (R148, R149). The fetch of
a sector written in part ends here, as good (log entry 86). -/
def Mem.store (m : Mem) (a : Nat) (bs : Bytes) : Mem :=
  let m := m.storeValue a bs
  (linesOf a bs.length).foldl (fun m la => m.touch la (touchMask la a bs.length) (touchMask la a bs.length)) m

/-- Stores bytes straight to the channel, as a bypassed stream does (R154). -/
def Mem.storeAround (m : Mem) (a : Nat) (bs : Bytes) : Mem :=
  { m.storeValue a bs with
    dram := m.dram.setRun 0 a bs
    dramPoison := m.dramPoison.filter (fun s => !(wholeSectors a bs.length).contains s) }

/-- Whether any sector that the bytes touch is poisoned (R163). -/
def Mem.poisoned (m : Mem) (a n : Nat) : Bool := (sectorsOf a n).any (m.poison.contains ·)

/-- Poisons a sector, in the slice and in memory (R163). -/
def Mem.poisonSector (m : Mem) (s : Nat) (fromSlice : Bool) : Mem :=
  let m := m.writeBack s
  { m with
    dramPoison := if m.dramPoison.contains s then m.dramPoison else m.dramPoison ++ [s]
    poison := if m.poison.contains s then m.poison else m.poison ++ [s]
    slicePoison := if fromSlice && !m.slicePoison.contains s then m.slicePoison ++ [s] else m.slicePoison }

/-- Whether a slice or the L1 of one of some cores holds a line (R156). -/
def Mem.holds (m : Mem) (cores : List Nat) (la : Nat) (remote : Bool) : Bool :=
  ((m.sets.get {} (setKey (128 * la))).find la remote).isSome || m.l1.any (fun e => cores.contains e.1 && e.2.contains (la, remote))

/-- Takes a line out of its slice (R156). -/
def Mem.remove (m : Mem) (la : Nat) (remote : Bool) : Mem :=
  let key := setKey (128 * la)
  let c := m.sets.get {} key
  match c.find la remote with
  | some i => m.putSet key (c.setWay i ((c.way i).filter (fun o => !(o.addr == la && o.remote == remote))))
  | none => m

/-- Drops one line without writing back: its dirty sectors go back to what the channel holds (R156, R157). -/
def Mem.dropNow (m : Mem) (cores : List Nat) (remote : Bool) (la : Nat) : Mem :=
  let dirty := (((m.sets.get {} (setKey (128 * la))).line? la remote).map (·.dirty)).getD 0
  if m.holds cores la remote then
    let m := if remote then m.evict { addr := la, remote := true }
      else (maskBits 4 dirty).foldl (fun m i => m.readBack (4 * la + i)) m
    ({ m with
      l1 := m.l1.mapAll [] (fun c ls => if cores.contains c then ls.filter (· != (la, remote)) else ls)
      dropLines := add64 m.dropLines 1
      dropDirty := add64 m.dropDirty (popCount 4 dirty) } : Mem).remove la remote
  else m

/-- Whether a fill of a local line is in progress. -/
def Mem.filling (m : Mem) (la : Nat) : Bool := m.slices.any (fun s => s.2.misses.any (fun x => x.line == la))

/-- Drops one line: at once, or when the fill that it has in progress ends (R156). -/
def Mem.dropLine (m : Mem) (cores : List Nat) (remote : Bool) (la : Nat) : Mem :=
  if !remote && m.filling la then m.dropMisses cores la else m.dropNow cores remote la

/-- Drops the lines of an extent: those wholly inside, or with EDGE every line it touches (R106, R156). -/
def Mem.dropExtent (m : Mem) (cores : List Nat) (edge remote : Bool) (a n : Nat) : Mem :=
  ((linesOf a n).filter (fun la => edge || (decide (a ≤ 128 * la) && decide (128 * la + 128 ≤ a + n)))).foldl
    (fun m la => m.dropLine cores remote la) m

/-- A read allocates its line in a core's L1: 128 sets of 4 ways (R158; which set, and that the least recently used line goes, is
DESIGN CHOICE, log entry 86). -/
def Mem.allocL1 (m : Mem) (core la : Nat) (remote : Bool) : Mem :=
  let ls := (m.l1.get [] core).filter (· != (la, remote))
  let peers := ls.filter (fun x => x.1 % 128 == la % 128)
  { m with l1 := m.l1.set [] core ((la, remote) :: ls.filter (fun x => !(peers.drop 3).contains x)) }

/-- Invalidates every remote line, as an acquire does; what has been delivered to operations that wait already stays theirs
(R159, R162). -/
def Mem.acquire (m : Mem) : Mem :=
  { m with far := m.far.keep (fun k _ => m.given.any (fun x => x.1 == k / 32))
           remEpoch := m.remEpoch + 1, farSeq := m.farSeq + 1, acquires := add64 m.acquires 1 }

/-- Whether a slice holds the bytes of a remote address in this epoch (R161, R162). -/
def Mem.farValid (m : Mem) (a n : Nat) : Bool :=
  (linesOf a n).all (fun la => match (m.sets.get {} (setKey (128 * la))).line? la true with
    | some l => decide (l.epoch = m.remEpoch) && decide (Nat.land l.valid (touchMask la a n) = touchMask la a n)
    | none => false)

/-- Whether the bytes of a remote address are held in this epoch, or have been delivered to an operation that started at `since`
(R161, R162). -/
def Mem.farHeld (m : Mem) (since a n : Nat) : Bool :=
  (sectorsOf a n).all (fun s => m.given.any (fun x => x.1 == s && decide (since ≤ x.2)) || m.farValid (32 * s) 32)

/-- Writes bytes into the copy of a remote line that is held here, sector by sector (R161). -/
def Mem.updateFar (m : Mem) (a : Nat) (bs : Bytes) : Mem :=
  { m with far := (sectorsOf a bs.length).foldl (fun far s =>
      let lo := max a (32 * s)
      if m.farValid (32 * s) 32 then far.setRun 0 lo (slice bs (lo - a) (min (a + bs.length) (32 * s + 32) - lo)) else far) m.far }

/-- Fills a remote line with bytes from its home, within the quota of ways of R161; a fill that was in flight at an
acquire is delivered and left invalid (R162). -/
def Mem.fillFar (m : Mem) (a : Nat) (bs : Bytes) (seq : Nat) (current : Bool) : Mem :=
  let m := { m with
    far := m.far.setRun 0 a bs
    given := m.given.filter (fun x => !(sectorsOf a bs.length).contains x.1) ++ (sectorsOf a bs.length).map (·, seq) }
  if !current then m else (linesOf a bs.length).foldl (fun m la => (fun (m : Mem) => m.recode la true) <|
    let key := setKey (128 * la)
    let c := m.sets.get {} key
    let mask := touchMask la a bs.length
    match c.find la true with
    | some i =>
      let upd := (c.way i).map (fun (l : Line) => if l.addr == la && l.remote
        then { l with valid := if l.epoch = m.remEpoch then Nat.lor l.valid mask else mask, epoch := m.remEpoch } else l)
      m.putSet key { c.setWay i upd with plru := plruTouch c.plru i }
    | none =>
      let l : Line := { addr := la, valid := mask, remote := true, epoch := m.remEpoch }
      let held := (List.range 16).filter (fun i => (c.way i).any (·.remote))
      if m.quota = 0 then m
      else if held.length < m.quota then m.place l
      else
        let i := held.headD 0
        let m := (c.way i).foldl Mem.evict m
        m.putSet key { c.setWay i [l] with plru := plruTouch c.plru i }) m

end Sys2Proof.Machine
end

