-- ==== Sys2Proof/Machine/Crypto.lean ====
section
/-! DEFINITION. The published standards that Table 0.4 names: CRC-32, SHA-256, HMAC, HKDF, AES-256-GCM, AES-256-XTS and ECDSA P-256.
The spec names them and gives no steps; these are the standards' own (PRESUMED, log entry 11). -/

namespace Sys2Proof.Machine

/-- One bit of CRC-32 (IEEE 802.3), reflected. -/
def crc32Bit (c : Nat) : Nat := if c % 2 = 1 then Nat.xor (c / 2) 0xEDB88320 else c / 2

/-- Eight bits of CRC-32. -/
def crc32Byte (c : Nat) (b : Byte) : Nat :=
  crc32Bit (crc32Bit (crc32Bit (crc32Bit (crc32Bit (crc32Bit (crc32Bit (crc32Bit (Nat.xor c b.toNat))))))))

/-- CRC-32 of a run of bytes. -/
def crc32 (bs : Bytes) : Nat := Nat.xor (bs.foldl crc32Byte 0xFFFFFFFF) 0xFFFFFFFF

/-! SHA-256. Its constants are not a table here: each is the first 32 bits after the point of a root of a small prime, as the standard
defines it. The eight working variables are kept as two histories of four, that of `a` and that of `e`, newest first: the others are
earlier values of these two. -/

/-- The greatest number whose `k`-th power is at most `n`, built from bit 36 down. -/
def rootFloor (k n : Nat) : Nat := (List.range 37).foldl (fun r i => if (r + 2 ^ (36 - i)) ^ k ≤ n then r + 2 ^ (36 - i) else r) 0

/-- The first 32 bits after the point of the `k`-th root of `p`. -/
def rootBits (k p : Nat) : Nat := rootFloor k (p * 2 ^ (32 * k)) % 2 ^ 32

/-- The first 64 primes: the greatest is 311, so that trial division by 2 to 17 finds them. -/
def smallPrimes : List Nat :=
  (List.range 312).filter (fun p => decide (1 < p) && (List.range 16).all (fun d => decide (p ≤ d + 2) || decide (p % (d + 2) ≠ 0)))

/-- The round constants, from cube roots. -/
def shaConsts : List Nat := smallPrimes.map (rootBits 3)

/-- The exclusive-or of a 32-bit word turned right by each of some distances. -/
def turns (ds : List Nat) (x : Nat) : Nat :=
  ds.foldl (fun s d => Nat.xor s (x / 2 ^ d + x % 2 ^ d * 2 ^ (32 - d))) 0

/-- The two histories. -/
structure Sha where
  hi : List Nat
  lo : List Nat
  deriving DecidableEq, Repr

/-- The histories before the first block, from square roots of the first eight primes. -/
def Sha.start : Sha := { hi := (smallPrimes.take 4).map (rootBits 2), lo := ((smallPrimes.drop 4).take 4).map (rootBits 2) }

/-- A round: its input is the constant and the schedule word together. -/
def Sha.round (s : Sha) (x : Nat) : Sha :=
  match s.hi, s.lo with
  | [a, b, c, d], [e, f, g, h] =>
    let t := h + turns [6, 11, 25] e + Nat.xor g (Nat.land e (Nat.xor f g)) + x
    { hi := [(t + turns [2, 13, 22] a + Nat.lor (Nat.land a b) (Nat.land c (Nat.lor a b))) % 2 ^ 32, a, b, c]
      lo := [(d + t) % 2 ^ 32, e, f, g] }
  | _, _ => s

/-- The schedule grown by a word, newest first. -/
def shaGrow (w : List Nat) : List Nat :=
  let at_ := fun (back : Nat) => w.getD (back - 1) 0
  (at_ 16 + Nat.xor (turns [7, 18] (at_ 15)) (at_ 15 / 2 ^ 3) + at_ 7 + Nat.xor (turns [17, 19] (at_ 2)) (at_ 2 / 2 ^ 10)) % 2 ^ 32 :: w

/-- The 64 words of a block's schedule, in order. -/
def shaSchedule (blk : Bytes) : List Nat :=
  ((List.range 48).foldl (fun w _ => shaGrow w) ((List.range 16).map (fun i => beVal (slice blk (4 * (15 - i)) 4)))).reverse

/-- A block taken in: the histories after its 64 rounds are added to those before. -/
def Sha.block (s : Sha) (blk : Bytes) : Sha :=
  let r := (List.zipWith (· + ·) shaConsts (shaSchedule blk)).foldl Sha.round s
  let sum := List.zipWith (fun x y => (x + y) % 2 ^ 32)
  { hi := sum s.hi r.hi, lo := sum s.lo r.lo }

/-- SHA-256: the message is closed by a one bit, zeros and its length in bits. -/
def sha256 (m : Bytes) : Bytes :=
  let p := m ++ 0x80#8 :: zeros ((119 - m.length % 64) % 64) ++ beBytes 8 (8 * m.length)
  let s := (List.range (p.length / 64)).foldl (fun (s : Sha) i => s.block (slice p (64 * i) 64)) Sha.start
  (s.hi ++ s.lo).flatMap (beBytes 4)

/-- HMAC-SHA-256. -/
def hmac (key m : Bytes) : Bytes :=
  let k := slice (if 64 < key.length then sha256 key else key) 0 64
  sha256 (k.map (· ^^^ 0x5C#8) ++ sha256 (k.map (· ^^^ 0x36#8) ++ m))

/-- The expansion of HKDF-SHA-256, block by block. -/
def hkdfBlocks (prk info : Bytes) : Nat → Nat → Bytes → Bytes
  | 0, _, _ => []
  | n + 1, i, prev =>
    let t := hmac prk (prev ++ info ++ [byteOf i])
    t ++ hkdfBlocks prk info n (i + 1) t

/-- HKDF-SHA-256 (R376). -/
def hkdf (ikm salt info : Bytes) (len : Nat) : Bytes :=
  (hkdfBlocks (hmac salt ikm) info (cdiv len 32) 1 []).take len

/-- Multiplication by x in the field of AES. -/
def gfDouble (a : Nat) : Nat := if 0x80 ≤ a then Nat.xor (a * 2 % 256) 0x1B else a * 2

/-- Multiplication in the field of AES, over the low `n` bits of `b`. -/
def gfMulAux : Nat → Nat → Nat → Nat
  | 0, _, _ => 0
  | n + 1, a, b => Nat.xor (if b % 2 = 1 then a else 0) (gfMulAux n (gfDouble a) (b / 2))

/-- Multiplication in the field of AES. -/
def gfMul (a b : Nat) : Nat := gfMulAux 8 a b

/-- The inverse in the field of AES, as the 254th power; 0 for 0. -/
def gfInv (a : Nat) : Nat :=
  let a2 := gfMul a a
  let a4 := gfMul a2 a2
  let a8 := gfMul a4 a4
  let a16 := gfMul a8 a8
  let a32 := gfMul a16 a16
  let a64 := gfMul a32 a32
  let a128 := gfMul a64 a64
  gfMul a128 (gfMul a64 (gfMul a32 (gfMul a16 (gfMul a8 (gfMul a4 a2)))))

/-- Rotation of a byte to the left. -/
def rotl8 (n x : Nat) : Nat := Nat.lor (x * 2 ^ n % 256) (x / 2 ^ (8 - n))

/-- The S-box of AES. -/
def aesSbox (a : Nat) : Nat :=
  let b := gfInv a
  Nat.xor (Nat.xor (Nat.xor (Nat.xor b (rotl8 1 b)) (Nat.xor (rotl8 2 b) (rotl8 3 b))) (rotl8 4 b)) 0x63

/-- The S-box as a list. -/
def aesSboxTab : List Nat := (List.range 256).map aesSbox

/-- One S-box look-up. -/
def subByte (t : List Nat) (a : Nat) : Nat := t.getD a 0

/-- The key schedule of AES-256: 60 words of four bytes, from the eight before each. -/
def aesExpand (t : List Nat) : Nat → Nat → Nat → List (List Nat) → List (List Nat)
  | 0, _, _, ws => ws
  | n + 1, i, rc, ws =>
    let prev := ws.getD (i - 1) []
    let tmp :=
      if i % 8 = 0 then
        match prev with
        | [a, b, c, d] => [Nat.xor (subByte t b) rc, subByte t c, subByte t d, subByte t a]
        | _ => prev
      else if i % 8 = 4 then prev.map (subByte t) else prev
    let w := List.zipWith Nat.xor (ws.getD (i - 8) []) tmp
    aesExpand t n (i + 1) (if i % 8 = 0 then gfDouble rc else rc) (ws ++ [w])

/-- The fifteen round keys of AES-256, sixteen bytes each. -/
def aesKeys (t : List Nat) (key : Bytes) : List (List Nat) :=
  let w0 := (List.range 8).map (fun i => (slice key (4 * i) 4).map (·.toNat))
  let ws := aesExpand t 52 8 1 w0
  (List.range 15).map (fun r => ((ws.drop (4 * r)).take 4).flatten)

/-- ShiftRows on a state held column by column. -/
def shiftRows (s : List Nat) : List Nat :=
  (List.range 16).map (fun i => s.getD ((i + 4 * (i % 4)) % 16) 0)

/-- MixColumns on one column. -/
def mixColumn (s : List Nat) : List Nat :=
  match s with
  | [a, b, c, d] =>
    [Nat.xor (Nat.xor (gfDouble a) (Nat.xor (gfDouble b) b)) (Nat.xor c d),
     Nat.xor (Nat.xor (gfDouble b) (Nat.xor (gfDouble c) c)) (Nat.xor a d),
     Nat.xor (Nat.xor (gfDouble c) (Nat.xor (gfDouble d) d)) (Nat.xor a b),
     Nat.xor (Nat.xor (gfDouble d) (Nat.xor (gfDouble a) a)) (Nat.xor b c)]
  | _ => s

/-- The middle rounds and the last round of AES. -/
def aesRounds (t : List Nat) : List (List Nat) → List Nat → List Nat
  | [], s => s
  | [k], s => List.zipWith Nat.xor (shiftRows (s.map (subByte t))) k
  | k :: ks, s =>
    let m := shiftRows (s.map (subByte t))
    let m := mixColumn (m.take 4) ++ mixColumn ((m.drop 4).take 4) ++ mixColumn ((m.drop 8).take 4) ++ mixColumn (m.drop 12)
    aesRounds t ks (List.zipWith Nat.xor m k)

/-- AES-256 of one block, under an expanded key. -/
def aesBlock (t : List Nat) (ks : List (List Nat)) (blk : Bytes) : Bytes :=
  match ks with
  | [] => blk
  | k0 :: rest => (aesRounds t rest (List.zipWith Nat.xor (blk.map (·.toNat)) k0)).map byteOf

/-- Multiplication in the field of GHASH: bit `i` of the block is bit `127 - i` of the number. -/
def ghashMulAux : Nat → Nat → Nat → Nat → Nat
  | 0, _, _, z => z
  | n + 1, x, v, z =>
    ghashMulAux n x (if v % 2 = 1 then Nat.xor (v / 2) (0xE1 * 2 ^ 120) else v / 2)
      (if x.testBit n then Nat.xor z v else z)

/-- Multiplication in the field of GHASH. -/
def ghashMul (x y : Nat) : Nat := ghashMulAux 128 x y 0

/-- GHASH over `n` blocks. -/
def ghash (h : Nat) : Nat → Bytes → Nat → Nat
  | 0, _, y => y
  | n + 1, bs, y => ghash h n (bs.drop 16) (ghashMul (Nat.xor y (beVal (slice bs 0 16))) h)

/-- The counter blocks of GCM, enciphered. -/
def gcmStream (t : List Nat) (ks : List (List Nat)) (nonce : Bytes) : Nat → Nat → Bytes
  | 0, _ => []
  | n + 1, c => aesBlock t ks (nonce ++ beBytes 4 c) ++ gcmStream t ks nonce n (c + 1)

/-- Pads a run of bytes with zeros to whole blocks of sixteen. -/
def pad16 (bs : Bytes) : Bytes := bs ++ zeros ((16 - bs.length % 16) % 16)

/-- The tag of AES-256-GCM over additional data and ciphertext. -/
def gcmTag (t : List Nat) (ks : List (List Nat)) (nonce aad ct : Bytes) : Bytes :=
  let h := beVal (aesBlock t ks (zeros 16))
  let m := pad16 aad ++ pad16 ct ++ beBytes 8 (8 * aad.length) ++ beBytes 8 (8 * ct.length)
  let y := ghash h (m.length / 16) m 0
  beBytes 16 (Nat.xor y (beVal (aesBlock t ks (nonce ++ beBytes 4 1))))

/-- AES-256-GCM with a 12-byte nonce: the ciphertext and the tag. -/
def gcmSeal (key nonce aad pt : Bytes) : Bytes × Bytes :=
  let t := aesSboxTab
  let ks := aesKeys t key
  let ct := xorBytes pt (gcmStream t ks nonce (cdiv pt.length 16) 2)
  (ct, gcmTag t ks nonce aad ct)

/-- AES-256-GCM: the plaintext, where the tag is right. -/
def gcmOpen (key nonce aad ct tag : Bytes) : Option Bytes :=
  let t := aesSboxTab
  let ks := aesKeys t key
  if gcmTag t ks nonce aad ct = tag then some (xorBytes ct (gcmStream t ks nonce (cdiv ct.length 16) 2)) else none

/-- An XTS tweak for the next block: doubled in the field of 2^128, its first byte least significant. -/
def xtsNext (t : Nat) : Nat := if t < 2 ^ 127 then 2 * t else Nat.xor (2 * t - 2 ^ 128) 0x87

/-- AES-256-XTS of `n` whole blocks under the first key, expanded, from a tweak already enciphered. -/
def xtsBlocks (t : List Nat) (ks : List (List Nat)) : Nat → Nat → Bytes → Bytes
  | 0, _, _ => []
  | n + 1, tw, bs =>
    let m := leBytes 16 tw
    xorBytes (aesBlock t ks (xorBytes (slice bs 0 16) m)) m ++ xtsBlocks t ks n (xtsNext tw) (bs.drop 16)

/-- AES-256-XTS of a 32-byte sector under a 64-byte key, its tweak a 128-bit little-endian number (R379). -/
def xtsSector (key : Bytes) (tweak : Nat) (sector : Bytes) : Bytes :=
  let t := aesSboxTab
  let tw := leVal (aesBlock t (aesKeys t (slice key 32 32)) (leBytes 16 tweak))
  xtsBlocks t (aesKeys t (slice key 0 32)) 2 tw sector

/-- The prime of P-256. -/
def p256P : Nat := 2 ^ 256 - 2 ^ 224 + 2 ^ 192 + 2 ^ 96 - 1
/-- The order of P-256. -/
def p256N : Nat := 0xffffffff00000000ffffffffffffffffbce6faada7179e84f3b9cac2fc632551
/-- The constant b of P-256. -/
def p256B : Nat := 0x5ac635d8aa3a93e7b3ebbd55769886bc651d06b0cc53b0f63bce3c3e27d2604b

/-- Modular power, over the low `n` bits of the exponent. -/
def powModAux (m : Nat) : Nat → Nat → Nat → Nat → Nat
  | 0, _, _, acc => acc
  | n + 1, b, e, acc => powModAux m n (b * b % m) (e / 2) (if e % 2 = 1 then acc * b % m else acc)

/-- The inverse modulo a prime. -/
def invMod (m a : Nat) : Nat := powModAux m 256 (a % m) (m - 2) 1

/-- Subtraction modulo `m`. -/
def subMod (m a b : Nat) : Nat := (a + m - b % m) % m

/-- A point of P-256 in Jacobian coordinates: x is X / Z^2 and y is Y / Z^3, and Z is 0 for the point at infinity. -/
structure P256 where
  x : Nat
  y : Nat
  z : Nat
  deriving DecidableEq, Repr

/-- The base point of P-256. -/
def p256G : P256 :=
  ⟨0x6b17d1f2e12c4247f8bce6e563a440f277037d812deb33a0f4a13945d898c296,
   0x4fe342e2fe1a7f9b8ee7eb4a7c0f9e162bce33576b315ececbb6406837bf51f5, 1⟩

/-- The point at infinity. -/
def P256.zero : P256 := ⟨1, 1, 0⟩

/-- Twice a point. -/
def P256.double (a : P256) : P256 :=
  let d := a.z * a.z % p256P
  let g := a.y * a.y % p256P
  let b := a.x * g % p256P
  let l := 3 * subMod p256P a.x d * (a.x + d) % p256P
  let x := subMod p256P (l * l) (8 * b)
  ⟨x, subMod p256P (l * subMod p256P (4 * b) x) (8 * g * g), 2 * a.y * a.z % p256P⟩

/-- The sum of two points. -/
def P256.add (a b : P256) : P256 :=
  if a.z = 0 then b
  else if b.z = 0 then a
  else
    let za := a.z * a.z % p256P
    let zb := b.z * b.z % p256P
    let u := a.x * zb % p256P
    let s := a.y * zb * b.z % p256P
    let h := subMod p256P (b.x * za) u
    let r := subMod p256P (b.y * za * a.z) s
    if h = 0 then (if r = 0 then a.double else P256.zero)
    else
      let hh := h * h % p256P
      let x := subMod p256P (subMod p256P (r * r) (h * hh)) (2 * u * hh)
      ⟨x, subMod p256P (r * subMod p256P (u * hh) x) (s * h * hh), h * a.z * b.z % p256P⟩

/-- A multiple of a point, over the low `n` bits of the multiplier, added to another. -/
def p256MulAux : Nat → Nat → P256 → P256 → P256
  | 0, _, _, acc => acc
  | n + 1, k, p, acc => p256MulAux n (k / 2) p.double (if k % 2 = 1 then acc.add p else acc)

/-- Whether a point lies on P-256. -/
def p256On (x y : Nat) : Bool :=
  decide (x < p256P) && decide (y < p256P) && (y * y % p256P == (x * x * x + subMod p256P p256B (3 * x)) % p256P)

/-- ECDSA P-256 over the SHA-256 digest of a message (R373): X, Y, r and s are numbers. -/
def ecdsaOk (x y r s : Nat) (m : Bytes) : Bool :=
  if p256On x y && decide (0 < r) && decide (r < p256N) && decide (0 < s) && decide (s < p256N) then
    let w := invMod p256N s
    let z := beVal (sha256 m)
    let sum := p256MulAux 256 (r * w % p256N) ⟨x, y, 1⟩ (p256MulAux 256 (z * w % p256N) p256G P256.zero)
    let i := invMod p256P sum.z
    decide (sum.z ≠ 0) && decide (sum.x * (i * i) % p256P % p256N = r)
  else false

end Sys2Proof.Machine
end

