-- ==== Sys2Proof/Config.lean ====
section
/-! DEFINITION. What an implementation or a single chip fixes, and the values the spec leaves free. An opaque constant
has no value that Lean can see: a statement about it holds for every value. -/

namespace Sys2Proof.Config

/-- The chip identity of the factory area (0x1000:06), per chip (Table 15.2). -/
opaque chipIdentity : Nat

/-- The root key of the factory area, per chip, never readable (Table 15.2). -/
opaque rootKey : Nat

/-- The factory password of the factory area, per chip, never readable (Table 15.2). -/
opaque factoryPassword : Nat

/-- The oscillator, regulator, sensor and memory-interface trims of the factory area, per chip (Table 15.2). -/
opaque otherTrims : Nat

/-- The hash in firmware key slot 0, programmed by Penulend (Table 15.1). -/
opaque keyHash0 : Nat

/-- The n-th 16-byte value drawn from the entropy source (R375): a challenge or a job salt. A free value. -/
opaque entropy : Nat → Nat

/-- The n-th duration the spec gives no figure for, in nanoseconds (an operation's active duration in R121, the
service time of a request in R308). A free value. -/
opaque freeNs : Nat → Nat

/-- The cause recorded for a return from Doze that a late write of 0x2000:01 starts, as a number whose remainder by three is
a cause of R239; the spec names no cause for it (R252). A free value. -/
opaque lateCause : Nat

/-- What the event of a wake gives as the old value of 0x2000:02, which Dormant has no value for (R235). A free value. -/
opaque dormantState : Nat

/-- The bits that the n-th OTP word which failed to verify holds after all, of those it was given (R368). A free value. -/
opaque otpBits : Nat → Nat

/-- The fraction of a NaN in a float spill entry, which Table 3.6 says only is not 0. A free value. -/
opaque spillNan : Nat

/-- The levels of the balls whose signals the model does not hold, at the n-th sampling of the boundary-scan cells (CLKREQ_N
and the TDM balls, R361). A free value. -/
opaque balls : Nat → Nat

end Sys2Proof.Config
end

