-- ==== Sys2Proof/Machine/Exact.lean ====
section
/-! DEFINITION. Exact values: the numbers that codes decode to, and one rounding at the end
(R40, R41, R48, R58; 02_number_formats.md, 03_dot_products_and_accumulators.md). A finite value is
`(−1)^neg × n × 2^e / d` with `d ≠ 0`; values decoded from codes have `d = 1`. -/

namespace Sys2Proof.Machine

/-- An exact value, or an infinity, or a NaN. NaN payloads and signs are not carried (R42). -/
inductive XV where
  | nan
  | inf (neg : Bool)
  | fin (neg : Bool) (n d : Nat) (e : Int)
  deriving DecidableEq, Repr

def XV.zero (neg : Bool) : XV := .fin neg 0 1 0

def XV.ofInt (i : Int) : XV := .fin (decide (i < 0)) i.natAbs 1 0

def XV.isNan : XV → Bool
  | .nan => true
  | _ => false

def XV.isInf : XV → Bool
  | .inf _ => true
  | _ => false

def XV.isFin : XV → Bool
  | .fin _ _ _ _ => true
  | _ => false

def XV.isZero : XV → Bool
  | .fin _ n _ _ => n == 0
  | _ => false

def XV.neg? : XV → Bool
  | .nan => false
  | .inf s => s
  | .fin s _ _ _ => s

/-- Flips the sign (R116: negation changes only the sign). -/
def XV.negate : XV → XV
  | .nan => .nan
  | .inf s => .inf (!s)
  | .fin s n d e => .fin (!s) n d e

/-- Clears the sign. -/
def XV.abs : XV → XV
  | .nan => .nan
  | .inf _ => .inf false
  | .fin _ n d e => .fin false n d e

/-- Multiplies by `2^k`, exactly. -/
def XV.scale (k : Int) : XV → XV
  | .fin s n d e => .fin s n d (e + k)
  | x => x

/-- `n × 2^e` as a natural number, for `e ≥ lo`, counted in units of `2^lo`. -/
def shiftTo (n : Nat) (e lo : Int) : Nat := n * 2 ^ (e - lo).toNat

/-- The signed numerator over a common exponent. -/
def signedAt (neg : Bool) (n : Nat) (e lo : Int) : Int :=
  if neg then - (shiftTo n e lo : Int) else (shiftTo n e lo : Int)

/-- Exact product; the sign is the exclusive-or of the signs, and ∞ × 0 is NaN (R40). -/
def XV.mul : XV → XV → XV
  | .nan, _ => .nan
  | _, .nan => .nan
  | .inf s, .inf t => .inf (xor s t)
  | .inf s, .fin t n _ _ => if n = 0 then .nan else .inf (xor s t)
  | .fin s n _ _, .inf t => if n = 0 then .nan else .inf (xor s t)
  | .fin s n d e, .fin t m c f => .fin (xor s t) (n * m) (d * c) (e + f)

/-- Exact sum; a zero sum is +0 unless both addends are −0, and ∞ + (−∞) is NaN (R40). -/
def XV.add : XV → XV → XV
  | .nan, _ => .nan
  | _, .nan => .nan
  | .inf s, .inf t => if s = t then .inf s else .nan
  | .inf s, _ => .inf s
  | _, .inf t => .inf t
  | .fin s n d e, .fin t m c f =>
    let lo := min e f
    let (x, y, den) :=
      if d = c then (signedAt s n e lo, signedAt t m f lo, d)
      else (signedAt s (n * c) e lo, signedAt t (m * d) f lo, d * c)
    let z := x + y
    if z = 0 then .fin (s && t && n == 0 && m == 0) 0 1 0
    else .fin (decide (z < 0)) z.natAbs den lo

def XV.sub (x y : XV) : XV := x.add y.negate

/-- Exact quotient, with IEEE 754's zeros and infinities. -/
def XV.div : XV → XV → XV
  | .nan, _ => .nan
  | _, .nan => .nan
  | .inf _, .inf _ => .nan
  | .inf s, .fin t _ _ _ => .inf (xor s t)
  | .fin s _ _ _, .inf t => .zero (xor s t)
  | .fin s n d e, .fin t m c f =>
    if m = 0 then (if n = 0 then .nan else .inf (xor s t))
    else .fin (xor s t) (n * c) (d * m) (e - f)

/-- Exact sum of a list, from the left; the empty sum is +0. -/
def XV.sum : List XV → XV
  | [] => .zero false
  | x :: xs => xs.foldl XV.add x

/-- The ordering of two values that are not NaN; −0 equals +0 (R41). -/
def XV.ltFin (x y : XV) : Bool :=
  match x, y with
  | .inf s, .inf t => s && !t
  | .inf s, .fin _ _ _ _ => s
  | .fin _ _ _ _, .inf t => !t
  | .fin s n d e, .fin t m c f =>
    let lo := min e f
    decide (signedAt s (n * c) e lo < signedAt t (m * d) f lo)
  | _, _ => false

/-- `x < y`; false where either is NaN (R41). -/
def XV.lt (x y : XV) : Bool := !x.isNan && !y.isNan && XV.ltFin x y

/-- `x ≤ y`; false where either is NaN. -/
def XV.le (x y : XV) : Bool := !x.isNan && !y.isNan && !XV.ltFin y x

/-- Equal as values (R41). -/
def XV.eqv (x y : XV) : Bool := XV.le x y && XV.le y x

/-- The greater; a NaN makes the result NaN, and max(−0, +0) is +0 (R41). -/
def XV.max (x y : XV) : XV :=
  if x.isNan || y.isNan then .nan
  else if XV.ltFin x y then y else if XV.ltFin y x then x
  else if x.neg? then y else x

/-- The lesser; a NaN makes the result NaN, and min(−0, +0) is −0 (R41). -/
def XV.min (x y : XV) : XV :=
  if x.isNan || y.isNan then .nan
  else if XV.ltFin x y then x else if XV.ltFin y x then y
  else if x.neg? then x else y

/-- `⌊log₂ (n / d)⌋` for non-zero `n` and `d`. -/
def ilog2Div (n d : Nat) : Int :=
  let g : Int := (n.log2 : Int) - (d.log2 : Int)
  let ok := if 0 ≤ g then decide (d * 2 ^ g.toNat ≤ n) else decide (d ≤ n * 2 ^ (-g).toNat)
  if ok then g else g - 1

/-- The leading position `⌊log₂ |x|⌋` of a finite non-zero value. -/
def XV.lead : XV → Option Int
  | .fin _ n d e => if n = 0 then none else some (ilog2Div n d + e)
  | _ => none

/-- `num / den` rounded to an integer, to nearest with ties to even. -/
def rneNat (num den : Nat) : Nat :=
  let q := num / den
  let r := num % den
  if 2 * r < den then q else if den < 2 * r then q + 1 else if q % 2 = 0 then q else q + 1

/-- `n × 2^e / d` rounded by RNE to a whole number of units `2^u`. -/
def rneUnits (n d : Nat) (e u : Int) : Nat :=
  if u ≤ e then rneNat (n * 2 ^ (e - u).toNat) d else rneNat n (d * 2 ^ (u - e).toNat)

/-- Rounds by RNE to a significand of `p` bits with unbounded exponent range (R65, R72). -/
def XV.roundSig (p : Nat) : XV → XV
  | .fin s n d e =>
    if n = 0 then .fin s 0 1 0
    else
      let u := ilog2Div n d + e - (p : Int) + 1
      .fin s (rneUnits n d e u) 1 u
  | x => x

/-- Rounds by RNE to an integer; `none` for a value that is not finite. -/
def XV.roundInt : XV → Option Int
  | .fin s n d e =>
    let m : Int := rneUnits n d e 0
    some (if s then -m else m)
  | _ => none

/-- Whether two lists of values agree as values. -/
def XV.rel2 (k : Int) (x y : XV) : Bool := XV.lt (y.scale k) x

end Sys2Proof.Machine
end

