-- ==== Sys2Proof/Machine/Formats.lean ====
section
/-! DEFINITION. The sixteen format codes: decoding, expansion into pieces, and conversion with one rounding
(R32 to R53; 02_number_formats.md), and the layout of a stored tensor (R34, R37, R109). -/

namespace Sys2Proof.Machine

/-- Format codes of Table 2.1. -/
abbrev Code := Nat

def cI4 : Code := 0x0
def cU4 : Code := 0x1
def cI8 : Code := 0x2
def cU8 : Code := 0x3
def cF4 : Code := 0x4
def cE4M3 : Code := 0x5
def cE5M2 : Code := 0x6
def cXI4 : Code := 0x7
def cXI8 : Code := 0x8
def cXE4M3 : Code := 0x9
def cI16 : Code := 0xA
def cF16 : Code := 0xB
def cBF16 : Code := 0xC
def cF32 : Code := 0xD
def cI32 : Code := 0xE
def cF16S : Code := 0xF

/-- Element bits of Table 2.1. -/
def elBits (c : Code) : Nat :=
  match c with
  | 0 | 1 | 4 | 7 => 4
  | 2 | 3 | 5 | 6 | 8 | 9 => 8
  | 0xA | 0xB | 0xC | 0xF => 16
  | _ => 32

/-- The block-exponent codes. -/
def isX (c : Code) : Bool := c == cXI4 || c == cXI8 || c == cXE4M3

/-- The integer codes of Table 2.3. -/
def isIntCode (c : Code) : Bool := c == cI4 || c == cU4 || c == cI8 || c == cU8 || c == cI16 || c == cI32

/-- The plain float codes and F16S, which the vector class calls float stored. -/
def isFloatStored (c : Code) : Bool := !isIntCode c && !(c == cXI4 || c == cXI8)

/-- Codes accepted as multiplier inputs (Table 2.1). -/
def isMulInput (c : Code) : Bool := c != cI32 && decide (c < 16)

/-- The layout of a float code (Table 2.4). -/
structure FFmt where
  w : Nat
  eb : Nat
  bias : Nat
  maxCode : Nat
  infCode : Option Nat
  nanCode : Option Nat
  deriving DecidableEq, Repr

def fmtF4 : FFmt := ⟨1, 2, 1, 0x7, none, none⟩
def fmtE4M3 : FFmt := ⟨3, 4, 7, 0x7E, none, some 0x7F⟩
def fmtE5M2 : FFmt := ⟨2, 5, 15, 0x7B, some 0x7C, some 0x7E⟩
def fmtF16 : FFmt := ⟨10, 5, 15, 0x7BFF, some 0x7C00, some 0x7E00⟩
def fmtBF16 : FFmt := ⟨7, 8, 127, 0x7F7F, some 0x7F80, some 0x7FC0⟩
def fmtF32 : FFmt := ⟨23, 8, 127, 0x7F7FFFFF, some 0x7F800000, some 0x7FC00000⟩

/-- The float layout of an element code; `none` for integers. -/
def ffmt? (c : Code) : Option FFmt :=
  match c with
  | 0x4 => some fmtF4
  | 0x5 | 0x9 => some fmtE4M3
  | 0x6 => some fmtE5M2
  | 0xB | 0xF => some fmtF16
  | 0xC => some fmtBF16
  | 0xD => some fmtF32
  | _ => none

/-- Decodes a float code (R35). -/
def decodeF (f : FFmt) (c : Nat) : XV :=
  let sgn := c.testBit (f.w + f.eb)
  let body := c % 2 ^ (f.w + f.eb)
  let ex := body / 2 ^ f.w
  let m := body % 2 ^ f.w
  if body ≤ f.maxCode then
    if ex = 0 then .fin sgn m 1 (1 - (f.bias : Int) - f.w)
    else .fin sgn (2 ^ f.w + m) 1 ((ex : Int) - f.bias - f.w)
  else if f.infCode = some body then .inf sgn else .nan

/-- Whether a float code is a non-zero subnormal. -/
def isSubF (f : FFmt) (c : Nat) : Bool :=
  let body := c % 2 ^ (f.w + f.eb)
  decide (0 < body) && decide (body < 2 ^ f.w)

/-- The magnitude code a finite value rounds to by RNE with unbounded exponent; above `maxCode` it overflows. -/
def magCode (f : FFmt) (n d : Nat) (e : Int) : Nat :=
  if n = 0 then 0
  else
    let p := ilog2Div n d + e
    let u := max (p - f.w) (1 - (f.bias : Int) - f.w)
    let m := rneUnits n d e u
    if m < 2 ^ f.w then m
    else (u + f.w + f.bias).toNat * 2 ^ f.w + (m - 2 ^ f.w)

/-- The numeric events of one converted element (Table 3.10): saturations and flushes. -/
structure Cnt where
  sat : Nat := 0
  flush : Nat := 0
  deriving DecidableEq, Repr

def Cnt.add (a b : Cnt) : Cnt := ⟨a.sat + b.sat, a.flush + b.flush⟩

/-- The sign bit of a float code. -/
def signCode (f : FFmt) (s : Bool) : Nat := if s then 2 ^ (f.w + f.eb) else 0

/-- Conversion to a float code (R44, R48, R49, Table 2.6). `satMode` is true under SAT 2. F4 always saturates and
is exempt from FTZ. -/
def convF (f : FFmt) (isF4 satMode ftz : Bool) (x : XV) : Nat × Cnt :=
  match x with
  | .nan =>
    match f.nanCode with
    | some c => (c, {})
    | none => (0, ⟨1, 0⟩)
  | .inf s =>
    if satMode || isF4 then (signCode f s + f.maxCode, ⟨1, 0⟩)
    else match f.infCode with
      | some c => (signCode f s + c, {})
      | none => (f.nanCode.getD 0, ⟨1, 0⟩)
  | .fin s n d e =>
    let c := magCode f n d e
    if f.maxCode < c then
      if satMode || isF4 then (signCode f s + f.maxCode, ⟨1, 0⟩)
      else match f.infCode with
        | some i => (signCode f s + i, ⟨1, 0⟩)
        | none => (f.nanCode.getD 0, ⟨1, 0⟩)
    else if ftz && !isF4 && decide (0 < c) && decide (c < 2 ^ f.w) then (signCode f s, ⟨0, 1⟩)
    else (signCode f s + c, {})

/-- Range of an integer code (Table 2.3). -/
def intRange (c : Code) : Int × Int :=
  match c with
  | 0 => (-8, 7)
  | 1 => (0, 15)
  | 2 => (-128, 127)
  | 3 => (0, 255)
  | 0xA => (-32768, 32767)
  | _ => (-2147483648, 2147483647)

/-- Conversion to an integer range of `w` bits (R50). -/
def convI (w : Nat) (lo hi : Int) (x : XV) : Nat × Cnt :=
  match x with
  | .nan => (0, ⟨1, 0⟩)
  | .inf s => (ofSigned w (if s then lo else hi), ⟨1, 0⟩)
  | x =>
    let r := (x.roundInt).getD 0
    let c := clampI r lo hi
    (ofSigned w c, if c = r then {} else ⟨1, 0⟩)

/-- Conversion of one value to a code that is not an X format; `s` is the slot exponent of an F16S target (R48). -/
def convEl (c : Code) (s : Int) (satMode ftz : Bool) (x : XV) : Nat × Cnt :=
  match ffmt? c with
  | some f => convF f (c == cF4) satMode ftz (if c = cF16S then x.scale (-s) else x)
  | none => let r := intRange c; convI (elBits c) r.1 r.2 x

/-- The decoded value of a code that is not an X format. -/
def decEl (c : Code) (s : Int) (v : Nat) : XV :=
  match ffmt? c with
  | some f => let x := decodeF f v; if c = cF16S then x.scale s else x
  | none => XV.ofInt (if c = cU4 || c = cU8 then (v : Int) else toSigned (elBits c) v)

/-- Rounds an exact value to F32 by RNE, overflow to infinity, subnormals kept. It is the first rounding of a VFUNC result (R116).
DESIGN CHOICE (log entry 79): a finite result that overflows in it is an infinity from then on, and is not counted as an overflow of the
conversion to D (R49), under SAT 1 either. -/
def toF32 (x : XV) : XV := decodeF fmtF32 (convF fmtF32 false false false x).1

/-- Whether FTZ reads an element code as a zero of its sign (R43); F4 is exempt. -/
def flushes (ftz : Bool) (c : Code) (v : Nat) : Bool :=
  ftz && c != cF4 && (match ffmt? c with | some f => isSubF f v | none => false)

/-- The settings with which an operand's elements are read or written (Table 2.2), resolved. -/
structure ElFmt where
  code : Code
  sgn : Bool := false
  blk : Nat := 32
  slot : Nat := 0
  s : Int := 0
  deriving DecidableEq, Repr

/-- One element as an operation reads it: its code, its value, and whether FTZ read it as zero. -/
structure El where
  code : Code
  x : XV
  flushed : Bool := false
  deriving DecidableEq, Repr

/-- Reads one element, with the block exponent `b` of an X format (R36, R38, R43). DESIGN CHOICE (log entry 79): in a block with exponent
0xFF a subnormal XE4M3 code is NaN by R38, and FTZ neither makes it a zero nor counts it. -/
def readEl (f : ElFmt) (ftz : Bool) (b v : Nat) : El :=
  let fl := flushes ftz f.code v
  let base : XV :=
    if f.code = cXI4 then XV.ofInt (if f.sgn then (v : Int) else toSigned 4 v)
    else if f.code = cXI8 then XV.ofInt (if f.sgn then (v : Int) else toSigned 8 v)
    else decEl f.code f.s v
  let x := if fl then XV.zero base.neg? else base
  if isX f.code then ⟨f.code, if b = 0xFF then .nan else x.scale ((b : Int) - 127), fl && b != 0xFF⟩
  else ⟨f.code, x, fl⟩

/-- Splits an F32 significand into `P` pieces (R46). -/
def splitF32 (p m24 : Nat) (e0 : Int) : List (Nat × Int) :=
  if p = 3 then [(m24 / 2 ^ 13, e0 + 13), (m24 / 4 % 2 ^ 11, e0 + 2), (m24 % 4, e0)]
  else
    let sh : Nat := if p = 2 then 2 else 13
    let r0 := rneNat m24 (2 ^ sh)
    let e1 : Int := e0 + (sh : Int)
    let (r, e) := if r0 = 2 ^ (24 - sh) then (r0 / 2, e1 + 1) else (r0, e1)
    if p = 2 then [(r / 2 ^ 11, e + 11), (r % 2 ^ 11, e)] else [(r, e)]

/-- The pieces of a finite element: its sign, and magnitudes with exponents (R45 to R47, Table 2.5). -/
def pieces (p : Nat) (el : El) : Bool × List (Nat × Int) :=
  match el.x with
  | .fin s n _ e =>
    if el.code = cF32 then (s, splitF32 p n e)
    else if el.code = cI16 then (s, [(n / 256, e + 8), (n % 256, e)])
    else (s, [(n, e)])
  | x => (x.neg?, [])

/-! ## Stored tensors (R34, R37, R109) -/

/-- Elements that a row of `k` takes, padded to the block size for X formats. -/
def rowEls (f : ElFmt) (k : Nat) : Nat := if isX f.code then alignUp k f.blk else k

/-- Bytes of a row's element data. -/
def rowBytes (f : ElFmt) (k : Nat) : Nat := cdiv (rowEls f k * elBits f.code) 8

/-- The row pitch: the row's bytes rounded up to 32. -/
def pitch (f : ElFmt) (k : Nat) : Nat := alignUp (rowBytes f k) 32

/-- Scale-stream bytes of a row. -/
def scaleRow (f : ElFmt) (k : Nat) : Nat := if isX f.code then cdiv k f.blk else 0

/-- Offset of the end of the element data. -/
def dataEnd (f : ElFmt) (rows k : Nat) : Nat :=
  if rows = 0 then 0 else (rows - 1) * pitch f k + rowBytes f k

/-- Offset of the scale stream. -/
def scaleOff (f : ElFmt) (rows k : Nat) : Nat := alignUp (dataEnd f rows k) 32

/-- The extent of a stored tensor in bytes. -/
def extent (f : ElFmt) (rows k : Nat) : Nat :=
  if isX f.code then scaleOff f rows k + rows * scaleRow f k else dataEnd f rows k

/-- The codes packed in a run of bytes, `bits` each (R34). -/
def unpack (bits : Nat) (bs : Bytes) : List Nat :=
  if bits = 4 then bs.flatMap (fun b => [b.toNat % 16, b.toNat / 16])
  else if bits = 8 then bs.map (·.toNat)
  else
    let n := bits / 8
    (List.range (bs.length / n)).map (fun i => leAt bs (i * n) n)

/-- Packs codes of `bits` each into bytes (R34). -/
def pack (bits : Nat) : List Nat → Bytes
  | [] => []
  | [a] => if bits = 4 then [byteOf (a % 16)] else leBytes (bits / 8) a
  | a :: b :: r =>
    if bits = 4 then byteOf (a % 16 + 16 * (b % 16)) :: pack bits r
    else leBytes (bits / 8) a ++ leBytes (bits / 8) b ++ pack bits r

/-- Cuts a list into runs of `n`, with fuel the list's length. -/
def chunksAux {α : Type} (n : Nat) : Nat → List α → List (List α)
  | 0, _ => []
  | _ + 1, [] => []
  | f + 1, l => l.take n :: chunksAux n f (l.drop n)

/-- Cuts a list into runs of `n`; the last may be shorter. -/
def chunks {α : Type} (n : Nat) (l : List α) : List (List α) := chunksAux (max n 1) l.length l

/-- Reads a stored tensor of `rows` rows of `k` elements from the bytes of its extent. -/
def readTensor (f : ElFmt) (ftz : Bool) (rows k : Nat) (bs : Bytes) : List (List El) :=
  let so := scaleOff f rows k
  let sr := scaleRow f k
  (List.range rows).map (fun r =>
    let codes := (unpack (elBits f.code) (slice bs (r * pitch f k) (rowBytes f k))).take k
    let scs := slice bs (so + r * sr) sr
    codes.zipIdx.map (fun (v, i) => readEl f ftz ((scs.getD (i / f.blk) 0).toNat) v))

/-- The number of elements read as zero under FTZ (R44). -/
def flushCount (t : List (List El)) : Nat := (t.map (fun r => r.countP (·.flushed))).sum

/-- The largest finite F32 value, which stands for an infinity in choosing a block exponent (R51). -/
def f32Max (neg : Bool) : XV := .fin neg (2 ^ 24 - 1) 1 104

/-- The condition of Table 2.7 on the scaled largest magnitude. -/
def blkOk (f : ElFmt) (a : XV) : Bool :=
  if f.code = cXI4 then a.lt (.fin false (if f.sgn then 31 else 15) 1 (-1))
  else if f.code = cXI8 then a.lt (.fin false (if f.sgn then 511 else 255) 1 (-1))
  else a.le (.fin false 464 1 0)

/-- The block exponent for a largest magnitude `a` (R51 step 2): the smallest in 0–254 that meets Table 2.7, and
254 where none does. -/
def blkExp (f : ElFmt) (a : XV) : Nat :=
  match a.lead with
  | none => 0
  | some p =>
    let top : Int := if f.code = cXI4 then (if f.sgn then 4 else 3)
      else if f.code = cXI8 then (if f.sgn then 8 else 7) else 9
    let g : Nat := (p + 127 - top).toNat
    ((List.range 5).map (fun i : Nat => i + g)).find? (fun b : Nat => decide (b ≤ 254) && blkOk f (a.scale (127 - (b : Int)))) |>.getD 254

/-- One element of an X block under exponent `b` (R51 step 3). Infinite elements take the largest element magnitude
and count. -/
def convX (f : ElFmt) (satMode ftz : Bool) (b : Nat) (x : XV) : Nat × Cnt :=
  let y := x.scale (127 - (b : Int))
  if f.code = cXE4M3 then
    match y with
    | .inf s => (signCode fmtE4M3 s + 0x7E, ⟨1, 0⟩)
    | y => convF fmtE4M3 false satMode ftz y
  else
    let w := elBits f.code
    let hi : Int := if f.sgn then 2 ^ w - 1 else 2 ^ (w - 1) - 1
    convI w (if f.sgn then 0 else -hi) hi y

/-- Converts one X block; the elements beyond the row are written as zero by the caller (R37, R51). -/
def convBlock (f : ElFmt) (satMode ftz : Bool) (xs : List XV) : Nat × List Nat × Cnt :=
  let nans := xs.countP (·.isNan)
  if 0 < nans then (0xFF, xs.map (fun _ => 0), ⟨nans, 0⟩)
  else
    let fin (x : XV) : XV := match x with | .inf s => f32Max s | x => x
    let inA (x : XV) : Bool := !(f.sgn && f.code != cXE4M3 && x.neg?)
    let a := (xs.filter inA).foldl (fun m x => XV.max m (fin x).abs) (XV.zero false)
    let b := blkExp f a
    let cs := xs.map (convX f satMode ftz b)
    (b, cs.map (·.1), cs.foldl (fun t c => t.add c.2) {})

/-- A converted row: its codes, its block exponents, the values stored, and the events. -/
structure ConvRow where
  codes : List Nat
  blks : List Nat := []
  stored : List XV
  cnt : Cnt
  deriving DecidableEq, Repr

/-- Converts a row of exact values to a code (R48 to R51). -/
def convRow (f : ElFmt) (satMode ftz : Bool) (xs : List XV) : ConvRow :=
  if isX f.code then
    let bs := (chunks f.blk xs).map (convBlock f satMode ftz)
    { codes := bs.flatMap (fun b => b.2.1 ++ List.replicate (f.blk - b.2.1.length) 0)
      blks := bs.map (·.1)
      stored := bs.flatMap (fun b => b.2.1.map (fun c => (readEl f false b.1 c).x))
      cnt := bs.foldl (fun t b => t.add b.2.2) {} }
  else
    let cs := xs.map (convEl f.code f.s satMode ftz)
    { codes := cs.map (·.1), stored := cs.map (fun c => decEl f.code f.s c.1)
      cnt := cs.foldl (fun t c => t.add c.2) {} }

/-- The bytes of a tensor of converted rows: every row padded with zeros to the row pitch, then the scale stream at
its 32-B boundary (R109). -/
def tensorBytes (f : ElFmt) (k : Nat) (rows : List ConvRow) : Bytes :=
  let body := rows.map (fun r => pack (elBits f.code) r.codes)
  let padded := (body.dropLast).flatMap (fun b => b ++ zeros (pitch f k - b.length)) ++ body.getLastD []
  if isX f.code then
    padded ++ zeros (scaleOff f rows.length k - padded.length) ++ rows.flatMap (fun r => r.blks.map byteOf)
  else padded

end Sys2Proof.Machine
end

