-- ==== Sys2Proof/Machine/Dot.lean ====
section
/-! DEFINITION. Dot products, accumulators, tiles, replays and the spill buffer (R54 to R70, R427;
03_dot_products_and_accumulators.md). -/

namespace Sys2Proof.Machine

/-- One term of a group: an infinity or NaN, or `(−1)^s × n × 2^q` (R56, R58). -/
inductive Term where
  | special (x : XV)
  | fin (neg : Bool) (n : Nat) (q : Int)
  deriving DecidableEq, Repr

/-- The arithmetic settings of a dot product (Table 3.1), resolved. -/
structure DotCfg where
  acc : Code := 0xD
  g : Nat := 16
  replay : Bool := false
  /-- Groups in a spill chunk; 0 without a spill. -/
  spl : Nat := 0
  p : Nat := 1
  /-- Whether either operand is F32, so that only the products with i + k < P are formed (R56). -/
  cut : Bool := false
  deriving DecidableEq, Repr

/-- The products of one element pair (R56, Table 3.3), with A lowered by `4r` (R64). The operands' formats, not the elements'
codes, say which products are left out: an element that a side list substitutes in an F32 operand is cut as F32 is. -/
def products (cfg : DotCfg) (r : Nat) (a b : El) : List Term :=
  if a.x.isFin && b.x.isFin then
    let (sa, pa) := pieces cfg.p a
    let (sb, pb) := pieces cfg.p b
    pa.zipIdx.flatMap (fun (x, i) =>
      (pb.zipIdx.filter (fun (_, k) => !cfg.cut || decide (i + k < cfg.p))).map (fun (y, _) =>
        Term.fin (xor sa sb) (x.1 * y.1) (x.2 + y.2 - 4 * (r : Int))))
  else [.special (a.x.mul b.x)]

/-- The term of a value: the accumulator term of a group. -/
def XV.term : XV → Term
  | .fin s n _ e => .fin s n e
  | x => .special x

/-- Truncates a term toward zero to a multiple of `2^lo`, in units of `2^lo` (R58 step 3). -/
def truncTerm (lo : Int) : Term → Int
  | .special _ => 0
  | .fin s n q =>
    let m : Nat := if lo ≤ q then n * 2 ^ (q - lo).toNat else n / 2 ^ (lo - q).toNat
    if s then -(m : Int) else m

/-- The largest leading position over a group; `none` when every term is zero. -/
def leadMax (ts : List Term) : Option Int :=
  ts.foldl (fun m t => match t with
    | .special _ => m
    | .fin _ n q => if n = 0 then m else
      let l := q + n.log2
      match m with | none => some l | some k => some (max k l)) none

/-- The class result of a group with infinities or NaNs (R58 step 1). -/
def specials (ts : List Term) : Option XV :=
  ts.foldl (fun m t => match t with
    | .fin _ _ _ => m
    | .special x => match m with | none => some x | some y => some (y.add x)) none

/-- Reduces one group to one rounded value; the flag says that a finite sum overflowed (R58). -/
def groupReduce (f : FFmt) (ts : List Term) : XV × Bool :=
  match specials ts with
  | some x => (x, false)
  | none =>
    match leadMax ts with
    | none => (XV.zero (!ts.isEmpty && ts.all (fun t => match t with | .fin s _ _ => s | _ => false)), false)
    | some l =>
      let lo := l - 47
      let z := (ts.map (truncTerm lo)).sum
      if z = 0 then (XV.zero false, false)
      else
        let c := magCode f z.natAbs 1 lo
        if f.maxCode < c then (.inf (decide (z < 0)), true)
        else (decodeF f (signCode f (decide (z < 0)) + c), false)

/-! ## Accumulators (R57, R59, R61, R65) -/

/-- The running state of one float element: accumulator, spill entry, whether it has overflowed, groups in the chunk. -/
structure FAcc where
  acc : Option XV
  spill : XV := .zero false
  ovf : Bool := false
  pos : Nat := 0
  deriving DecidableEq, Repr

/-- Adds the accumulator to the float spill entry, rounded to 24 bits, and empties it (R65). -/
def FAcc.flush (a : FAcc) : FAcc :=
  match a.acc with
  | none => { a with pos := 0 }
  | some v => { a with acc := none, spill := (a.spill.add v).roundSig 24, pos := 0 }

/-- One group of a float element (R57, R61); at the end of a chunk and after the last group it goes to the spill entry (R65). -/
def FAcc.group (f : FFmt) (spl : Nat) (last : Bool) (a : FAcc) (ts : List Term) : FAcc :=
  let (v, o) := groupReduce f ((match a.acc with | none => [] | some v => [v.term]) ++ ts)
  let a := { a with acc := some v, ovf := a.ovf || o, pos := a.pos + 1 }
  if spl ≠ 0 ∧ (a.pos = spl ∨ last) then a.flush else a

def i32Min : Int := -2147483648
def i32Max : Int := 2147483647
def i64Min : Int := -9223372036854775808
def i64Max : Int := 9223372036854775807

/-- The running state of one I32 element. `stuck` is the saturated value it keeps. -/
structure IAcc where
  acc : Int
  spill : Int := 0
  stuck : Option Int := none
  pos : Nat := 0
  deriving DecidableEq, Repr

/-- Adds the accumulator to the INT64 spill entry (R65). -/
def IAcc.flush (a : IAcc) : IAcc :=
  match a.stuck with
  | some _ => a
  | none =>
    let s := a.spill + a.acc
    if s < i64Min then { a with stuck := some i64Min }
    else if i64Max < s then { a with stuck := some i64Max }
    else { a with spill := s, acc := 0, pos := 0 }

/-- One group of an I32 element (R59, R61), and its spill as for a float element (R65). -/
def IAcc.group (spl : Nat) (last : Bool) (a : IAcc) (x : Int) : IAcc :=
  match a.stuck with
  | some _ => a
  | none =>
    let v := a.acc + x
    if v < i32Min then { a with stuck := some (if spl = 0 then i32Min else i64Min) }
    else if i32Max < v then { a with stuck := some (if spl = 0 then i32Max else i64Max) }
    else
      let a := { a with acc := v, pos := a.pos + 1 }
      if spl ≠ 0 ∧ (a.pos = spl ∨ last) then a.flush else a

/-- One accumulator element with its spill entry: a float or an I32 accumulator. -/
inductive EAcc where
  | flt (a : FAcc)
  | int (a : IAcc)
  deriving DecidableEq, Repr

/-- One accumulated value as the output stage takes it: its value with `2^(4r)` restored, and whether the integer
path applies (R72). -/
structure AccVal where
  v : XV
  int : Bool
  deriving DecidableEq, Repr

/-- The inputs of one output element: its element pairs in groups, and its initial accumulator. -/
structure Lane where
  gs : List (List (El × El))
  c0 : Option XV
  deriving DecidableEq, Repr

/-- The exact sum of a group's products as an integer (R59). -/
def intGroup (cfg : DotCfg) (ps : List (El × El)) : Int :=
  ((ps.flatMap (fun q => products cfg 0 q.1 q.2)).map (truncTerm 0)).sum

/-- The float terms of a group's products. -/
def fltGroup (cfg : DotCfg) (r : Nat) (ps : List (El × El)) : List Term := ps.flatMap (fun q => products cfg r q.1 q.2)

/-- The initial accumulator in an attempt with replay count `r` (R64). -/
def scaledC (r : Nat) (c0 : Option XV) : Option XV := c0.map (XV.scale (-(4 * (r : Int))))

/-- Whether an attempt accumulates in I32: ACC I32, not promoted (R63). -/
def DotCfg.inInt (cfg : DotCfg) (promoted : Bool) : Bool := cfg.acc == cI32 && !promoted

/-- The float format an attempt accumulates in: ACC, and F32 for a promoted tile (R63). -/
def DotCfg.fmt (cfg : DotCfg) : FFmt := if cfg.acc = cF16 then fmtF16 else fmtF32

/-- An element at the start of an attempt, its spill entry at +0 (R57, R64, R66). -/
def EAcc.init (cfg : DotCfg) (r : Nat) (promoted : Bool) (c0 : Option XV) : EAcc :=
  if cfg.inInt promoted then .int { acc := match c0 with | some x => (x.roundInt).getD 0 | none => 0 }
  else .flt { acc := scaledC r c0 }

/-- One group of one element. -/
def EAcc.group (cfg : DotCfg) (r : Nat) (last : Bool) (e : EAcc) (ps : List (El × El)) : EAcc :=
  match e with
  | .flt a => .flt (a.group cfg.fmt cfg.spl last (fltGroup cfg r ps))
  | .int a => .int (a.group cfg.spl last (intGroup cfg ps))

/-- Whether an element has overflowed. -/
def EAcc.ovf : EAcc → Bool
  | .flt a => a.ovf
  | .int a => a.stuck.isSome

/-- What the output stage takes of an element: its spill entry where SPL is set and there was a group, and otherwise its
accumulator, with `2^(4r)` restored (R65, R72, R76). -/
def EAcc.val (r : Nat) (spilled : Bool) : EAcc → AccVal
  | .flt a => ⟨(if spilled then a.spill else a.acc.getD (.zero false)).scale (4 * (r : Int)), false⟩
  | .int a => ⟨XV.ofInt (match a.stuck with | some v => v | none => if spilled then a.spill else a.acc), true⟩

/-! ## Tiles, replays and promotion (R61 to R64) -/

/-- The entry of a tile in progress in the tile-state table, with its accumulator elements by 16×16 unit (R67 to R69). Its
groups are taken one unit after another; `grp` and `unit` say which is next. -/
structure TileSt where
  r : Nat := 0
  promoted : Bool := false
  grp : Nat := 0
  unit : Nat := 0
  reps : Nat := 0
  proms : Nat := 0
  accs : List (List EAcc) := []
  deriving DecidableEq, Repr

/-- A tile at the start of an attempt. -/
def TileSt.start (cfg : DotCfg) (ls : List (List Lane)) (r : Nat) (promoted : Bool) (reps proms : Nat) : TileSt :=
  { r := r, promoted := promoted, reps := reps, proms := proms
    accs := ls.map (fun u => u.map (fun l => EAcc.init cfg r promoted l.c0)) }

/-- Whether every group of a tile's attempt has run. -/
def TileSt.over (t : TileSt) (ng : Nat) : Bool := decide (ng ≤ t.grp)

/-- The tile after the next group of its next unit; the flag says that an overflow has sent it back to group 0 (R61 to R63). -/
def TileSt.step (cfg : DotCfg) (ng : Nat) (ls : List (List Lane)) (t : TileSt) : TileSt × Bool :=
  let last := t.grp + 1 == ng
  let as := List.zipWith (fun (a : EAcc) (l : Lane) => a.group cfg t.r last (l.gs.getD t.grp [])) (t.accs.getD t.unit []) (ls.getD t.unit [])
  if cfg.replay && as.any EAcc.ovf && cfg.inInt t.promoted then (TileSt.start cfg ls 0 true (t.reps + 1) (t.proms + 1), true)
  else if cfg.replay && as.any EAcc.ovf && decide (t.r < 3) then (TileSt.start cfg ls (t.r + 1) t.promoted (t.reps + 1) t.proms, true)
  else
    let t := { t with accs := t.accs.set t.unit as }
    (if t.unit + 1 < ls.length then { t with unit := t.unit + 1 } else { t with unit := 0, grp := t.grp + 1 }, false)

/-- What a tile leaves: the values and the elements of its units, and its counts and status (Tables 3.10 and 3.11). -/
structure TileRes where
  vals : List (List AccVal)
  accs : List (List EAcc) := []
  ovf : Nat := 0
  replays : Nat := 0
  promos : Nat := 0
  status : Nat := 0
  deriving DecidableEq, Repr

/-- A tile that is over, as its result. -/
def TileSt.res (cfg : DotCfg) (ng : Nat) (t : TileSt) : TileRes :=
  let o := (t.accs.map (fun u => u.countP EAcc.ovf)).sum
  { vals := t.accs.map (fun u => u.map (EAcc.val t.r (decide (cfg.spl ≠ 0) && decide (ng ≠ 0))))
    accs := t.accs, ovf := o, replays := t.reps, promos := t.proms
    status := if o = 0 then 0 else if cfg.replay then 0x0302 else if cfg.acc = cI32 then 0x0303 else 0x0301 }

/-- Runs a tile on until it is over, at most `fuel` steps. -/
def TileSt.run (cfg : DotCfg) (ng : Nat) (ls : List (List Lane)) : Nat → TileSt → TileSt
  | 0, t => t
  | fuel + 1, t => if t.over ng then t else TileSt.run cfg ng ls fuel (t.step cfg ng ls).1

/-- Steps enough for any tile: at most five attempts at each group of each unit (R63). -/
def tileFuel (ng : Nat) (ls : List (List Lane)) : Nat := 5 * (ng * ls.length)

/-- Runs a tile from its first attempt to its end (R62, R63). -/
def runTile (cfg : DotCfg) (ng : Nat) (ls : List (List Lane)) : TileRes :=
  ((TileSt.start cfg ls 0 false 0 0).run cfg ng ls (tileFuel ng ls)).res cfg ng

/-! ## Segments (R68) -/

/-- What segments a reduction on one core: the cycles of each group of one unit, and the issue limit in force, in sixteenths
(R60, R68). -/
structure SegCfg where
  cost : List Nat
  limit : Nat := 16
  deriving DecidableEq, Repr

/-- A core's share of the tiles of an operation: those that are over, the one in progress, the multiplier cycles of the current
segment, and the segment ends it has reached. The model runs a core's tiles one after another (log entry 8). -/
structure CoreTiles where
  done : List TileRes := []
  cur : Option TileSt := none
  seg : Nat := 0
  pts : Nat := 0
  deriving DecidableEq, Repr

/-- Whether a core's share is over. -/
def CoreTiles.over (c : CoreTiles) (tiles : List (List (List Lane))) : Bool := decide (tiles.length ≤ c.done.length)

/-- A segment ends (R68). -/
def CoreTiles.endSeg (c : CoreTiles) : CoreTiles := { c with seg := 0, pts := c.pts + 1 }

/-- The next step of a core's share: a tile starts, a segment ends, a group of a unit runs, or a tile ends. A segment ends at
the last group boundary within 1,024 multiplier cycles; below the full issue limit at the first boundary at which 928
compute-clock cycles have passed; and where its tile ends or goes back to group 0 (R68). -/
def CoreTiles.adv (cfg : DotCfg) (sc : SegCfg) (tiles : List (List (List Lane))) (c : CoreTiles) : CoreTiles :=
  let ng := sc.cost.length
  match tiles[c.done.length]? with
  | none => c
  | some ls =>
    match c.cur with
    | none => { c with cur := some (TileSt.start cfg ls 0 false 0 0) }
    | some t =>
      if t.over ng then
        let c' := { c with done := c.done ++ [t.res cfg ng], cur := none }
        if c.seg = 0 then c' else c'.endSeg
      else
        let k := c.seg + sc.cost.getD t.grp 0
        if 16 ≤ sc.limit ∧ 0 < c.seg ∧ 1024 < k then c.endSeg
        else
          let (t', back) := t.step cfg ng ls
          let c' := { c with cur := some t', seg := k }
          if back || (decide (sc.limit < 16) && decide (928 * sc.limit ≤ 16 * k)) then c'.endSeg else c'

/-- Runs a core's share on until it is over, or has reached `goal` segment ends, at most `fuel` steps. -/
def CoreTiles.run (cfg : DotCfg) (sc : SegCfg) (tiles : List (List (List Lane))) (goal : Option Nat) : Nat → CoreTiles → CoreTiles
  | 0, c => c
  | fuel + 1, c =>
    if goal.any (fun g => decide (g ≤ c.pts)) || c.over tiles then c
    else CoreTiles.run cfg sc tiles goal fuel (c.adv cfg sc tiles)

/-- Steps enough for any share: a segment end may stand before each group. -/
def coreFuel (ng : Nat) (tiles : List (List (List Lane))) : Nat := (tiles.map (fun ls => 2 * tileFuel ng ls + 3)).sum

/-- Output tile shapes of Table 5.7, as rows × columns. -/
def tileShape : Nat → Nat × Nat
  | 0 => (16, 16)
  | 1 => (32, 16)
  | 2 => (16, 32)
  | 3 => (32, 32)
  | 4 => (64, 32)
  | _ => (32, 64)

/-- Tiles in progress that Table 3.7 allows. -/
def tileMax (shp : Nat) (acc : Code) : Nat :=
  let (r, c) := tileShape shp
  32768 / (r * c * (if acc = cF16 then 2 else 4))

/-- The totals of an operation over its tiles. -/
structure DotTot where
  ovf : Nat := 0
  replays : Nat := 0
  promos : Nat := 0
  status : Nat := 0
  /-- Tiles whose final attempt overflowed (R95, overflow replay loop). -/
  ovTiles : Nat := 0
  deriving DecidableEq, Repr

def DotTot.add (t : DotTot) (r : TileRes) : DotTot :=
  { ovf := sat32 t.ovf r.ovf, replays := sat32 t.replays r.replays, promos := sat32 t.promos r.promos
    status := max t.status r.status, ovTiles := t.ovTiles + (if r.ovf = 0 then 0 else 1) }

/-- The elements of one tile of `h × w` outputs, by 16×16 unit in row-major order (R67). -/
def tileUnits {α : Type} (h w : Nat) (f : Nat → Nat → α) : List (List α) :=
  (List.range (cdiv h 16)).flatMap (fun ui => (List.range (cdiv w 16)).map (fun uj =>
    (List.range (min 16 (h - 16 * ui))).flatMap (fun a => (List.range (min 16 (w - 16 * uj))).map (fun b =>
      f (16 * ui + a) (16 * uj + b)))))

/-- Element (a, b) of a tile `w` wide, from its units. -/
def fromUnits {α : Type} (w a b : Nat) (us : List (List α)) : Option α :=
  (us.getD (a / 16 * cdiv w 16 + b / 16) [])[a % 16 * min 16 (w - b / 16 * 16) + b % 16]?

/-- Where a tile of an `m × n` result lies: its first row and column, its height and its width. -/
structure TileBox where
  i : Nat
  j : Nat
  h : Nat
  w : Nat
  deriving DecidableEq, Repr

/-- The tiles of an `m × n` result in ascending index (R131). -/
def tileBoxes (shp m n : Nat) : List TileBox :=
  let (th, tw) := tileShape shp
  (List.range (cdiv m th)).flatMap (fun ti => (List.range (cdiv n tw)).map (fun tj =>
    ⟨ti * th, tj * tw, min th (m - ti * th), min tw (n - tj * tw)⟩))

/-- The inputs of one tile; `lane i j` gives those of element (i, j). -/
def TileBox.lanes (b : TileBox) (lane : Nat → Nat → Lane) : List (List Lane) := tileUnits b.h b.w (fun a c => lane (b.i + a) (b.j + c))

/-- The rows of an `m × n` result from the results of its tiles, in ascending index. -/
def tileRows (shp m n : Nat) (ts : List TileRes) : List (List AccVal) :=
  let (th, tw) := tileShape shp
  let z : AccVal := ⟨.zero false, false⟩
  (List.range m).map (fun i => (List.range n).map (fun j =>
    match ts[i / th * cdiv n tw + j / tw]? with
    | some t => (fromUnits (min tw (n - j / tw * tw)) (i % th) (j % tw) t.vals).getD z
    | none => z))

/-- The tiles of a row of `m` results: runs of one tile's element count (R107, REDUCE), 256 to a unit. -/
def runLanes (shp m : Nat) (lane : Nat → Lane) : List (List (List Lane)) :=
  let (th, tw) := tileShape shp
  (chunks (th * tw) ((List.range m).map lane)).map (chunks 256)

/-- The totals of tiles. -/
def dotTotal (ts : List TileRes) : DotTot := ts.foldl DotTot.add {}

/-! ## The spill area (R65, R107, Table 3.6) -/

/-- A float spill entry as the 8 bytes of Table 3.6; the fraction of a NaN is a free value. -/
def spillCode : XV → Nat
  | .nan => 0xFFFF * 2 ^ 47 + (1 + Config.spillNan % (2 ^ 23 - 1)) * 2 ^ 24
  | .inf s => (if s then 2 ^ 63 else 0) + 0xFFFF * 2 ^ 47
  | .fin s n d e =>
    match XV.lead (.fin s n d e) with
    | none => if s then 2 ^ 63 else 0
    | some p => (if s then 2 ^ 63 else 0) + (p + 32767).toNat * 2 ^ 47 + (rneUnits n d e (p - 23) % 2 ^ 23) * 2 ^ 24

/-- The value of a float spill entry (Table 3.6). -/
def spillValue (v : Nat) : XV :=
  let ex := fld v 47 16
  let fr := fld v 24 23
  if ex = 0xFFFF then (if fr = 0 then .inf (v.testBit 63) else .nan)
  else if ex = 0 then .zero (v.testBit 63)
  else .fin (v.testBit 63) (2 ^ 23 + fr) 1 ((ex : Int) - 32767 - 23)

/-- The 8 bytes of an element's spill entry: Table 3.6, or INT64 (R65). -/
def EAcc.entry : EAcc → Bytes
  | .flt a => leBytes 8 (spillCode a.spill)
  | .int a => leBytes 8 (ofSigned 64 (match a.stuck with | some v => v | none => a.spill))

/-- An element whose spill entry is read back from its 8 bytes. -/
def EAcc.withEntry (bs : Bytes) : EAcc → EAcc
  | .flt a => .flt { a with spill := spillValue (leVal bs) }
  | .int a => .int { a with spill := toSigned 64 (leVal bs) }

/-! ## Internal sums (R427) -/

/-- An F32 element with its value. -/
def el32 (x : XV) : El := ⟨cF32, toF32 x, false⟩

/-- The constant 1, exact in F16 (Table 3.8). -/
def elOne : El := ⟨cF16, .fin false 1024 1 (-10), false⟩

/-- The settings of every internal sum: G 16, ACC F32, ACCOV IEEE, P 3 for every F32 addend. -/
def isumCfg : DotCfg := { acc := cF32, g := 16, replay := false, spl := 0, p := 3, cut := true }

/-- An internal sum: one element over the groups of its pairs, an overflow giving the infinity of its sign. -/
def isumOf (ps : List (El × El)) : XV :=
  (((chunks isumCfg.g ps).foldl (fun (e : EAcc) g => e.group isumCfg 0 false g) (EAcc.init isumCfg 0 false none)).val 0 false).v

/-- The internal SUM of a list of elements. -/
def isum (els : List El) : XV := isumOf (els.map (fun e => (e, elOne)))

/-- The internal SUMSQ of a list of elements. -/
def isumsq (els : List El) : XV := isumOf (els.map (fun e => (e, e)))

/-! ## Exact reductions (R70, R76, Table 3.8) -/

def redMax (xs : List XV) : XV := match xs with | [] => .inf true | x :: r => r.foldl XV.max x
def redMin (xs : List XV) : XV := match xs with | [] => .inf false | x :: r => r.foldl XV.min x
def redAmax (xs : List XV) : XV := xs.foldl (fun m x => XV.max m x.abs) (.zero false)

/-- The index of the first NaN, or the lowest index of the extreme value; −1 for an empty row. -/
def redArg (greater : Bool) (xs : List XV) : Int :=
  match xs.findIdx? (·.isNan) with
  | some i => i
  | none =>
    (xs.zipIdx.foldl (fun (b : Option (XV × Nat)) (x, i) =>
      match b with
      | none => some (x, i)
      | some (y, j) => if (if greater then XV.ltFin y x else XV.ltFin x y) then some (x, i) else some (y, j)) none).elim
      (-1) (fun p => (p.2 : Int))

end Sys2Proof.Machine
end

