-- ==== Sys2Proof/Machine/StateSched.lean ====
section
/-! DEFINITION. State of tasks, stages, semaphores, partitions, scale slots and steps
(01, 04, 05, 06 and 08 of spec/). -/

namespace Sys2Proof.Machine

/-- Task states of Table 6.2. A task that reaches DONE leaves the engine's list of tasks. -/
inductive TState where
  | posted | admitting | ready | running | waiting | parked | switching | suspended
  deriving DecidableEq, Repr

/-- A task is named by its queue and its sequence. -/
structure TaskId where
  queue : Nat := 0
  seq : Nat := 0
  deriving DecidableEq, Repr

/-- What an operation reports (Table 5.12). -/
structure OpRes where
  status : Nat := 0
  tag : Nat := 0
  sat : Nat := 0
  flush : Nat := 0
  /-- The sticky flush flag, which a flush in a superseded attempt sets too (R44, R88). -/
  sticky : Bool := false
  ovf : Nat := 0
  replays : Nat := 0
  promos : Nat := 0
  widened : Bool := false
  preempted : Bool := false
  observed : Bool := false
  code : Nat := 0
  ns : Nat := 0
  /-- Whether the operation was refused, so that it had no effect (R114). -/
  refused : Bool := false
  deriving DecidableEq, Repr

/-- Where a stage stands with its current descriptor (R114). -/
inductive Phase where
  /-- The descriptor at the stage's address has not started. -/
  | ready
  /-- Held at the phase mark (R177). -/
  | markHeld
  /-- Waiting on a semaphore since a timestamp, as waiter number `ord` (R138). -/
  | waiting (glob : Bool) (sem since ord : Nat)
  /-- The semaphore has been acquired. -/
  | granted
  /-- Executing, and at a pre-emption point inside the operation (R68, R115). -/
  | part
  /-- Waiting for the home engine of a global semaphore to answer (R140). -/
  | asking (sem : Nat)
  /-- Taking part in a collective or a vote (R216). -/
  | collective
  /-- A parked wait whose task comes back: the wait is tried again (R141 step 4). -/
  | retry
  /-- Waiting for serving holders of the generation to be written (R23). -/
  | holders (gen : Nat)
  /-- Executed and posting a global semaphore; the home engine has not answered (R103, R140). -/
  | posting (res : OpRes)
  /-- Executed; the result awaits its fences, marks, post and report (R114 stages 7 to 10). -/
  | executed (res : OpRes)
  /-- The stream has ended. -/
  | ended
  deriving DecidableEq, Repr

/-- One stage of a task: its stream position and its current operation. -/
structure Stage where
  pc : Nat := 0
  /-- Descriptors executed so far: the report index of the current one (R121). -/
  index : Nat := 0
  phase : Phase := .ready
  /-- The descriptor of the current operation with its parameter block, as fetched (R114 stage 1). -/
  desc : Bytes := []
  /-- The tag records of A and B as they stood when its checks ran (R113). -/
  recs : Bytes := []
  /-- The default objects as they stood when its checks ran (R33, R54): FTZ, SAT, block size, ACCOV, group size, widening
  cap, the three error thresholds and the outlier factor. -/
  defs : List Nat := []
  /-- The exponents of the scale slots of A to D, latched when the operation started (R33, R39, R114 stage 5). -/
  slots : List Int := []
  /-- The count of acquires and remote writes when the operation started (R162, R214). -/
  since : Nat := 0
  /-- The pre-emption points that each core of the stage has reached inside the current operation (R115). -/
  pts : List Nat := []
  /-- The tiles, accumulators and spill state of a dot product, core by core (R69). -/
  tiles : List CoreTiles := []
  /-- The current operation's conversion counts so far (R69, R73). -/
  cnt : Cnt := {}
  /-- Whether the current operation was pre-empted at least once (Table 5.12). -/
  preempted : Bool := false
  /-- Whether the stage holds at a micro-batch boundary because its step is being abandoned (R28). -/
  boundary : Bool := false
  deriving DecidableEq, Repr

/-- A task (Tables 6.1, 13.6). -/
structure Task where
  id : TaskId := {}
  slot : Nat := 0
  kind : Nat := 0
  prio : Nat := 0
  part : Nat := 0
  profile : Nat := 0
  ctx : Option Nat := none
  tenant : Option Nat := none
  prog : Nat := 0
  sigma : Nat := 0
  q : Nat := 0
  stages : Nat := 1
  cps : Nat := 1
  winBase : Nat := 0
  winLen : Nat := 1
  stageTable : Nat := 0
  repAddr : Nat := 0
  repLen : Nat := 0
  /-- Time of the PROD write that first covered the task (R127, R329). -/
  doorbell : Nat := 0
  st : TState := .posted
  /-- The cores of the task in stage order; core i serves stage i / cps. -/
  cores : List Nat := []
  /-- Cores on which the task's share is switched out, with its context saved (R137, R429). -/
  out : List Nat := []
  /-- Cores on which a switch out is draining (R134). -/
  draining : List Nat := []
  /-- Cores on which a switch out has drained and is saving its record (R134). -/
  saving : List Nat := []
  /-- Cores given to the task and not yet switched in (R134, R141). -/
  coming : List Nat := []
  /-- Cores on which the task has been switched in and has not yet reached a pre-emption point (R143). -/
  fresh : List Nat := []
  /-- Whether the task is parked or parking: its cores are given up while its wait lasts (R141). -/
  parking : Bool := false
  /-- Of a step task, the ranges of this engine's memory that it may write (R17). -/
  own : List (Nat × Nat) := []
  /-- Of a serving task, the generation that it did not take, until a step of its tenant commits (R17, R22). -/
  shut : List (Nat × Nat) := []
  /-- Of a serving task, the areas of its tenant that an uncommitted step writes (R17). -/
  veiled : List (Nat × Nat) := []
  /-- Order of placement (R130, R263). -/
  placed : Nat := 0
  /-- The largest class 0x03 status so far (R122). -/
  worst : Nat := 0
  /-- The status with which the task must stop at its next pre-emption point. -/
  stop : Option Nat := none
  /-- The status with which the task completes once its remote writes are acknowledged (R159). -/
  closing : Option Nat := none
  /-- Whether a pre-emption or Idle entry asks for the task's cores. -/
  preempt : Bool := false
  /-- Rank inherited under holder resume: class and priority (R141). -/
  lent : Option (Nat × Nat) := none
  /-- Whether the task has used a collective, a global semaphore or a remote address (R223). -/
  job : Bool := false
  /-- Global semaphores that the task owns and whose home is another engine (R139, R140). -/
  owns : List Nat := []
  /-- The generation a serving task took at its start (R22). -/
  gen : Option Nat := none
  /-- Whether the task ends without a completion (R320). -/
  silent : Bool := false
  /-- Whether a core error cleared staging that it needs, so that it ends when it would next be placed (R400). -/
  lost : Bool := false
  /-- Time the pre-emption it causes was asked for (R136). -/
  asked : Option Nat := none
  stgs : List Stage := []
  deriving DecidableEq, Repr

/-- A semaphore's owner (R138, R140). -/
structure Owner where
  engine : Nat := 0xFF
  task : TaskId := {}
  slot : Nat := 0
  core : Nat := 0
  deriving DecidableEq, Repr

/-- A waiter of another engine on a global semaphore homed here (R140). -/
structure FarWait where
  engine : Nat
  queue : Nat
  slot : Nat
  core : Nat
  rank : Nat
  ord : Nat
  deriving DecidableEq, Repr

/-- A semaphore (R138). -/
structure Sem where
  value : Nat := 0
  owner : Option Owner := none
  far : List FarWait := []
  deriving DecidableEq, Repr

/-- A holder of a chain: the task, the semaphore it holds, its owning core, and the stage of the task before it in the chain
whose wait that is (R141, R142). -/
structure Hold where
  task : TaskId
  glob : Bool
  sem : Nat
  core : Nat
  stage : Nat := 0
  deriving DecidableEq, Repr

/-- A holder resume in progress (R141, R142). -/
structure Chain where
  waiter : TaskId
  stage : Nat
  glob : Bool
  sem : Nat
  since : Nat
  /-- The waiter's rank, at which the holders run. -/
  rank : Nat := 0
  holders : List Hold
  deriving DecidableEq, Repr

/-- A record of the context store (R134): its core and slot, the task and stage it belongs to, the tenant it is sealed under; the
sequencer's position, what its core had reached inside the operation and its tiles with their accumulators; the per-operation
counters, and the latched settings. -/
structure CtxRec where
  core : Nat
  slot : Nat
  task : TaskId
  stage : Nat
  tenant : Option Nat
  pc : Nat
  point : Nat
  tiles : CoreTiles
  cnt : Cnt
  defs : List Nat
  slots : List Int
  deriving DecidableEq, Repr

/-- A partition (R125, R132, R133). -/
structure Part where
  home : Nat := 0
  borrow : Nat := 0
  rate : Nat := 0
  depth : Nat := 4
  /-- The rate in force: that of the last refill, 0 where the partition is unregulated (R132). -/
  inForce : Nat := 0
  tokens : Nat := 0
  interf : Nat := 0
  stall : Nat := 0
  bytes : Nat := 0
  deriving DecidableEq, Repr

/-- Scheduler and operation totals (Tables 5.14, 6.6), tasks and semaphores. -/
structure Sched where
  holdBudget : Nat := 200
  semHome : Nat := 0xFF
  preempts : Nat := 0
  resumes : Nat := 0
  expiries : Nat := 0
  longDrains : Nat := 0
  longest : Nat := 0
  failedPl : Nat := 0
  orphans : Nat := 0
  opsDone : Nat := 0
  opsRefused : Nat := 0
  refStatus : Nat := 0
  refTag : Nat := 0
  noReport : Nat := 0
  parts : List Part := { home := 0xFFFF } :: List.replicate 7 {}
  tasks : List Task := []
  sems : Tab Sem := []
  gsems : Tab Sem := []
  chains : List Chain := []
  /-- The context store (R134). -/
  ctx : List CtxRec := []
  /-- Numbers placements and waits in the order they happen. -/
  order : Nat := 0
  deriving DecidableEq, Repr

/-- A scale slot (Table 4.2); a depth or headroom of `none` follows its default (R428). -/
structure Slot where
  s : Int := 0
  pinned : Bool := false
  d : Option Nat := none
  h : Option Nat := none
  lo : Int := -128
  hi : Int := 127
  hist : List (Option Int) := List.replicate 16 none
  pending : Option Int := none
  updates : Nat := 0
  nonfin : Nat := 0
  deriving DecidableEq, Repr

/-- Numerics defaults, totals and slots (Tables 2.8, 3.12, 4.7). -/
structure Num where
  ftz : Nat := 0
  sat : Nat := 1
  blk : Nat := 1
  opsFlush : Nat := 0
  opsSat : Nat := 0
  accov : Nat := 1
  grp : Nat := 2
  replays : Nat := 0
  promos : Nat := 0
  numStat : Nat := 0
  k4 : Nat := 5
  k8 : Nat := 9
  k16 : Nat := 18
  wcap : Nat := 1
  reruns : Nat := 0
  outT : Nat := 3
  confScale : Nat := 0
  confWiden : Nat := 0
  confReplay : Nat := 0
  defD : Nat := 8
  defH : Nat := 3
  slots : Tab Slot := []
  /-- The three conflict counters at the last comparison (R97). -/
  seen : List Nat := [0, 0, 0]
  deriving DecidableEq, Repr

/-- What the first CLIPNOISE of a step freezes (R186). -/
structure Frozen where
  norm : XV
  clip : Nat
  f : XV
  deriving DecidableEq, Repr

/-- A step in progress (R15, R184, R185, R190, R191, R195). -/
structure Step where
  task : TaskId := {}
  tenant : Nat := 0
  /-- Energy counter at the end of phase 2 (R19). -/
  energy0 : Nat := 0
  /-- The norm accumulator in units of 2^-149 (R185). -/
  acc : Nat := 0
  accInf : Bool := false
  accNan : Bool := false
  frozen : Option Frozen := none
  noise : List (Nat × Nat × Nat) := []
  /-- Noised extents: global address, with 0xFF for this engine, and length (R191). -/
  noised : List (Nat × Nat) := []
  clips : Nat := 0
  reel : Nat := 0
  /-- Scale slots as they stood when the step first touched them (R184). -/
  slots : List (Nat × Slot) := []
  /-- The scale slots that the step has observed (R177). -/
  observed : List Nat := []
  /-- The cost histories before the step's admission, and after it (R21). -/
  histWas : List (Nat × List Nat) := []
  histNow : List (Nat × List Nat) := []
  /-- Whether the phase mark has been passed (R177). -/
  marked : Bool := false
  /-- Whether the act of R20 has been performed. -/
  committed : Bool := false
  /-- The status with which the step is being abandoned (R28, R200). -/
  abandon : Option Nat := none
  /-- Whether the abandon is agreed: at once on one engine, by logical engine 0 in an ensemble (R200). -/
  agreed : Bool := false
  deriving DecidableEq, Repr

/-- Training objects and the steps in progress (Table 8.6). -/
structure Train where
  mode : Nat := 0
  stepCtr : Nat := 0
  deferred : Nat := 0
  abandoned : Nat := 0
  zeroPath : Nat := 0
  heldEls : Nat := 0
  lastNorm : Nat := 0
  lastClip : Nat := 0
  reserve : Nat := 0xFFFFFFFF
  margin : Nat := 20
  lastCost : Nat := 0
  estNone : Nat := 5000
  lastEst : Nat := 0
  rngWords : Nat := 0
  /-- Cost histories, most recently admitted program first (R201). -/
  hist : List (Nat × List Nat) := []
  steps : List Step := []
  deriving DecidableEq, Repr

end Sys2Proof.Machine
end

