-- ==== Sys2Proof/Machine/StateLink.lean ====
section
/-! DEFINITION. State of the link ports, the job and its collectives (09_skein_and_ensembles.md). -/

namespace Sys2Proof.Machine

/-- A client and transaction that await a write-done notification (R289). -/
structure Pend where
  client : Nat := 0
  mac : Nat := 0
  txn : Nat := 0
  index : Nat := 0
  sub : Nat := 0
  deriving DecidableEq, Repr

/-- A flit as sent and kept for replay (R206): its virtual channel, dateline class, marks and payload. -/
structure Flit where
  vc : Nat := 0
  dlc : Nat := 0
  som : Bool := true
  eom : Bool := true
  ctl : Bool := false
  seq : Nat := 0
  body : List Byte := []
  /-- For the last flit of a level message, the number of its collective: its acknowledgement gives a transaction credit back
  (R215, log entry 82). -/
  lvl : Option Nat := none
  deriving DecidableEq, Repr

/-- A link port (R202 to R207). -/
structure Port where
  /-- 0 down, 1 training, 2 up, 3 failed (0x3610+k:01). -/
  st : Nat := 0
  /-- Training stage 1–6 and attempt 1–3 (Table 9.1). -/
  stage : Nat := 0
  attempt : Nat := 0
  nbr : Option (Nat × Nat) := none
  crc : Nat := 0
  resent : Nat := 0
  tries : Nat := 0
  sent : Nat := 0
  rcvd : Nat := 0
  /-- Next link sequence to send, and next expected. -/
  txSeq : Nat := 0
  rxSeq : Nat := 0
  /-- Credits held for the neighbour's buffers: VC 0–3 in DLC 0, then in DLC 1. -/
  credits : List Nat := [64, 96, 128, 16, 64, 96, 128, 16]
  /-- Credits to return, in the same order. -/
  owed : List Nat := [0, 0, 0, 0, 0, 0, 0, 0]
  nak : Option Nat := none
  /-- Flits sent and not acknowledged, oldest first, with their resend counts. -/
  unacked : List (Flit × Nat) := []
  /-- Flits waiting for a credit or the replay limit, oldest first. -/
  queue : List Flit := []
  /-- Consecutive flits of other channels that the request channel has waited through (R205). -/
  passed : Nat := 0
  faulted : Bool := false
  /-- The flits received, channel by channel, of a message whose later flits are to be resent (R206). -/
  held : List Nat := [0, 0, 0, 0]
  deriving DecidableEq, Repr

/-- What a collective computes (R217, R218, R81). -/
inductive CollOp where
  | sum | max | min | bcast | gather | slots
  deriving DecidableEq, Repr

/-- A collective in progress on this engine (R216 to R221). -/
structure Coll where
  task : TaskId := {}
  stage : Nat := 0
  op : CollOp := .sum
  /-- Whether its partials are exact integers (R217). -/
  int : Bool := false
  /-- Whether only the root writes D (R218). -/
  toRoot : Bool := false
  root : Nat := 0
  /-- Collective ID, sequence number and leaf-count exponent (R219). -/
  id : Nat := 0
  seq : Nat := 0
  lam : Nat := 0
  /-- The tree nodes that stand here, not yet joined or sent: lowest leaf, leaves spanned, values. -/
  nodes : List (Nat × Nat × List XV) := []
  /-- Nodes of other engines whose lateness was settled by a skip (R230). -/
  skipped : List Nat := []
  /-- Nodes of this engine for which a skip notice has come (R231). -/
  notices : List Nat := []
  /-- The lateness deadline, in µs (R230). -/
  deadline : Nat := 0
  /-- Whether A lies in a sealed region, so that its messages are sealed (R215, R380). -/
  sealed_ : Bool := false
  /-- Level messages sent and not acknowledged, with a transaction credit each (R215). -/
  credits : Nat := 0
  sat : Nat := 0
  flush : Nat := 0
  deriving DecidableEq, Repr

/-- A message of a collective that this engine has not issued yet (R219): a partial, a result, or a skip notice. -/
structure Early where
  id : Nat
  seq : Nat
  lam : Nat
  node : Nat
  down : Bool := false
  skip : Bool := false
  src : Nat := 0
  data : Bytes := []
  deriving DecidableEq, Repr

/-- A partial carried to the next collective of its ID (R231). -/
structure Carried where
  id : Nat
  node : Nat
  span : Nat
  vals : List XV
  /-- The engines that own the leaves of its node. -/
  owners : Nat
  deriving DecidableEq, Repr

/-- A vote in progress up the tree (R25, R26, R200, R224, R225): its kind, the statuses received by logical engine,
and this engine's own. -/
structure Vote where
  /-- 0 admission, 1 ready to commit, 2 abandon, 3 barrier, 4 checkpoint, 5 ready after restore, 6 ceiling. -/
  kind : Nat
  /-- What the vote is about: a tenant, a collective sequence number or a step counter. -/
  value : Nat := 0
  /-- The collective ID of a barrier. -/
  id : Nat := 0
  task : TaskId := {}
  stage : Nat := 0
  own : Option Nat := none
  got : List (Nat × Nat) := []
  sent : Bool := false
  deriving DecidableEq, Repr

/-- The snapshot a checkpoint leaves for a restore (R225, R388). -/
structure Ckpt where
  /-- The checkpoint task that makes it. -/
  task : TaskId := {}
  /-- Each tenant, the address its checkpoint was written to, and the spend since the previous one that it holds. -/
  tenants : List (Nat × Nat × Nat) := []
  slots : Tab Slot := []
  stepCtr : Nat := 0
  deriving DecidableEq, Repr

/-- A restart in progress (R224). -/
structure Restart where
  answers : List Nat := []
  lost : List Nat := []
  censusOpen : Bool := true
  /-- Whether a census of this restart has come, or has been sent, here. -/
  heard : Bool := false
  restored : Bool := false
  remapped : Nat := 0
  /-- What has come of the checkpoint copy for a spare (R225). -/
  copy : Bytes := []
  deriving DecidableEq, Repr

/-- Link and job objects (Table 9.10) and what the job keeps. -/
structure Link where
  jobSize : Nat := 1
  grid : Nat := 0x11
  tray : Nat := 0
  slotId : Nat := 0
  logical : Nat := 0xFF
  jobState : Nat := 0
  status : Nat := 0
  epoch : Nat := 0
  coord : Nat := 0xFF
  map : Tab Nat := []
  ports : List Port := [{}, {}, {}, {}]
  credits : Nat := 1024
  policy : Nat := 0
  deadline : Nat := 2000
  spoil : Nat := 0
  carries : Nat := 0
  skips : Nat := 0
  nondet : Bool := false
  jobPoint : Nat := 0x27
  ownCeil : Nat := 0x27
  floods : Nat := 0
  nbrLost : Nat := 0
  restarts : Nat := 0
  limit : Nat := 8
  ckStep : Nat := 0xFFFFFFFF
  ckAddr : Nat := 0
  deriving DecidableEq, Repr

/-- A remote read not yet answered: its tag, the remote epoch at issue (R162), the node asked, and the bytes asked for. -/
structure RRead where
  tag : Nat
  epoch : Nat
  node : Nat
  addr : Nat
  len : Nat
  /-- `farSeq` when it was sent. -/
  seq : Nat := 0
  /-- Whether this engine has written its line since, so that the answer serves only what already waits for it (R214). -/
  stale : Bool := false
  deriving DecidableEq, Repr

/-- What waits for a transaction credit: its destination, its channel, its messages, and for a level message the number of its
collective (R215). -/
structure Waiting where
  dst : Nat
  vc : Nat := 0
  msgs : List Bytes
  lvl : Option Nat := none
  deriving DecidableEq, Repr

/-- The job's running state beside its objects. -/
structure Job where
  /-- The other engines of a start, with whether their ports trained (R210). -/
  members : List (Nat × Bool) := []
  /-- Whether one of them found wiring other than Table 9.6 (R210). -/
  miswired : Bool := false
  /-- The job's hop diameter H (R232). -/
  diameter : Nat := 0
  /-- Link-down nodes left out of routes. -/
  down : List Nat := []
  /-- The ends, by node and port, of links that are down, left out of routes (R212). -/
  cut : List (Nat × Nat) := []
  startReq : Option Pend := none
  salt : Nat := 0
  collSeq : Nat := 0
  colls : List Coll := []
  early : List Early := []
  carried : List Carried := []
  votes : List Vote := []
  /-- Origins and sequence numbers of sideband blocks acted on (R208). -/
  seen : List (Nat × Nat) := []
  sbSeq : Nat := 0
  /-- A job point and profile that waits for its hop delay: point, profile (R232). -/
  pending : Option (Nat × Nat) := none
  /-- The least ceiling received since the raise vote began (R234). -/
  least : Nat := 0x27
  profile : Nat := 0
  ckpt : Option Ckpt := none
  /-- The checkpoint being voted on. -/
  ckNext : Option Ckpt := none
  restart : Option Restart := none
  /-- Times of the restarts of the last hour (R226). -/
  times : List Nat := []
  /-- Remote reads awaiting answers. -/
  reads : List RRead := []
  nextTag : Nat := 0
  /-- Requests and level messages that wait for a transaction credit, oldest first (R215). -/
  toSend : List Waiting := []
  /-- Sealed messages sent in the current epoch (R381). -/
  nonce : Nat := 0
  deriving DecidableEq, Repr

end Sys2Proof.Machine
end

