-- ==== Sys2Proof/Machine/StatePower.lean ====
section
/-! DEFINITION. State of power, pins, operating points, metering, the clock and the event log
(10, 11, 14 and 16 of spec/). -/

namespace Sys2Proof.Machine

/-- The steady and transient power states (Table 10.1, R235). -/
inductive PState where
  | active | idle | doze | up | down | unwind | dormant | wakeFailed
  deriving DecidableEq, Repr

/-- Levels of the control pins (Table 14.6). FAULT_N may be high-impedance. -/
structure Pins where
  wake : Bool := false
  resetN : Bool := true
  perstN : Bool := false
  pwrAlertN : Bool := true
  coolOk : Bool := true
  ready : Bool := false
  faultN : Option Bool := none
  vio : Bool := false
  deriving DecidableEq, Repr

/-- The power state machine and its objects (R235 to R258, Table 10.9). -/
structure Power where
  st : PState := .dormant
  /-- Wake stage 1–6 while powering up. -/
  stage : Nat := 0
  settling : Bool := false
  attempts : List Nat := [0, 0, 0, 0, 0, 0]
  /-- Stage code shown by READY in Wake-Failed (R244). -/
  failed : Nat := 0
  /-- An unwind that leads to Wake-Failed (R244) and not to Dormant (R250). -/
  toFail : Bool := false
  /-- Power-down step 1–6 (Table 10.6); 0 outside a power-down. -/
  dstep : Nat := 0
  /-- Whether the power-down ends in Doze; otherwise in Dormant. -/
  toDoze : Bool := false
  /-- Whether a request for Doze started the power-down (R252); otherwise WAKE did. -/
  byReq : Bool := false
  /-- Whether a wake or an exit follows at once when the target is reached (R251, R252). -/
  follow : Option Nat := none
  /-- Whether the 200 µs of Doze residency have passed (R254). -/
  resided : Bool := false
  /-- An exit event held for the residency: its cause (R239, R254). -/
  heldExit : Option Nat := none
  /-- A return from Doze in progress: its cause. -/
  exiting : Option Nat := none
  /-- Whether entry to Idle is in progress (R237). -/
  entering : Bool := false
  /-- Time since WAKE was recognised, in µs, while powering up (0x2000:0B). -/
  wakeUs : Nat := 0
  req : Nat := 0
  lowTarget : Nat := 0
  leaveIdle : Bool := true
  aborted : Nat := 0
  rewoken : Nat := 0
  dozeExits : Nat := 0
  dozeCause : Nat := 0xFF
  dozeSrc : Nat := 3
  lastWakeUs : Nat := 0
  deriving DecidableEq, Repr

/-- Operating point, cap loop, thermal ceiling and alerts (Table 11.6). -/
structure OpPoint where
  op : Nat := 0
  mem : Nat := 0
  notch : Nat := 0
  capMem : Nat := 2
  calm : Nat := 0
  /-- Lowerings of the cap loop still to be undone, latest first: true for the memory rate (R267). -/
  lowered : List Bool := []
  clamp : Nat := 16
  thermCeil : Nat := 7
  cool : Nat := 0
  trip : Bool := false
  /-- PWR_ALERT_N low, or its hold in force (R273). -/
  alert : Bool := false
  regAlert : Bool := false
  coolStop : Bool := false
  coreMv : Nat := 0
  /-- The point that a voltage ramp in progress leads to; an upward change switches its clocks when the ramp ends (R261). -/
  ramp : Option (Nat × Nat) := none
  /-- One OP per sample after a safety source released (R276). -/
  slow : Bool := false
  cap : Nat := 18000
  frac : List Nat := [62, 24, 8, 6]
  fracNow : List Nat := [62, 24, 8, 6]
  lowE : Bool := false
  lowCeil : Nat := 0x13
  softMa : Nat := 13000
  holdMs : Nat := 10
  profiles : List Nat := [0x27, 0x27, 0x27, 0x27, 0x27, 0x27, 0x27, 0x27]
  /-- The profile in force when its throttle reason was last looked at (R279). -/
  profile : Nat := 0
  binds : Bool := false
  conf : Nat := 0
  confSeen : Nat := 0
  deriving DecidableEq, Repr

/-- Sensors, energy, calibration and throttle reasons (Tables 11.5, 11.6). -/
structure Meter where
  hot : Int := 0
  /-- The lowest of the 24 readings, which OTP programming looks at (R368). -/
  cold : Int := 0
  hotIx : Nat := 0
  /-- The hotter of the two regulator sensors, in 1/16 °C (R274). -/
  regHot : Int := 0
  highest : Int := 0
  onset : Nat := 100
  halts : Nat := 0
  haltAt : Nat := 0
  energy : Nat := 0
  input : Nat := 0
  doms : List Nat := [0, 0, 0, 0]
  calAge : Nat := 0xFFFFFFFF
  /-- Nanoseconds towards the next second of the calibration age. -/
  calNs : Nat := 0
  calRun : Bool := false
  stale : Bool := false
  /-- Reasons active now, bit r = code r (R279). -/
  reasons : Nat := 0
  /-- Microseconds accrued by each reason. -/
  accrued : List Nat := List.replicate 10 0
  lastAt : List Nat := List.replicate 10 0
  vin : Nat := 3700
  vinLow : Nat := 3700
  deriving DecidableEq, Repr

/-- The timestamp and the cycle counters (R8, R407). -/
structure Clock where
  ns : Nat := 0
  compute : Nat := 0
  fabric : Nat := 0
  deriving DecidableEq, Repr

/-- An event-log entry (Table 16.3). -/
structure Entry where
  ns : Nat := 0
  seq : Nat := 0
  code : Nat := 0
  kind : Nat := 0
  inst : Nat := 0
  a1 : Nat := 0
  a2 : Nat := 0
  deriving DecidableEq, Repr

/-- The event log and the fault counters (Table 16.6). -/
structure Log where
  /-- Entries staged and not yet copied, oldest first (R403). -/
  staged : List Entry := []
  ring : Tab Entry := []
  seq : Nat := 0
  copied : Nat := 0
  overs : Nat := 0
  dropped : Nat := 0
  /-- A drop not yet recorded: entries dropped, and the first one's sequence (R403). -/
  gap : Option (Nat × Nat) := none
  /-- Whether a watchdog fault holds FAULT_N low until firmware verifies (R401). -/
  wd : Bool := false
  faults : List Nat := List.replicate 10 0
  lastFault : Nat := 0
  deriving DecidableEq, Repr

end Sys2Proof.Machine
end

