-- ==== Sys2Proof/Machine/StateHost.lean ====
section
/-! DEFINITION. State of the dictionary protocol, the host port, the streams and the test access port
(12, 13 and 14 of spec/), and the outbox of what the engine sends. -/

namespace Sys2Proof.Machine

/-- What leaves the engine, in the order it is sent. -/
inductive Out where
  /-- A PCIe write into host memory: a completion (R325). -/
  | hostWrite (addr : Nat) (bytes : Bytes)
  /-- An MSI-X message (Table 13.4). -/
  | msix (v : Nat)
  /-- The response of the dictionary window (R304). -/
  | window (msg : Bytes)
  /-- A frame on 10BASE-T1S, from its destination MAC to the end of its padding (R298). -/
  | frame (bytes : Bytes)
  /-- A PLCA beacon (R299). -/
  | beacon
  /-- A read completion of the memory window: its data, and whether the EP bit is set; `none` is Unsupported Request. -/
  | tlp (data : Option Bytes) (ep : Bool)
  /-- A flit on a link port (R206). -/
  | flit (port : Nat) (f : Flit) (ack : Nat)
  /-- A message handed to the fabric: destination node and its bytes (Table 9.5). -/
  | message (node : Nat) (msg : Bytes)
  /-- A sideband block on a link port: its 56 bits (Table 9.5a). -/
  | sideband (port block : Nat)
  /-- A burst of READY pulses (R245). -/
  | pulses (n : Nat)
  /-- Samples played on a TDM slot; `none` is a frame of zeros (R339). -/
  | play (port slot : Nat) (codes : Option (List Nat))
  /-- The word shifted out of the test access port (R361). -/
  | tdo (v : Nat)
  deriving DecidableEq, Repr

/-- An open segmented transfer (R295 to R297). -/
structure Transfer where
  client : Nat
  write : Bool
  index : Nat
  sub : Nat
  sel : Option Nat := none
  txn : Nat := 0
  mac : Nat := 0
  data : Bytes := []
  next : Nat := 1
  timedOut : Bool := false
  deriving DecidableEq, Repr

/-- A client's level, challenges and lockouts (R310 to R312, R391). Client 0–31 is a node, 254 the PCIe window. -/
structure Client where
  id : Nat
  level : Nat := 0
  chal : Option Nat := none
  wrong : Nat := 0
  locked : Nat := 0
  dchal : Option Nat := none
  dwrong : Nat := 0
  dlocked : Nat := 0
  deriving DecidableEq, Repr

/-- A request that waits for the management core (R290, R300, R304): one of the window, which `lost` says has been cleared meanwhile
(R305), or one that came in a frame, with its source MAC. The peers are what the other engines of a job report at its start. -/
inductive Rx where
  | window (msg : Bytes) (peers : List Peer) (lost : Bool)
  | frame (mac : Nat) (msg : Bytes) (peers : List Peer)
  deriving DecidableEq, Repr

/-- A stored response (R301). -/
structure Stored where
  mac : Nat
  node : Nat
  kind : Nat
  txn : Nat
  at_ : Nat
  msg : Bytes
  deriving DecidableEq, Repr

/-- A notification awaiting its acknowledgement (R307). -/
structure Unacked where
  seq : Nat
  mac : Nat
  msg : Bytes
  resends : Nat := 0
  deriving DecidableEq, Repr

/-- One selector per numbered set, as one carrier holds it (R291). -/
structure Sels where
  slot : Nat := 0
  prog : Nat := 0
  ledger : Nat := 0
  sem : Nat := 0
  tenant : Nat := 0
  deriving DecidableEq, Repr

/-- Dictionary-protocol objects and stations (Table 12.10). -/
structure Adp where
  plcaN : Nat := 8
  plcaTo : Nat := 32
  accepted : Nat := 0
  rxDrops : Nat := 0
  txDrops : Nat := 0
  beaconOk : Bool := false
  conflicts : Nat := 0
  dups : Nat := 0
  svcLast : Nat := 0
  svcLong : Nat := 0
  segMs : Nat := 100
  busyCnt : Nat := 0
  idleS : Nat := 300
  wrong : Nat := 0
  watch : List Nat := List.replicate 16 0
  /-- The value last notified of each watched object (R306). -/
  told : List Bytes := List.replicate 16 []
  noteNode : Nat := 0xFF
  noteCar : Nat := 0x0A
  notes : Nat := 0
  resends : Nat := 0
  unackDrops : Nat := 0
  ringDrops : Nat := 0
  deriving DecidableEq, Repr

/-- The stations' running state: queues, transfers, clients, window. -/
structure Stn where
  txq : List (Nat × Bytes) := []
  stored : List Stored := []
  macs : Tab Nat := []
  unacked : List Unacked := []
  seqT : Nat := 0
  seqP : Nat := 0
  transfers : List Transfer := []
  clients : List Client := []
  /-- Selectors of the PCIe window, and of 10BASE-T1S. -/
  selP : Sels := {}
  selT : Sels := {}
  reqBuf : Bytes := []
  respBuf : Bytes := []
  busy : Bool := false
  done : Bool := false
  overrun : Bool := false
  head : Nat := 0
  tail : Nat := 0
  ring : Tab Bytes := []
  /-- The requests that wait, in the order of their arrival (R290, R300, R302, R304). -/
  rx : List Rx := []
  /-- When vector 65 was last sent, and whether it is owed (R305). -/
  vecAt : Option Nat := none
  vecDue : Bool := false
  deriving DecidableEq, Repr

/-- A queue (R321 to R328, Table 13.10). -/
structure Queue where
  enabled : Bool := false
  taskBase : Nat := 0
  compBase : Nat := 0
  e : Nat := 256
  s : Nat := 0
  ceil : Nat := 15
  coalN : Nat := 1
  coalUs : Nat := 0
  f : Nat := 0
  p : Nat := 0
  c : Nat := 0
  a : Nat := 0
  prodRaw : Nat := 0
  cackRaw : Nat := 0
  st : Nat := 0
  err : Nat := 0
  cancel : Option Nat := none
  /-- Completions not yet signalled, and when the oldest of them was written (R326). -/
  unsig : Nat := 0
  unsigAt : Nat := 0
  resetting : Bool := false
  /-- Who await the end of the reset, oldest first (R328, R289). -/
  resetReq : List Pend := []
  /-- The PROD values accepted, newest first, with their times (R329). -/
  posts : List (Nat × Nat) := []
  deriving DecidableEq, Repr

/-- A stream context (R335 to R341, Table 13.10). -/
structure Ctx where
  isOpen : Bool := false
  src : Nat := 0
  srcSlot : Nat := 0
  sink : Nat := 0
  sinkSlot : Nat := 0
  rate : Nat := 1
  fmt : Nat := 0
  inBase : Nat := 0
  nIn : Nat := 4
  outBase : Nat := 0
  nOut : Nat := 4
  sems : Nat := 0
  queue : Nat := 0
  tenant : Nat := 0
  latency : Nat := 4000
  next : Nat := 0
  counts : List Nat := [0, 0, 0, 0, 0]
  overFlag : Bool := false
  gapFlag : Bool := false
  capture : Bool := false
  debt : Nat := 0
  /-- Output frames posted so far, due so far, and not yet taken by the host (R339, R340). -/
  outPost : Nat := 0
  outDue : Nat := 0
  untaken : Nat := 0
  t0 : Nat := 0
  /-- When host software announced the frames whose output is still to come: frame and time (Table 13.7). -/
  ends : List (Nat × Nat) := []
  deriving DecidableEq, Repr

/-- A TDM port (R331 to R334). -/
structure Tdm where
  en : Bool := false
  mode : Nat := 1
  role : Nat := 0
  rate : Nat := 3
  slots : Nat := 8
  width : Nat := 2
  timing : Nat := 0
  st : Nat := 0
  losses : Nat := 0
  slips : Nat := 0
  /-- Consecutive good frames while a slave port seeks alignment, and when the port was enabled. -/
  good : Nat := 0
  enAt : Nat := 0
  deriving DecidableEq, Repr

/-- Host-port objects, queues, contexts and ports (Table 13.10). -/
structure HostPort where
  speed : Nat := 0
  width : Nat := 0
  target : Nat := 4
  sealedRef : Nat := 0
  badEntry : Nat := 0
  resets : Nat := 0
  discarded : Nat := 0
  map : List Nat := (List.range 64).map (fun i => i + 2 ^ 63)
  /-- Doorbell writes, offset and value, that wait for firmware to run, oldest first (R316). -/
  waits : List (Nat × Nat) := []
  /-- Sealed refusals since the last WINDOW_SEALED entry, and that entry's time (R319). -/
  sealCnt : Nat := 0
  sealAt : Option Nat := none
  /-- When vector 67 was last sent for an output frame, and whether it is owed (R340). -/
  vecAt : Option Nat := none
  vecDue : Bool := false
  queues : Tab Queue := []
  ctxs : Tab Ctx := []
  tdms : Tab Tdm := []
  deriving DecidableEq, Repr

/-- The MSI-X table, 72 entries of 16 B, and the vectors that are pending because their entry is masked (Table 13.3). -/
structure Msix where
  tab : Tab Nat := []
  pend : List Nat := []
  deriving DecidableEq, Repr

/-- The test access port (R361, R362). -/
structure Tap where
  ir : Nat := 0x01
  /-- Whether EXTEST, HIGHZ or CLAMP has the single-ended balls. -/
  takeover : Bool := false
  /-- The 25 boundary-scan cells as loaded, and the bypass register. -/
  cells : Nat := 0
  byp : Nat := 0
  deriving DecidableEq, Repr

end Sys2Proof.Machine
end

