-- ==== Sys2Proof/Machine/StateSec.lean ====
section
/-! DEFINITION. State of OTP, tenants, sessions, firmware and debug (15_fuses_tenants_security.md), and the values
taken from OTP at wake. -/

namespace Sys2Proof.Machine

/-- The OTP array (Table 15.1). Mark and security bits stand as physical bits, three to a logical bit (R368). -/
structure Otp where
  /-- The 512 bytes of the factory area (Table 15.2). -/
  factory : Bytes
  /-- Generations 0–3 of the configuration record, 128 bytes each. -/
  records : List Bytes
  /-- Key-hash slots 0–3, 32 bytes each. -/
  hashes : List Bytes
  /-- The 24 physical bits of the eight logical key-slot marks. -/
  marks : Nat
  /-- The nine physical bits of the three logical security bits. -/
  sec : Nat
  /-- The 12,288 session-counter bits. -/
  sess : Nat
  deriving DecidableEq, Repr

/-- A tenant record (Tables 15.6, 15.7): 0 absent, 1 held, 2 armed. -/
structure Tenant where
  st : Nat := 0
  np : Nat := 0
  param : Nat := 0
  act : Nat := 0
  actLen : Nat := 0
  scr : Nat := 0
  scrLen : Nat := 0
  str : Nat := 0
  strLen : Nat := 0
  budget : Nat := 0
  spent : Nat := 0
  steps : Nat := 0
  codes : Nat := 0
  live : Nat := 0
  /-- Spend committed since the previous checkpoint (Table 15.12). -/
  since : Nat := 0
  secret : Bytes := []
  deriving DecidableEq, Repr

/-- The tenant table, with its ledgers. -/
structure Vault where
  tenants : Tab Tenant
  deriving DecidableEq, Repr

/-- An OTP programming request in progress (R368, R371, R374, R394, R385). -/
inductive OtpJob where
  /-- Words of a configuration record into a generation: the whole record, and words programmed. -/
  | record (gen : Nat) (data : Bytes) (word : Nat)
  /-- Words of a key hash into a slot. -/
  | hash (slot : Nat) (data : Bytes) (word : Nat)
  /-- Logical mark bits to set. -/
  | mark (bits : Nat)
  /-- Logical security bits to set. -/
  | security (bits : Nat)
  /-- A session bit, by its index (R385, R387, R389). -/
  | session (index : Nat)
  deriving DecidableEq, Repr

/-- An entry of the open manifest (Table 15.9). -/
structure ManEntry where
  id : Nat := 0
  armed : Bool := false
  len : Nat := 0
  off : Nat := 0
  digest : Bytes := []
  done : Bool := false
  deriving DecidableEq, Repr

/-- A session request in progress. -/
structure SessReq where
  op : Nat := 0
  outLen : Nat := 0
  out : Nat := 0
  entries : List ManEntry := []
  deriving DecidableEq, Repr

/-- Sessions, firmware, debug and OTP requests (Table 15.13). -/
structure Sec where
  fw : Nat := 0
  fwSlot : Nat := 0xFF
  fwStatus : Nat := 0
  fwPrev : Nat := 0
  /-- A firmware load in progress: the copied image. -/
  loading : Option (Bytes × Pend) := none
  staged : Option Bytes := none
  otpJobs : List (OtpJob × Option Pend) := []
  verFail : Nat := 0
  unlocked : Bool := false
  entropyBad : Bool := false
  session : Bool := false
  entries : List ManEntry := []
  req : Option (SessReq × Pend) := none
  /-- Tenant commands whose write-done notification is still to come, oldest first, with their final status (R289). -/
  tenReqs : List (Nat × Pend) := []
  tenStatus : Nat := 0
  closeBytes : Nat := 0
  /-- How many entropy values have been drawn, and free durations used (R375, R121). -/
  drawn : Nat := 0
  used : Nat := 0
  deriving DecidableEq, Repr

/-- What wake stage 4 took from OTP and the straps. -/
structure Live where
  cls : Nat := 0xFF
  gen : Nat := 0xFF
  record : Bytes := []
  nodeId : Nat := 0
  nodeSrc : Nat := 1
  clkreq : Bool := false
  segEnd : Bool := false
  straps : Nat := 0
  hasRec : Bool := false
  trims : List Nat := List.replicate 8 0
  factory : Bytes := []
  deriving DecidableEq, Repr

end Sys2Proof.Machine
end

