-- ==== Sys2Proof/Machine/StateWorld.lean ====
section
/-! DEFINITION. Everything of the engine but its OTP, its tenant table and the queue of commands: one field for each
group of the object dictionary and of the running machinery. -/

namespace Sys2Proof.Machine

/-- The engine's state outside OTP and the tenant table. -/
structure World where
  live : Live := {}
  power : Power := {}
  pins : Pins := {}
  pt : OpPoint := {}
  meter : Meter := {}
  clock : Clock := {}
  log : Log := {}
  adp : Adp := {}
  stn : Stn := {}
  host : HostPort := {}
  msix : Msix := {}
  sched : Sched := {}
  num : Num := {}
  train : Train := {}
  mem : Mem := {}
  link : Link := {}
  job : Job := {}
  sec : Sec := {}
  tap : Tap := {}
  /-- What the engine has sent, oldest first. -/
  out : List Out := []
  deriving DecidableEq, Repr

end Sys2Proof.Machine
end

