-- ==== Sys2Proof/Machine/Reset.lean ====
section
/-! DEFINITION. The engine as it is delivered and before its first wake: Dormant, with every object at its default
(Table 18.2) and OTP as Penulend programs it (log entries 4 and 5). -/

namespace Sys2Proof.Machine

/-- Bytes 0x000 to 0x1FB of the factory area (Table 15.2), with the nominal trim bytes of R259. -/
def factoryBody : Bytes :=
  leBytes 8 Config.chipIdentity ++ leBytes 4 0x00504E44 ++ leBytes 2 0x0100 ++ zeros 2 ++
    [30#8, 36#8, 44#8, 52#8, 62#8, 72#8, 82#8, 92#8] ++ leBytes 40 Config.otherTrims ++
    leBytes 32 Config.rootKey ++ leBytes 8 Config.factoryPassword ++ zeros 404

/-- The OTP of a delivered part: factory area, blank records, key slot 0 programmed and valid, debug locked. -/
def shippedOtp : Otp :=
  { factory := factoryBody ++ leBytes 4 (crc32 factoryBody)
    records := List.replicate 4 (zeros 128)
    hashes := [leBytes 32 Config.keyHash0, zeros 32, zeros 32, zeros 32]
    marks := 7
    sec := 7
    sess := 0 }

/-- The engine in Dormant. -/
def resetWorld : World := {}

/-- No tenant survives Dormant. -/
def resetVault : Vault := { tenants := [] }

end Sys2Proof.Machine
end

