-- ==== Sys2Proof/Machine/State.lean ====
section
/-! DEFINITION. The state of the engine: OTP, the tenant table, everything else, and the queue of commands that wait. -/

namespace Sys2Proof.Machine

/-- The engine with its waiting commands, first in, first out. -/
structure State where
  otp : Otp
  vault : Vault
  w : World
  pending : List Instr
  deriving DecidableEq, Repr

/-- Why a command stops with a fault. The spec gives every command of the table an effect, so no meaning raises one. -/
inductive Fault where
  /-- Raised by no meaning: kept so that the type has a member (safe). -/
  | unreachable
  deriving DecidableEq, Repr

/-- Why a command has no meaning. -/
inductive Refusal where
  /-- Raised by an arm of exec whose command is not modelled yet, by its mnemonic (safe). -/
  | notModelled (mnemonic : String)
  deriving DecidableEq, Repr

/-- The engine after reset: Dormant, with no command waiting. -/
def State.reset : State := { otp := shippedOtp, vault := resetVault, w := resetWorld, pending := [] }

end Sys2Proof.Machine
end

