-- ==== Sys2Proof/Machine/Ops.lean ====
section
/-! DEFINITION. Operations that every family of commands shares: the event log, the outbox, notifications, memory. -/

namespace Sys2Proof.Machine

/-! Lifting a change of one part to the whole state. -/

/-- Changes the engine outside OTP and the tenant table. -/
def State.onW (s : State) (f : World → World) : State := { s with w := f s.w }

/-- As `onW`, for a change that reads the tenant table. -/
def State.onRW (s : State) (f : Vault → World → World) : State := { s with w := f s.vault s.w }

/-- As `onRW`, for a change that also reads OTP. -/
def State.onOW (s : State) (f : Otp → Vault → World → World) : State := { s with w := f s.otp s.vault s.w }

/-- A change that may write the tenant table. -/
def State.onVW (s : State) (f : Vault → World → Vault × World) : State :=
  { s with vault := (f s.vault s.w).1, w := (f s.vault s.w).2 }

/-- A change that reads OTP and may write the tenant table. -/
def State.onOVW (s : State) (f : Otp → Vault → World → Vault × World) : State :=
  { s with vault := (f s.otp s.vault s.w).1, w := (f s.otp s.vault s.w).2 }

/-- The timestamp of R8. -/
def World.now (w : World) : Nat := w.clock.ns

/-! The outbox and the interrupt vectors. -/

/-- Sends something. -/
def World.send (w : World) (o : Out) : World := { w with out := w.out ++ [o] }

/-- Whether an entry of the MSI-X table is masked: the mask is the first bit of its last word (Table 13.3; log entry 89). -/
def World.masked (w : World) (v : Nat) : Bool := bitAt (w.msix.tab.get 0 v) 96

/-- Raises an MSI-X vector; while PERST_N is low its message is lost (R320), and while its entry is masked it is pending. -/
def World.vector (w : World) (v : Nat) : World :=
  if !w.pins.perstN then w
  else if w.masked v then { w with msix := { w.msix with pend := if w.msix.pend.contains v then w.msix.pend else w.msix.pend ++ [v] } }
  else w.send (.msix v)

/-- Raises vector 65, at most once every 10 µs (R305). -/
def World.vector65 (w : World) : World :=
  match w.stn.vecAt with
  | some t =>
    if w.now < t + 10000 then { w with stn := { w.stn with vecDue := true } }
    else { w.vector 65 with stn := { w.stn with vecAt := some w.now, vecDue := false } }
  | none => { w.vector 65 with stn := { w.stn with vecAt := some w.now, vecDue := false } }

/-- Raises vector 67 for an output frame, at most once every 10 µs (R340). -/
def World.vector67 (w : World) : World :=
  match w.host.vecAt with
  | some t =>
    if w.now < t + 10000 then { w with host := { w.host with vecDue := true } }
    else { w.vector 67 with host := { w.host with vecAt := some w.now, vecDue := false } }
  | none => { w.vector 67 with host := { w.host with vecAt := some w.now, vecDue := false } }

/-! The event log (R403). -/

/-- Source kinds of Table 16.3. -/
def srcCore : Nat := 0
def srcSlice : Nat := 1
def srcPort : Nat := 2
def srcMgmt : Nat := 3
def srcAlwaysOn : Nat := 4
def srcQueue : Nat := 5
def srcStream : Nat := 6
def srcClient : Nat := 7
def srcChannel : Nat := 8

/-- Stages an event, or drops it where the buffer of 64 is full; its sequence number is consumed either way (R403). -/
def World.event (w : World) (code kind inst a1 a2 : Nat) : World :=
  let l := w.log
  if l.staged.length < 64 then
    { w with log := { l with
        staged := l.staged ++ [{ ns := w.now, seq := l.seq, code := code, kind := kind, inst := inst, a1 := a1, a2 := a2 }]
        seq := (l.seq + 1) % 2 ^ 32 } }
  else
    { w with log := { l with
        seq := (l.seq + 1) % 2 ^ 32
        dropped := sat32 l.dropped 1
        gap := match l.gap with | none => some (1, l.seq) | some (n, f) => some (n + 1, f) } }

/-- The 32 bytes of an event-log entry (Table 16.3). -/
def Entry.bytes (e : Entry) : Bytes :=
  leBytes 8 e.ns ++ leBytes 4 e.seq ++ leBytes 2 e.code ++ leBytes 2 (256 * e.kind + e.inst) ++ leBytes 8 e.a1 ++ leBytes 8 e.a2

/-- Steps 1 to 3 of R398: counts a fault, records its cause and suspect, and logs it. -/
def World.countFault (w : World) (cause suspect kind inst : Nat) : World :=
  let w := { w with log := { w.log with
    faults := modAt w.log.faults (cause - 1) (fun c => sat32 c 1)
    lastFault := cause + 2 ^ 16 * suspect } }
  w.event 0x0010 kind inst cause (suspect + 256 * w.link.logical)

/-! ADP messages and notifications. -/

/-- An ADP message (Table 12.4). -/
def adpMsg (kind src dst txn idx sub flags aux status : Nat) (data : Bytes) : Bytes :=
  [1#8, byteOf kind, byteOf src, byteOf dst] ++ leBytes 2 txn ++ leBytes 2 data.length ++ leBytes 2 idx ++
    [byteOf sub, byteOf flags] ++ leBytes 2 aux ++ leBytes 2 status ++ data

/-- Queues a frame for transmission, or drops and counts it where sixteen wait (R300). -/
def World.queueFrame (w : World) (mac : Nat) (msg : Bytes) : World :=
  if w.stn.txq.length < 16 then { w with stn := { w.stn with txq := w.stn.txq ++ [(mac, msg)] } }
  else { w with adp := { w.adp with txDrops := sat32 w.adp.txDrops 1 } }

/-- Writes a notification into the ring of the PCIe window, or drops it where the ring is full (R305). -/
def World.noteWindow (w : World) (idx sub : Nat) (data : Bytes) : World :=
  let msg := adpMsg 0x10 0xFE 0xFE 0 idx sub 0 w.stn.seqP 0 data
  let w := { w with stn := { w.stn with seqP := (w.stn.seqP + 1) % 2 ^ 16 } }
  if (w.stn.head + 1) % 256 = w.stn.tail then { w with adp := { w.adp with ringDrops := sat32 w.adp.ringDrops 1 } }
  else
    let w := { w with
      stn := { w.stn with ring := Tab.set ([] : Bytes) w.stn.ring w.stn.head msg, head := (w.stn.head + 1) % 256 }
      adp := { w.adp with notes := add64 w.adp.notes 1 } }
    w.vector65

/-- Sends a notification to a node of 10BASE-T1S and keeps it until it is acknowledged (R307). -/
def World.noteNode (w : World) (node mac idx sub : Nat) (data : Bytes) : World :=
  let msg := adpMsg 0x10 w.live.nodeId node 0 idx sub 0 w.stn.seqT 0 data
  let w := { w with
    stn := { w.stn with
      unacked := w.stn.unacked ++ [({ seq := w.stn.seqT, mac := mac, msg := msg } : Unacked)]
      seqT := (w.stn.seqT + 1) % 2 ^ 16 }
    adp := { w.adp with notes := add64 w.adp.notes 1 } }
  w.queueFrame mac msg

/-- Sends a notification of type 1 or 2 on the carriers that 0x1102:03 chooses by its two bits (R306, R307). -/
def World.noteCarriers (w : World) (bitT bitP idx sub : Nat) (data : Bytes) : World :=
  let mac := w.stn.macs.get 0 w.adp.noteNode
  let w := if bitAt w.adp.noteCar bitT && decide (w.adp.noteNode < 32) && decide (mac ≠ 0)
    then w.noteNode w.adp.noteNode (mac - 1) idx sub data else w
  if bitAt w.adp.noteCar bitP then w.noteWindow idx sub data else w

/-- The write-done notification of a pending write (R289). -/
def World.writeDone (w : World) (p : Pend) (status : Nat) : World :=
  let data := [3#8, 0#8, 0#8, 0#8] ++ leBytes 2 p.txn ++ leBytes 2 status
  if p.client = 254 then w.noteWindow p.index p.sub data else w.noteNode p.client p.mac p.index p.sub data

/-- As `writeDone`, for a request that may not have a client. -/
def World.writeDone? (w : World) (p : Option Pend) (status : Nat) : World :=
  match p with
  | some p => w.writeDone p status
  | none => w

/-! Memory. -/

/-- Whether a range of local addresses lies in the host region (Table 7.2, R146). -/
def inHost (a n : Nat) : Bool := decide (a + n ≤ hostRegion)

/-- Reads local memory at its point of coherence (R149). A byte that nothing has written reads 0 (log entry 6). -/
def World.load (w : World) (a n : Nat) : Bytes := w.mem.mem.getRun 0 a n

/-- Stores to local memory through the slices (R148, R149). -/
def World.store (w : World) (a : Nat) (bs : Bytes) : World := { w with mem := w.mem.store a bs }

/-- The tenant that owns the granule of a local address, if it is sealed (R378). -/
def World.sealOf (w : World) (a : Nat) : Option Nat :=
  match w.mem.seals.get 0 (a / granule) with
  | 0 => none
  | t + 1 => some t

/-- The granules that a range touches. -/
def granulesOf (a n : Nat) : List Nat :=
  if n = 0 then [] else (List.range ((a + n - 1) / granule - a / granule + 1)).map (· + a / granule)

/-- Whether any granule of a range is sealed. -/
def World.anySealed (w : World) (a n : Nat) : Bool := (granulesOf a n).any (fun g => decide (w.mem.seals.get 0 g ≠ 0))

/-- Whether every sealed granule of a range belongs to the tenant named, and none is sealed where none is named (R379). -/
def World.tenantOk (w : World) (t : Option Nat) (a n : Nat) : Bool :=
  (granulesOf a n).all (fun g =>
    let e := w.mem.seals.get 0 g
    e == 0 || (match t with | some t => e == t + 1 | none => false))

/-- Reads the staging SRAM of a compute core. -/
def World.loadStaging (w : World) (core off n : Nat) : Bytes := w.mem.staging.getRun 0 (core * 524288 + off) n

/-- Writes the staging SRAM of a compute core. -/
def World.storeStaging (w : World) (core off : Nat) (bs : Bytes) : World :=
  { w with mem := { w.mem with staging := w.mem.staging.setRun 0 (core * 524288 + off) bs } }

/-! The issue limit. -/

/-- The issue limit of the ladder; a pin sets it to 16/16 (R262 step 2, R267). -/
def OpPoint.ladder (p : OpPoint) : Nat := if p.binds then 16 else 16 - 2 * (p.notch % 3)

/-- The issue limit in force (R269). -/
def OpPoint.issue (p : OpPoint) : Nat := min p.clamp p.ladder

/-! The job. -/

/-- Whether the job runs on more than one engine, so that it has job tasks (R223). -/
def World.multi (w : World) : Bool := decide (1 < w.link.jobSize) && decide (w.link.jobState ≠ 0)

end Sys2Proof.Machine
end

