-- ==== Sys2Proof/Machine/Net.lean ====
section
/-! DEFINITION. The link fabric: routes, flits, messages, sideband floods and job faults (09_skein_and_ensembles.md). -/

namespace Sys2Proof.Machine

/-! Nodes and routes (R209, R212). -/

/-- This engine's physical node. -/
def World.node (w : World) : Nat := 16 * w.link.tray + w.link.slotId

/-- The node of a logical engine, if it has one. -/
def World.nodeOf (w : World) (l : Nat) : Option Nat :=
  let n := w.link.map.get 0xFF l
  if n = 0xFF then none else some n

/-- What a route depends on: the class, the job size, the grid and the nodes left out. -/
structure RouteCfg where
  cls : Nat
  n : Nat
  tx : Nat
  ty : Nat
  /-- The tray of a desk ring, times 16. -/
  base : Nat
  down : List Nat
  /-- The ends of links that are down. -/
  cut : List (Nat × Nat)
  deriving DecidableEq, Repr

/-- The routing data of the present job. -/
def World.routeCfg (w : World) : RouteCfg :=
  { cls := w.live.cls, n := w.link.jobSize, tx := max 1 (w.link.grid % 16), ty := max 1 (w.link.grid / 16), base := 16 * w.link.tray, down := w.job.down, cut := w.job.cut }

/-- The number of slots on a tray's ring. -/
def RouteCfg.ring (c : RouteCfg) : Nat := if c.cls = 2 then 9 else max 1 c.n

/-- The slot `i` hops along a ring. -/
def RouteCfg.along (c : RouteCfg) (s i : Nat) (up : Bool) : Nat := if up then (s + i) % c.ring else (s + c.ring * i - i) % c.ring

/-- Whether a walk of `d` hops along a tray's ring from a slot, upwards or downwards, passes only nodes and links that are up. -/
def RouteCfg.clear (c : RouteCfg) (tray s d : Nat) (up : Bool) : Bool :=
  (List.range (d - 1)).all (fun i => !c.down.contains (16 * tray + c.along s (i + 1) up)) &&
  (List.range d).all (fun i =>
    let a := 16 * tray + c.along s i up
    let b := 16 * tray + c.along s (i + 1) up
    !c.cut.contains (a, if up then 0 else 1) && !c.cut.contains (b, if up then 1 else 0))

/-- The direction along a ring, with its length: the shorter one that is up, ties to K0 (R212). -/
def RouteCfg.ringDir (c : RouteCfg) (tray s d : Nat) : Bool × Nat :=
  let u := (d + c.ring - s) % c.ring
  let v := (s + c.ring - d) % c.ring
  let cu := c.clear tray s u true
  let cv := c.clear tray s v false
  if cu && (!cv || decide (u ≤ v)) then (true, u) else if cv then (false, v) else (decide (u ≤ v), min u v)

/-- One hop along a ring: the port, the next node and whether the hop crosses the dateline. -/
def RouteCfg.ringHop (c : RouteCfg) (tray s : Nat) (up : Bool) : Nat × Nat × Bool :=
  if up then (0, 16 * tray + (s + 1) % c.ring, s + 1 == c.ring) else (1, 16 * tray + (s + c.ring - 1) % c.ring, s == 0)

/-- The slot of a tray nearest to `s` whose link, at a port, serves an edge of a parity, with the direction to it (R212). -/
def RouteCfg.nearest (c : RouteCfg) (tray far s parity port : Nat) : Option (Nat × Bool × Nat) :=
  let up := fun (node : Nat) => !c.down.contains node && !c.cut.contains (node, port)
  let cand := (List.range 9).filter (fun t => t % 2 == parity && up (16 * tray + t) && up (16 * far + t))
  cand.foldl (fun b t =>
    let r := c.ringDir tray s t
    match b with
    | none => some (t, r)
    | some (_, u, d) => if r.2 < d || (r.2 == d && r.1 && !u) then some (t, r) else b) none

/-- One hop towards another tray along a dimension: its port, size, and the tray numbers on both sides. -/
def RouteCfg.dimHop (c : RouteCfg) (tray s at_ dst size port : Nat) (toTray : Nat → Nat) : Option (Nat × Nat × Bool) :=
  let p := (dst + size - at_) % size
  let q := (at_ + size - dst) % size
  let plus := decide (p ≤ q)
  let nxt := if plus then (at_ + 1) % size else (at_ + size - 1) % size
  let edge := if plus then at_ else nxt
  let wraps := if plus then at_ + 1 == size else at_ == 0
  (c.nearest tray (toTray nxt) s (edge % 2) port).map (fun (t, dir, _) =>
    if t = s then (port, 16 * toTray nxt + s, wraps) else c.ringHop tray s dir)

/-- The next hop from a node to another: port, next node, and whether it crosses a dateline (R212). -/
def RouteCfg.next (c : RouteCfg) (node dst : Nat) : Option (Nat × Nat × Bool) :=
  if node = dst then none
  else
    let tray := node / 16
    let s := node % 16
    if c.cls = 2 then
      let x := tray % c.tx
      let y := tray / c.tx
      let dx := dst / 16 % c.tx
      let dy := dst / 16 / c.tx
      if x ≠ dx then c.dimHop tray s x dx c.tx 2 (fun x' => y * c.tx + x')
      else if y ≠ dy then c.dimHop tray s y dy c.ty 3 (fun y' => y' * c.tx + x)
      else some (c.ringHop tray s (c.ringDir tray s (dst % 16)).1)
    else some (c.ringHop tray s (c.ringDir tray s (dst % 16)).1)

/-- The hops of a route, at most `fuel`. -/
def RouteCfg.hops (c : RouteCfg) (dst : Nat) : Nat → Nat → Nat
  | 0, _ => 0
  | fuel + 1, node => match c.next node dst with
    | none => 0
    | some (_, n, _) => 1 + c.hops dst fuel n

/-- The dateline class of a flit on its hop out of `me`, on the route that starts at `node`: it starts each ring and each dimension
in class 0, and is in class 1 from the hop across that ring's or dimension's dateline on (R212). `ring` and `dims` are its classes so
far on the present ring and in X and Y; `fuel` bounds the hops. -/
def RouteCfg.dlc (c : RouteCfg) (me dst : Nat) : Nat → Nat → Nat → Nat × Nat → Nat
  | 0, _, _, _ => 0
  | fuel + 1, node, ring, dims => match c.next node dst with
    | none => 0
    | some (k, nxt, crosses) =>
      let d := max (if crosses then 1 else 0) (if k < 2 then ring else if k = 2 then dims.1 else dims.2)
      if node = me then d
      else c.dlc me dst fuel nxt (if k < 2 then d else 0) (if k = 2 then (d, dims.2) else if k = 3 then (dims.1, d) else dims)

/-- The nodes of a job: the desk ring, or nine slots in every tray. -/
def RouteCfg.nodes (c : RouteCfg) : List Nat :=
  if c.cls = 2 then
    ((List.range (c.tx * c.ty)).flatMap (fun t => (List.range 9).map (fun s => 16 * t + s))).filter (fun n => !c.down.contains n)
  else ((List.range (max 1 c.n)).map (· + c.base)).filter (fun n => !c.down.contains n)

/-- The job's hop diameter H (R232). -/
def RouteCfg.diameter (c : RouteCfg) : Nat :=
  (c.nodes.flatMap (fun a => c.nodes.map (fun b => c.hops b 16 a))).foldl max 0

/-! Ports and flits (R204 to R206). -/

/-- A port. -/
def World.port (w : World) (k : Nat) : Port := w.link.ports.getD k {}

/-- Changes a port. -/
def World.updPort (w : World) (k : Nat) (f : Port → Port) : World :=
  { w with link := { w.link with ports := modAt w.link.ports k f } }

/-- The index of a channel and dateline class among the credits. -/
def creditIx (vc dlc : Nat) : Nat := vc + 4 * dlc

/-- The queued flit that goes next: management, response, collective, request, with the exception of R205; only flits
that hold a credit count (R204). -/
def Port.pick (p : Port) : Option Flit :=
  let ready := fun (f : Flit) => decide (0 < p.credits.getD (creditIx f.vc f.dlc) 0)
  let first := fun vc => p.queue.find? (fun f => f.vc == vc && ready f)
  let order := if 7 ≤ p.passed then [0, 3, 1, 2] else [3, 1, 2, 0]
  order.foldl (fun b vc => match b with | some _ => b | none => first vc) none

/-- Sends one queued flit of a port where a credit and the replay limit allow (R205, R206). -/
def World.pumpOne (w : World) (k : Nat) : World :=
  let p := w.port k
  match (if p.st = 2 && decide (p.unacked.length < 512) then p.pick else none) with
  | none => w
  | some f =>
    let g := { f with seq := p.txSeq }
    let waits := p.queue.any (fun x => x.vc == 0)
    let w := w.updPort k (fun p => { p with
      queue := p.queue.erase f
      credits := modAt p.credits (creditIx f.vc f.dlc) (· - 1)
      unacked := p.unacked ++ [(g, 0)]
      txSeq := (p.txSeq + 1) % 4096
      sent := add64 p.sent 1
      passed := if f.vc = 0 then 0 else if waits then p.passed + 1 else 0 })
    w.send (.flit k g ((p.rxSeq + 4095) % 4096))

/-- Sends what a port can send. -/
def World.pump (w : World) (k : Nat) : World := (List.range (w.port k).queue.length).foldl (fun w _ => w.pumpOne k) w

/-- The payload of a control flit (Table 9.3). -/
def ctlBody (owed : List Nat) (nak : Option Nat) : Bytes :=
  (owed.map (leBytes 2)).flatten ++ leBytes 2 (match nak with | some s => s + 2 ^ 15 | none => 0) ++ zeros 46

/-- Sends a control flit: every pending credit, and a NAK where one is given. A control flit takes no sequence number
of its own and is not replayed (log entry 20). -/
def World.control (w : World) (k : Nat) (nak : Option Nat) : World :=
  let p := w.port k
  let w := w.send (.flit k { vc := 0, ctl := true, seq := p.txSeq, body := ctlBody p.owed nak } ((p.rxSeq + 4095) % 4096))
  w.updPort k (fun p => { p with owed := List.replicate 8 0, sent := add64 p.sent 1 })

/-- Takes an acknowledgement: every flit up to a sequence number leaves the replay buffer (R206). -/
def Port.acked (p : Port) (ack : Nat) : Port :=
  match p.unacked.findIdx? (fun e => e.1.seq == ack) with
  | some i => { p with unacked := p.unacked.drop (i + 1) }
  | none => p

/-- Resends every unacknowledged flit from a sequence number onwards (R206). -/
def World.resendFrom (w : World) (k seq : Nat) : World :=
  let p := w.port k
  match p.unacked.findIdx? (fun e => e.1.seq == seq) with
  | none => w
  | some i =>
    let again := p.unacked.drop i
    let w := w.updPort k (fun p => { p with
      unacked := p.unacked.take i ++ again.map (fun e => (e.1, e.2 + 1))
      resent := sat32 p.resent again.length })
    again.foldl (fun w e => w.send (.flit k e.1 ((p.rxSeq + 4095) % 4096))) w

/-! Messages (Table 9.5). -/

/-- Message types of Table 9.5. -/
def mRead : Nat := 0x01
def mReadData : Nat := 0x02
def mWrite : Nat := 0x03
def mWriteAck : Nat := 0x04
def mPost : Nat := 0x05
def mSetup : Nat := 0x10
def mVote : Nat := 0x11
def mSkip : Nat := 0x12
def mSem : Nat := 0x20
def mCensus : Nat := 0x21
def mCkpt : Nat := 0x22

/-- A message header (Table 9.5). -/
def msgHeader (typ dst src logical tag len addr epoch : Nat) : Bytes :=
  [byteOf typ, byteOf dst, byteOf src, byteOf logical] ++ leBytes 2 tag ++ leBytes 2 len ++ leBytes 6 addr ++ leBytes 2 epoch

/-- The flits of a message: 64 bytes of payload each, from SOM to EOM. -/
def flitsOf (vc dlc : Nat) (bytes : Bytes) : List Flit :=
  let n := max 1 (cdiv bytes.length 64)
  (List.range n).map (fun i => { vc := vc, dlc := dlc, som := decide (i = 0), eom := decide (i + 1 = n), body := slice bytes (64 * i) 64 })

/-- Queues the flits of a message of a source on the port of its route and sends what it can; with no route the message is
lost. The last flit of a level message bears the number of its collective. -/
def World.launchFrom (w : World) (src vc dst : Nat) (bytes : Bytes) (lvl : Option Nat) : World :=
  match w.routeCfg.next w.node dst with
  | none => w
  | some (k, _, _) =>
    let w := w.send (.message dst bytes)
    let fs := flitsOf vc (w.routeCfg.dlc w.node dst 32 src 0 (0, 0)) bytes
    (w.updPort k (fun p => { p with queue := p.queue ++ fs.map (fun f => if f.eom then { f with lvl := lvl } else f) })).pump k

/-- Sends a message of this engine. -/
def World.launch (w : World) (vc dst : Nat) (bytes : Bytes) : World := w.launchFrom w.node vc dst bytes none

/-- Sends a message of this engine, with its header. -/
def World.message (w : World) (typ vc dst tag addr : Nat) (data : Bytes) : World :=
  w.launch vc dst (msgHeader typ dst w.node w.link.logical tag data.length addr (w.link.epoch % 2 ^ 16) ++ data)

/-- As `message`, to a logical engine. -/
def World.messageTo (w : World) (typ vc logical tag addr : Nat) (data : Bytes) : World :=
  match w.nodeOf logical with
  | some n => w.message typ vc n tag addr data
  | none => w

/-! Sideband floods (R208). -/

/-- CRC-8 with polynomial 0x07 over one byte, most significant bit first. -/
def crc8Byte (c b : Nat) : Nat :=
  (List.range 8).foldl (fun c _ => if 128 ≤ c then Nat.xor (c * 2 % 256) 0x07 else c * 2) (Nat.xor c b)

/-- CRC-8 of bits [47:0] of a block, bytes in ascending order (log entry 21). -/
def crc8 (v : Nat) : Nat := (List.range 6).foldl (fun c i => crc8Byte c (v / 256 ^ i % 256)) 0

/-- A sideband block (Table 9.5a). -/
def sbBlock (kind origin seq epoch content : Nat) : Nat :=
  let v := kind + 2 ^ 4 * origin + 2 ^ 12 * (seq % 256) + 2 ^ 20 * (epoch % 256) + 2 ^ 28 * (content % 2 ^ 20)
  v + 2 ^ 48 * crc8 v

/-- The ports that are up. -/
def World.upPorts (w : World) : List Nat := (List.range 4).filter (fun k => decide ((w.port k).st = 2))

/-- Sends a block out of every up port except one. -/
def World.forwardBlock (w : World) (except_ : Option Nat) (blk : Nat) : World :=
  (w.upPorts.filter (fun k => some k != except_)).foldl (fun w k => w.send (.sideband k blk)) w

/-- The origins and sequence numbers acted on, with one more. Those of the same origin that its sequence numbers have left more than
64 behind are forgotten, before the 8-bit numbers come round (R208; DESIGN CHOICE, log entry 21). -/
def sawBlock (seen : List (Nat × Nat)) (origin seq : Nat) : List (Nat × Nat) :=
  (origin, seq) :: seen.filter (fun x => decide (x.1 ≠ origin) || decide ((seq + 256 - x.2) % 256 ≤ 64) || decide (192 ≤ (seq + 256 - x.2) % 256))

/-- Originates a flood: the block three times out of every up port (R208). -/
def World.flood (w : World) (kind content : Nat) : World :=
  let blk := sbBlock kind w.node w.job.sbSeq w.link.epoch content
  let w := { w with job := { w.job with
    seen := sawBlock w.job.seen w.node (w.job.sbSeq % 256)
    sbSeq := (w.job.sbSeq + 1) % 256 } }
  (List.range 3).foldl (fun w _ => w.forwardBlock none blk) w

/-- A received block of a kind: `none` where its CRC is bad or its kind is another; otherwise the block's fields and
whether it is the first copy of its origin and sequence (R208). -/
structure SbRx where
  origin : Nat
  seq : Nat
  epoch : Nat
  content : Nat
  fresh : Bool
  deriving DecidableEq, Repr

/-- Reads a received sideband block (Table 9.5a). -/
def World.readBlock (w : World) (kind blk : Nat) : Option SbRx :=
  if fld blk 48 8 == crc8 (blk % 2 ^ 48) && fld blk 0 4 == kind then
    let o := fld blk 4 8
    let s := fld blk 12 8
    some { origin := o, seq := s, epoch := fld blk 20 8, content := fld blk 28 20,
           fresh := !w.job.seen.contains (o, s) && decide (o ≠ w.node) }
  else none

/-- Records a flooded block and forwards it out of every up port but the one it came in on (R208). -/
def World.passOn (w : World) (k blk : Nat) (r : SbRx) : World :=
  let w := { w with job := { w.job with seen := sawBlock w.job.seen r.origin r.seq } }
  w.forwardBlock (some k) blk

/-- The content of a FAULT block: suspect node in [7:0], cause in [15:8], and for the fault of a port, 4 and its number in [19:16]
(log entry 21). -/
def faultContent (cause suspect : Nat) (port : Option Nat) : Nat :=
  suspect % 256 + 256 * (cause % 256) + 2 ^ 16 * port.elim 0 (fun k => 4 + k % 4)

/-! Job faults (R223). -/

/-- The partials a job carried are dropped and counted when it stops or restarts (R231). -/
def World.dropCarried (w : World) : World :=
  { w with
    link := { w.link with spoil := add64 w.link.spoil (w.job.carried.map (·.owners)).sum }
    job := { w.job with carried := [] } }

/-- Every job task must stop at its next pre-emption point with a status (R223). -/
def World.stopJobTasks (w : World) (status : Nat) : World :=
  { w with sched := { w.sched with tasks := w.sched.tasks.map (fun t => if t.job then { t with stop := some status } else t) } }

/-- A port as it starts an attempt to train: its link state is as new (R202). -/
def Port.attemptOf (p : Port) (attempt : Nat) : Port :=
  { p with st := 1, stage := 1, attempt := attempt, nbr := none, tries := sat32 p.tries 1, txSeq := 0, rxSeq := 0,
           credits := [64, 96, 128, 16, 64, 96, 128, 16], owed := List.replicate 8 0, nak := none, unacked := [], queue := [],
           passed := 0, faulted := false, held := [0, 0, 0, 0] }

/-- A port whose flits no longer hold transaction credits: the pool has been filled anew (R223). -/
def Port.released (p : Port) : Port :=
  { p with queue := p.queue.map (fun (f : Flit) => { f with lvl := none }), unacked := p.unacked.map (fun (e : Flit × Nat) => ({ e.1 with lvl := none }, e.2)) }

/-- The lowest logical ID from `l` on whose engine is not among some nodes; 0 where there is none. -/
def World.leadFrom (w : World) (l : Nat) (gone : List Nat) : Nat :=
  ((List.range w.link.jobSize).find? (fun i => decide (l ≤ i) && (w.nodeOf i).any (fun n => !gone.contains n))).getD 0

/-- The coordinator of a restart sends the census to every node of the job (R224). -/
def World.sendCensus (w : World) : World :=
  let w := { w with job := { w.job with restart := w.job.restart.map (fun (r : Restart) => { r with heard := true }) } }
  (w.routeCfg.nodes.filter (fun n => decide (n ≠ w.node))).foldl (fun w n => w.message mCensus 3 n 0 0 [0#8]) w

/-- The acts of R223 on the first FAULT of this engine's epoch: tasks of the job stop; the ports that are at fault here, have failed,
or face a port at fault train again (R202); and the lowest logical ID that is not known to be lost sends the census (R224, log
entry 48). A port fault during a restart names a node whose port did not train (log entry 26). -/
def World.beginRestart (w : World) (cause suspect : Nat) (facing : List Nat) : World :=
  let lost := if w.link.jobState = 3 ∧ cause = 5 then (w.job.restart.elim [] (·.lost)) ++ [suspect] else []
  let w := w.dropCarried.stopJobTasks 0x0510
  let lead := w.leadFrom 0 (lost ++ if cause = 7 then [suspect] else [])
  let w := { w with
    link := { w.link with
      epoch := (w.link.epoch + 1) % 2 ^ 32
      credits := 1024
      jobState := 3
      coord := lead
      ports := w.link.ports.zipIdx.map (fun ((p : Port), k) => if p.faulted || p.st == 3 || facing.contains k then p.attemptOf 1 else p.released) }
    mem := { w.mem with rwrites := [], given := [] }
    job := { w.job with
      reads := []
      toSend := []
      colls := []
      early := []
      votes := []
      collSeq := 0
      nonce := 0
      pending := none
      ckNext := none
      times := w.now :: w.job.times.filter (fun t => decide (w.now < t + 3600000000000))
      restart := some { lost := lost, remapped := w.job.restart.elim 0 (·.remapped) } } }
  if w.link.logical = lead then w.sendCensus else w

/-- The mismatch stop of R219: job tasks end with 0x0511 and no restart follows. -/
def World.mismatchStop (w : World) : World := w.stopJobTasks 0x0511

/-- A job fault found here: counted and logged by R398, flooded, and acted on (R223). On a one-engine job only the
count is made (R399). -/
def World.jobFault (w : World) (cause suspect kind inst : Nat) : World :=
  let w := w.countFault cause suspect kind inst
  if w.multi && (w.link.jobState == 2 || w.link.jobState == 3 || w.link.jobState == 4) then
    let w := w.flood 3 (faultContent cause suspect (if kind = srcPort then some inst else none))
    if cause = 9 then w.mismatchStop else w.beginRestart cause suspect []
  else w

/-- A fault of a task: a job task restarts the job, any other task only stops (R398, R399). -/
def World.taskFault (w : World) (t : Task) (cause kind inst : Nat) : World :=
  if t.job && w.multi then w.jobFault cause w.node kind inst else w.countFault cause w.node kind inst

/-! The fixed tree (R216). -/

/-- The bits below the lowest set bit of a logical ID, or all for ID 0: the engine's children in the tree of `n`. -/
def childrenOf (n i : Nat) : List Nat :=
  (List.range 8).filterMap (fun k =>
    if i % 2 ^ (k + 1) = 0 && decide (i + 2 ^ k < n) then some (i + 2 ^ k) else none)

/-- The engine that an engine sends its partial to. -/
def parentOf (i : Nat) : Nat := i - Nat.land i (2 ^ 8 - i % 2 ^ 8)

/-- The order of the down pass: the same edges in reverse order, so the children from the highest level down (R216). -/
def downChildren (n i : Nat) : List Nat := (childrenOf n i).reverse

/-- The children of an engine in the tree relabelled for a root, in the order of the down pass (R216, R218). -/
def relabelled (n root i : Nat) : List Nat :=
  (downChildren n ((i + n - root) % n)).map (fun j => (j + root) % n)

/-- The parent of an engine in the tree relabelled for a root (R218). -/
def relabelledParent (n root i : Nat) : Nat := (parentOf ((i + n - root) % n) + root) % n

/-- Takes transaction credits from the pool (R215). -/
def World.takeCredit (w : World) (n : Nat) : World := { w with link := { w.link with credits := w.link.credits - n } }

/-- Returns transaction credits to the pool (R215). -/
def World.giveCredit (w : World) (n : Nat) : World := { w with link := { w.link with credits := min 1024 (w.link.credits + n) } }

/-! Semaphore messages (R140). -/

/-- The bytes of a semaphore message: operation, semaphore, queue, ring slot, core, rank (log entry 23). Operations: 0 wait,
1 post, 2 granted, 3 posted, 4 refused with SEM_INVALID, 5 resume the owner, 6 the owner is being resumed, 7 the wait is withdrawn, 8 the owner
has ended, 9 the owner can no longer post. -/
def semBytes (op sem q slot core rank : Nat) : Bytes :=
  [byteOf op, byteOf sem, byteOf q] ++ leBytes 2 slot ++ [byteOf core, byteOf rank]

/-- Sends a semaphore message to a logical engine over the management channel (R140). -/
def World.semMsg (w : World) (l op sem q slot core rank : Nat) : World :=
  w.messageTo mSem 3 l 0 0 (semBytes op sem q slot core rank)

end Sys2Proof.Machine
end

