-- ==== Sys2Proof/Machine/Tasks.lean ====
section
/-! DEFINITION. Tasks, stages, completions, ranks, cores and the end of a task (R103, R121, R127, R137 to R144, R199,
R325 to R328). -/

namespace Sys2Proof.Machine

/-! Tasks, stages and completions. -/

/-- The task with an ID. -/
def World.task? (w : World) (id : TaskId) : Option Task := w.sched.tasks.find? (fun t => t.id == id)

/-- Changes one task. -/
def World.updTask (w : World) (id : TaskId) (f : Task → Task) : World :=
  { w with sched := { w.sched with tasks := w.sched.tasks.map (fun t => if t.id == id then f t else t) } }

/-- Changes one stage of a task. -/
def World.updStage (w : World) (id : TaskId) (g : Nat) (f : Stage → Stage) : World :=
  w.updTask id (fun t => { t with stgs := modAt t.stgs g f })

/-- The cores of a stage: the stage's share of the task's cores, in order (R130). -/
def Task.stageCores (t : Task) (g : Nat) : List Nat := (t.cores.drop (g * t.cps)).take t.cps

/-- The step in progress of a task. -/
def World.step? (w : World) (id : TaskId) : Option Step := w.train.steps.find? (fun s => s.task == id)

/-- Changes one step in progress. -/
def World.updStep (w : World) (id : TaskId) (f : Step → Step) : World :=
  { w with train := { w.train with steps := w.train.steps.map (fun s => if s.task == id then f s else s) } }

/-- A queue. -/
def World.queue (w : World) (n : Nat) : Queue := w.host.queues.get {} n

/-- Changes a queue. -/
def World.updQueue (w : World) (n : Nat) (f : Queue → Queue) : World :=
  { w with host := { w.host with queues := w.host.queues.upd {} n f } }

/-- The 16 bytes of a completion (Table 13.5). -/
def completionBytes (q : Queue) (t : Task) (status ns : Nat) : Bytes :=
  let phase := 1 - q.c / q.e % 2
  leBytes 4 t.id.seq ++ leBytes 2 status ++ leBytes 2 (t.slot + 2 ^ 15 * phase) ++ leBytes 8 ns

/-- Writes a completion into its slot and raises the queue's vector where R326 says. -/
def World.complete (w : World) (t : Task) (status : Nat) : World :=
  let n := t.id.queue
  let q := w.queue n
  let w := w.send (.hostWrite (q.compBase + 16 * (q.c % q.e)) (completionBytes q t status w.now))
  let w := w.updQueue n (fun q => { q with
    c := (q.c + 1) % 2 ^ 32
    unsig := q.unsig + 1
    unsigAt := if q.unsig = 0 then w.now else q.unsigAt })
  if decide (q.coalN ≤ q.unsig + 1) || decide (q.coalUs = 0) then
    (w.vector n).updQueue n (fun q => { q with unsig := 0 })
  else w

/-! Ranks and cores. -/

/-- A task's own rank: class, then priority (R127). -/
def Task.ownRank (t : Task) : Nat := (if t.ctx.isSome then 16 else 0) + t.prio

/-- A task's rank: the waiter's while holder resume lends it (R141). -/
def Task.rank (t : Task) : Nat :=
  match t.lent with
  | some (c, p) => 16 * c + p
  | none => t.ownRank

/-- Whether a task's share runs on a core. -/
def Task.on (t : Task) (c : Nat) : Bool := t.cores.contains c && !t.out.contains c && !t.draining.contains c && !t.saving.contains c && !t.coming.contains c

/-- Whether a task keeps a core from others: it runs there, drains there, or has been given it. -/
def Task.holds (t : Task) (c : Nat) : Bool :=
  t.cores.contains c && (!t.out.contains c || t.coming.contains c)

/-- Whether all the cores of a stage run it. -/
def Task.stageOn (t : Task) (g : Nat) : Bool := (t.stageCores g).all t.on

/-- Whether a stage waits on a semaphore. -/
def Phase.waits : Phase → Bool
  | .waiting _ _ _ _ => true
  | .asking _ => true
  | _ => false

/-- Whether a stage has ended. -/
def Phase.past : Phase → Bool
  | .ended => true
  | _ => false

/-- The state of a placed task that its cores and stages give (Table 6.2, R137, R141). -/
def Task.settle (t : Task) : Task :=
  if t.cores.isEmpty || t.st == .posted || t.st == .admitting || t.st == .ready then t
  else if t.cores.any t.on then
    { t with st := if t.stgs.all (fun s => s.phase.waits || s.phase.past) && t.stgs.any (fun s => s.phase.waits) then .waiting else .running }
  else if t.draining.isEmpty && t.saving.isEmpty && t.coming.isEmpty then { t with st := if t.parking then .parked else .suspended }
  else { t with st := .switching }

/-- Settles one task. -/
def World.settle (w : World) (id : TaskId) : World := w.updTask id Task.settle

/-- The tasks that hold a core. -/
def World.holdersOf (w : World) (c : Nat) : List Task := w.sched.tasks.filter (fun t => t.holds c)

/-- Whether a task occupies a core now: it runs there, drains there or is being saved. -/
def Task.busy (t : Task) (c : Nat) : Bool := t.on c || t.draining.contains c || t.saving.contains c

/-- The order among tasks that wait for cores: rank, then the earlier doorbell, then the lower queue (R127). -/
def Task.before (t u : Task) : Bool :=
  decide (u.rank < t.rank) || (t.rank == u.rank && (decide (t.doorbell < u.doorbell) ||
    (t.doorbell == u.doorbell && (decide (t.id.queue < u.id.queue) || (t.id.queue == u.id.queue && decide (t.id.seq < u.id.seq))))))

/-- Whether a core that a task has been given is its to take: nothing occupies it, and no task that comes first in the order
has been given it too (R143). -/
def World.canEnter (w : World) (t : Task) (c : Nat) : Bool :=
  w.sched.tasks.all (fun u => u.id == t.id || (!u.busy c && !(u.coming.contains c && u.before t)))

/-- Whether a share needs no record restored: it is not switched out, nor being switched out (R134). -/
def Task.needsNone (t : Task) (c : Nat) : Bool := !t.out.contains c && !t.draining.contains c && !t.saving.contains c

/-- Puts on their cores, whose L1 caches it empties, the tasks that were given them and need no record restored, where no other task
holds them any more (R134, R143, R158). -/
def World.switchIn (w : World) : World :=
  w.sched.tasks.foldl (fun w t =>
    let cs := t.coming.filter (fun c => t.needsNone c && w.canEnter t c)
    if cs.isEmpty then w
    else ({ w with mem := { w.mem with l1 := w.mem.l1.mapAll [] (fun c ls => if cs.contains c then [] else ls) } } : World).updTask t.id (fun t => ({ t with
      coming := t.coming.filter (fun c => !cs.contains c)
      fresh := t.fresh ++ cs } : Task).settle)) w

/-- The owned semaphores of one table, cleared, with the numbers of those that were (R139). -/
def orphans (logical : Nat) (id : TaskId) (sems : Tab Sem) : List Nat :=
  (sems.filter (fun e => match e.2.owner with
    | some o => o.task == id && (o.engine == 0xFF || o.engine == logical)
    | none => false)).map (·.1)

/-- Clears the owner of a semaphore and logs it as orphaned (R139). -/
def World.orphan (glob : Bool) (queue : Nat) (w : World) (n : Nat) : World :=
  let w := { w with sched := { w.sched with
    sems := if glob then w.sched.sems else w.sched.sems.upd {} n (fun s => { s with owner := none })
    gsems := if glob then w.sched.gsems.upd {} n (fun s => { s with owner := none }) else w.sched.gsems
    orphans := sat32 w.sched.orphans 1 } }
  w.event 0x0013 srcMgmt 0 (n + if glob then 256 else 0) queue

/-- The result of an operation that ends without running. -/
def OpRes.plain (status tag : Nat) : OpRes := { status := status, tag := tag }

/-- Whether a chain serves a waiter of another engine, on a global semaphore (R141). -/
def Chain.isFar (c : Chain) : Bool := decide (256 ≤ c.waiter.queue)

/-- The name under which a waiter of another engine stands in a chain. -/
def farWaiter (n : Nat) : TaskId := ⟨256 + n, 0⟩

/-- Whether a task is a holder of a chain. -/
def Chain.has (c : Chain) (id : TaskId) : Bool := c.holders.any (fun h => h.task == id)

/-- The highest rank that the chains lend a task, if any does. -/
def Sched.lends (s : Sched) (id : TaskId) : Option Nat :=
  ((s.chains.filter (fun c => c.has id)).map (·.rank)).foldl (fun b r => some (max r (b.getD 0))) none

/-- A task runs at the rank of the highest waiter whose chain it stands in, and at its own where it stands in none (R141, R142). -/
def World.relend (w : World) (id : TaskId) : World :=
  w.updTask id (fun t => { t with lent := (w.sched.lends id).map (fun r => (r / 16, r % 16)) })

/-- Takes a chain out; its holders return to their own ranks, or to those that other chains lend them. -/
def World.forgetChain (w : World) (c : Chain) : World :=
  let w := { w with sched := { w.sched with chains := w.sched.chains.filter (fun d => !(d.waiter == c.waiter && d.stage == c.stage)) } }
  c.holders.foldl (fun w h => w.relend h.task) w

/-- The holder for the waiters of other engines on a global semaphore can no longer post: at the home they are told and
leave it, and elsewhere the home is told (R144). -/
def World.farHeld (w : World) (n : Nat) : World :=
  if w.sched.semHome = w.link.logical then
    let far := (w.sched.gsems.get {} n).far
    let w := { w with sched := { w.sched with gsems := w.sched.gsems.upd {} n (fun s => { s with far := [] }) } }
    far.foldl (fun w f => w.semMsg f.engine 9 n f.queue f.slot f.core f.rank) w
  else w.semMsg w.sched.semHome 9 n 0 0 0 0

/-- Ends at once, with SEM_HELD_SUSPENDED, the waits whose holder can no longer post (R141, R142, R144); a waiter of another
engine is told through the home of the semaphore. -/
def World.dropChains (w : World) (p : Chain → Bool) : World :=
  (w.sched.chains.filter p).foldl (fun w c =>
    let w := w.forgetChain c
    if c.isFar then w.farHeld c.sem
    else
      let w := w.updStage c.waiter c.stage (fun s => { s with phase := .executed (OpRes.plain 0x0102 (leAt s.desc 60 2)) })
      { w with sched := { w.sched with expiries := sat32 w.sched.expiries 1 } }) w

/-- Restores the scale slots that a step touched, as they stood when it first touched them (R184). -/
def World.restoreSlots (w : World) (s : Step) : World :=
  { w with num := { w.num with slots := s.slots.foldl (fun t e => t.set {} e.1 e.2) w.num.slots } }

/-- The cost histories without what the admission of a step of a program changed (R21, R201). Where they still stand as that
admission left them, they are as before it; otherwise a history that the admission began is taken out, and one that it evicted
comes back as the least recent (DESIGN CHOICE, log entry 84). -/
def Step.histUndo (s : Step) (prog : Nat) (h : List (Nat × List Nat)) : List (Nat × List Nat) :=
  if h = s.histNow then s.histWas
  else
    let h := if s.histWas.any (fun e => e.1 == prog) then h else h.filter (fun e => decide (e.1 ≠ prog) || !e.2.isEmpty)
    (h ++ s.histWas.filter (fun e => h.all (fun x => decide (x.1 ≠ e.1)))).take 16

/-- Takes back what a step that ends without committing has changed: its slots, and the histories of its admission (R21, R199). -/
def World.undoStep (w : World) (s : Step) : World :=
  let w := w.restoreSlots s
  match w.task? s.task with
  | none => w
  | some t => { w with train := { w.train with hist := s.histUndo t.prog w.train.hist } }

/-- Ends the step of a task: an uncommitted one gives back what it changed, and one abandoned for power is counted (R199, R200). -/
def World.endStep (w : World) (id : TaskId) (status : Nat) : World :=
  match w.step? id with
  | none => w
  | some s =>
    let w := if s.committed then w else w.undoStep s
    { w with train := { w.train with
        steps := w.train.steps.filter (fun x => !(x.task == id))
        abandoned := if !s.committed && status == 0x0601 then sat32 w.train.abandoned 1 else w.train.abandoned } }

/-- Ends the reset of a queue once no task of it is left (R328). -/
def World.settleReset (w : World) (n : Nat) : World :=
  let q := w.queue n
  if q.resetting && !(w.sched.tasks.any (fun t => t.id.queue == n)) then
    let w := w.updQueue n (fun q => { q with resetting := false, resetReq := [], enabled := false, st := 0, cancel := none })
    q.resetReq.foldl (fun w p => w.writeDone p 0) w
  else w

/-- Takes a task out of the engine: its semaphores are orphaned, its step ended, its cores freed (R139, R199). -/
def World.removeTask (w : World) (t : Task) (status : Nat) : World :=
  let w := (orphans w.link.logical t.id w.sched.sems).foldl (World.orphan false t.id.queue) w
  let w := (orphans w.link.logical t.id w.sched.gsems).foldl (World.orphan true t.id.queue) w
  let w := if w.multi then t.owns.foldl (fun w n => w.semMsg w.sched.semHome 8 n t.id.queue t.slot 0 0) w else w
  let w := w.dropChains (fun c => c.has t.id)
  let w := (w.sched.chains.filter (fun c => c.waiter == t.id)).foldl World.forgetChain w
  let w := w.endStep t.id status
  { w with
    sched := { w.sched with tasks := w.sched.tasks.filter (fun x => !(x.id == t.id)), ctx := w.sched.ctx.filter (fun x => !(x.task == t.id)) }
    job := { w.job with
      colls := w.job.colls.filter (fun c => !(c.task == t.id))
      votes := w.job.votes.filter (fun v => !(v.task == t.id && decide (v.kind < 5))) } }

/-- A task reaches DONE: it leaves the engine and its completion is written (R325, Table 6.3). -/
def World.finish (w : World) (t : Task) (status : Nat) : World :=
  let w := w.removeTask t status
  let w := if t.silent then w else w.complete t status
  (w.settleReset t.id.queue).switchIn

/-- Whether a task has remote writes that no acknowledgement has answered (R159). -/
def World.unacked (w : World) (id : TaskId) : Bool := w.mem.rwrites.any (fun r => r.task == (id.queue, id.seq))

/-- A task ends: its completion performs a release, so it waits for the acknowledgements of the task's remote writes (R159), but
not after a job fault, which discards them (R223). -/
def World.finishAfter (w : World) (t : Task) (status : Nat) : World :=
  if w.unacked t.id && decide (status / 256 ≠ 5) then
    w.updTask t.id (fun t => { t with stop := some (t.stop.getD status), closing := some (t.closing.getD status) })
  else w.finish t status

/-- Stops a queue with an error (R323). -/
def World.stopQueue (w : World) (n status : Nat) : World :=
  let w := w.updQueue n (fun q => { q with st := 2, err := status })
  let w := w.event 0x0014 srcQueue n n status
  w.vector 66

/-- A step value for a committed tenant's next noise (R189). -/
def World.noiseStep (w : World) : Nat := w.train.stepCtr + 1

end Sys2Proof.Machine
end

