-- ==== Sys2Proof/Machine/Flags.lean ====
section
/-! DEFINITION. Reports, statuses and counters of operations (R73, R74, R97, R121, R122; Tables 3.10, 3.11, 5.12). -/

namespace Sys2Proof.Machine

/-- The flags byte of a report (Table 5.12): sticky flush flag, widened, pre-empted, slot observed. -/
def OpRes.flags (r : OpRes) : Nat :=
  (if r.sticky then 1 else 0) + (if r.widened then 2 else 0) + (if r.preempted then 4 else 0) + (if r.observed then 8 else 0)

/-- The 32 bytes of an operation report (Table 5.12). -/
def OpRes.bytes (r : OpRes) : Bytes :=
  leBytes 2 r.status ++ leBytes 2 r.tag ++ leBytes 4 r.sat ++ leBytes 4 r.flush ++ leBytes 4 r.ovf ++ leBytes 4 r.replays ++
    leBytes 4 r.promos ++ [byteOf r.flags, byteOf (r.code % 16)] ++ zeros 2 ++ leBytes 4 (satTo 32 r.ns)

/-- The totals that an operation's completion adds to (R73, Table 5.14). A refused operation counts as refused only. -/
def World.addTotals (w : World) (r : OpRes) : World :=
  let s := w.sched
  let n := w.num
  let up := fun (c : Bool) (v : Nat) => if c then sat32 v 1 else v
  { w with
    sched := if r.refused then { s with opsRefused := sat32 s.opsRefused 1, refStatus := r.status, refTag := r.tag }
      else { s with opsDone := add64 s.opsDone 1 }
    num := { n with
      opsFlush := up r.sticky n.opsFlush
      opsSat := up (decide (r.sat ≠ 0)) n.opsSat
      replays := sat32 n.replays r.replays
      promos := sat32 n.promos r.promos
      numStat := up (decide (r.status / 256 = 3)) n.numStat } }

/-- Writes an operation's report, or counts it where there is no slot for it (R121). -/
def World.writeReport (w : World) (t : Task) (g index : Nat) (rpt : Bool) (r : OpRes) : World :=
  if !rpt && r.status == 0 then w
  else
    let part := t.repLen / max 1 t.stages
    if index < part then w.store (t.repAddr % 2 ^ 40 + 32 * (g * part + index)) r.bytes
    else { w with sched := { w.sched with noReport := sat32 w.sched.noReport 1 } }

/-- Whether a status lets the task go on: class 0x00 or 0x03 (R103, R122). -/
def goesOn (status : Nat) : Bool := status / 256 == 0 || status / 256 == 3

end Sys2Proof.Machine
end

