-- ==== Sys2Proof/Machine/OutStage.lean ====
section
/-! DEFINITION. The fused output stage, rotation, side lists, the error statistic and widen-and-replay
(R71, R72, R77, R79, R84 to R94, R98, R99; 03_dot_products_and_accumulators.md, 04_scales_and_outliers.md). -/

namespace Sys2Proof.Machine

/-- The output-stage settings (Table 3.9), resolved. -/
structure OstCfg where
  bias : Option (List XV) := none
  /-- The per-column scales, or one repeated; `none` with SCL 0. -/
  scale : Option (List XV) := none
  act : Nat := 0
  lo : XV := .zero false
  hi : XV := .zero false
  /-- Log₂ of 1/c_n of R94. -/
  rotc : Nat := 0
  deriving DecidableEq, Repr

/-- Steps 1 to 3 of R72 for one element of column `j`. -/
def ostEl (o : OstCfg) (j : Nat) (a : AccVal) : XV :=
  let v := a.v.scale o.rotc
  let t1 := match o.bias with
    | none => v
    | some bs =>
      let s := v.add (bs.getD j (.zero false))
      if a.int then s else s.roundSig 24
  let t2 := match o.scale with
    | none => t1
    | some ss => t1.mul (ss.getD j (.zero false))
  if o.act = 1 then XV.max t2 (.zero false)
  else if o.act = 2 then XV.min (XV.max t2 o.lo) o.hi
  else t2

/-- Log₂ of 1/c_n for a ROTC setting (R94): 1/2 for 32 and 128, 1 for 64. -/
def rotcLog (rotc : Nat) : Nat := if rotc = 1 ∨ rotc = 3 then 1 else 0

/-- The parity of the common bits of two indices. -/
def oddAnd (i j : Nat) : Bool := popCount 7 (Nat.land i j) % 2 == 1

/-- Rotates one block (R93). -/
def rotBlock (k : Nat) (xs : List XV) : List XV :=
  (List.range xs.length).map (fun j =>
    (XV.sum (xs.zipIdx.map (fun (x, i) => if oddAnd i j then x.negate else x))).scale (-(k : Int)))

/-- Rotates each block of a row (R93). -/
def rotRow (rot : Nat) (xs : List XV) : List XV :=
  if rot = 0 then xs
  else (chunks (16 * 2 ^ rot) xs).flatMap (rotBlock (if rot = 3 then 4 else 3))

/-- An observation of R79: the exponent of the largest finite non-zero magnitude, and whether an infinity or NaN
was met. -/
structure Obsv where
  exp : Option Int
  nonfin : Bool
  deriving DecidableEq, Repr

def observe (xs : List XV) : Obsv :=
  ⟨((xs.filter (fun x => x.isFin)).foldl (fun m x => XV.max m x.abs) (.zero false)).lead,
    xs.any (fun x => !x.isFin)⟩

/-! ## Outlier side lists (R89 to R92) -/

/-- Output codes a side list may accompany (R91). -/
def outlCode (c : Code) : Bool := decide (c < 10)

/-- The dynamic choice of R91: qualifying channels, at most 64, by largest A_c and then lower index, ascending. -/
def dynChannels (t : Nat) (k : Nat) (rows : List (List XV)) : List Nat :=
  let cols := (List.range k).map (fun c => rows.map (fun r => r.getD c (.zero false)))
  let finite (l : List XV) : Bool := l.all (·.isFin)
  let amp (l : List XV) : XV := l.foldl (fun m x => XV.max m x.abs) (.zero false)
  let as := (cols.zipIdx.filter (fun (l, _) => finite l)).map (fun (l, i) => (amp l, i))
  let sq := XV.sum (as.map (fun (a, _) => a.mul a))
  let q := as.filter (fun (a, _) => !a.isZero &&
    XV.le (sq.scale (2 * (t : Int))) ((a.mul a).mul (XV.ofInt as.length)))
  let better (x y : XV × Nat) : Bool := XV.lt y.1 x.1 || (XV.eqv x.1 y.1 && decide (x.2 < y.2))
  (q.filter (fun x => decide ((q.filter (fun y => better y x)).length < 64))).map (·.2)

/-- The bytes of a side list (Table 4.5). -/
def sideBytes (rows : Nat) (idx : List Nat) (vals : List Nat) : Bytes :=
  leBytes 2 idx.length ++ zeros 2 ++ leBytes 4 rows
    ++ (idx ++ List.replicate (64 - idx.length) 0xFFFF).flatMap (leBytes 2) ++ vals.flatMap (leBytes 2)

/-- The length of a side list in bytes. -/
def sideLen (rows n : Nat) : Nat := 136 + 2 * rows * n

/-- A side list as read: its channels and its rows of F16 codes. -/
structure Side where
  idx : List Nat
  vals : List (List Nat)
  deriving DecidableEq, Repr

/-- Parses and checks a side list for an operand of `rows` rows of `k` elements (R92). `body` is whether the values
are wanted too. -/
def parseSide (rows k : Nat) (bs : Bytes) : Option Side :=
  let n := leAt bs 0 2
  let ix := (List.range 64).map (fun i => leAt bs (8 + 2 * i) 2)
  let used := ix.take n
  let asc := (used.zip (used.drop 1)).all (fun (a, b) => decide (a < b))
  if n ≤ 64 ∧ leAt bs 2 2 = 0 ∧ leAt bs 4 4 = rows ∧ asc ∧ used.all (fun i => decide (i < k)) ∧
      (ix.drop n).all (· == 0xFFFF) then
    some ⟨used, (List.range rows).map (fun r =>
      (List.range n).map (fun i => leAt bs (136 + 2 * (r * n + i)) 2))⟩
  else none

/-- Substitutes the side values for the elements of the listed channels (R43, R90). -/
def substSide (ftz : Bool) (sd : Side) (t : List (List El)) : List (List El) :=
  t.zipIdx.map (fun (row, r) =>
    row.zipIdx.map (fun (e, c) =>
      match sd.idx.findIdx? (· == c) with
      | some i => readEl { code := cF16 } ftz 0 ((sd.vals.getD r []).getD i 0)
      | none => e))

/-! ## Writing an output (R77, R84 to R88) -/

/-- The settings under which an output is written. -/
structure OutCfg where
  fmt : ElFmt
  k : Nat
  satMode : Bool := true
  ftz : Bool := false
  rot : Nat := 0
  /-- Whether the output's maximum is observed (OBS 0 on an F16S output). -/
  obs : Bool := false
  /-- 0 none, 1 static, 2 dynamic. -/
  outl : Nat := 0
  statIdx : List Nat := []
  outT : Nat := 3
  /-- Widening steps after the cap. -/
  wdn : Nat := 0
  k4 : Nat := 5
  k8 : Nat := 9
  k16 : Nat := 18
  deriving DecidableEq, Repr

/-- The widening ladder of Table 4.3. -/
def widen (f : ElFmt) : Option ElFmt :=
  match f.code with
  | 0x0 => some { f with code := cI8 }
  | 0x1 => some { f with code := cU8 }
  | 0x7 => some { f with code := cXI8 }
  | 0x4 => some { f with code := cE4M3 }
  | 0x2 | 0x3 => some { f with code := cI16 }
  | 0x8 | 0x9 => some { f with code := cBF16 }
  | 0x5 | 0x6 => some { f with code := cF16 }
  | 0xB | 0xF | 0xC => some { code := cF32 }
  | 0xA => some { f with code := cI32 }
  | _ => none

/-- The threshold exponent of a written code's width class (R85); `none` for the 32-bit codes, which have none. -/
def widthK (o : OutCfg) (c : Code) : Option Nat :=
  match elBits c with
  | 4 => some o.k4
  | 8 => some o.k8
  | 16 => some o.k16
  | _ => none

/-- One attempt's output: its format, main bytes, side list and events, and whether its statistic was exceeded. -/
structure OutAttempt where
  fmt : ElFmt
  main : Bytes
  side : Option Bytes
  cnt : Cnt
  exceeded : Bool
  deriving DecidableEq, Repr

/-- Whether an element marks the statistic: a finite value stored as one that is not finite (R84). -/
def statMarked (xs qs : List (List XV)) : Bool :=
  (xs.zip qs).any (fun (a, b) => (a.zip b).any (fun (x, q) => x.isFin && !q.isFin))

/-- The error statistic over the rows presented and stored: E > X × 2^(−k) (R84, R85). -/
def statOver (k : Nat) (xs qs : List (List XV)) : Bool :=
  let prs := (xs.zip qs).map (fun (a, b) => a.zip b)
  let xr := prs.map (fun r => isumsq (r.map (fun (x, _) => el32 (if x.isFin then x else .zero false))))
  let er := prs.map (fun r => isumsq (r.map (fun (x, q) =>
    el32 (if x.isFin && q.isFin then x.sub q else .zero false))))
  let sx := isum (xr.map el32)
  let se := isum (er.map el32)
  !sx.isZero && !sx.isInf && XV.lt (sx.scale (-(k : Int))) se

/-- Whether the statistic of an attempt in a code exceeds its threshold: by a mark, or past the threshold of the code's width
class; a 32-bit code has no threshold, so that only a mark does (R85). -/
def OutCfg.exceeds (o : OutCfg) (c : Code) (xs qs : List (List XV)) : Bool :=
  statMarked xs qs || (match widthK o c with | some k => statOver k xs qs | none => false)

/-- Writes one attempt in the format `f` (R77 steps 4 to 6). `first` is whether it goes to the operand's own address. -/
def outAttempt (o : OutCfg) (f : ElFmt) (first : Bool) (rows : List (List XV)) : OutAttempt :=
  let aside := decide (o.outl ≠ 0) && outlCode f.code
  let idx := if !aside then [] else if o.outl = 1 then o.statIdx else dynChannels o.outT o.k rows
  let sideVals := rows.map (fun r => idx.map (fun c => convEl cF16 0 o.satMode o.ftz (r.getD c (.zero false))))
  let mains := rows.map (fun r => convRow f o.satMode o.ftz
    (r.zipIdx.map (fun (x, c) => if idx.contains c then .zero false else x)))
  let stored := (mains.zip sideVals).map (fun (m, sv) => m.stored.zipIdx.map (fun (q, c) =>
    match idx.findIdx? (· == c) with
    | some i => decEl cF16 0 (sv.getD i (0, {})).1
    | none => q))
  let sideCnt := sideVals.flatten.foldl (fun (t : Cnt) v => Cnt.add t v.2) {}
  { fmt := f, main := tensorBytes f o.k mains
    side := if aside || (decide (o.outl ≠ 0) && !first) then
      some (sideBytes rows.length idx (sideVals.flatMap (fun r => r.map (·.1)))) else none
    cnt := Cnt.add (mains.foldl (fun (t : Cnt) m => Cnt.add t m.cnt) {}) sideCnt
    exceeded := decide (o.wdn ≠ 0) && o.exceeds f.code rows stored }

/-- The attempts at an output, in order, widening while the statistic is exceeded and steps remain (R86, R88). -/
def outAttempts (o : OutCfg) (rows : List (List XV)) : Nat → ElFmt → Bool → List OutAttempt
  | steps, f, first =>
    let a := outAttempt o f first rows
    if a.exceeded then
      match steps with
      | 0 => [a]
      | s + 1 => match widen f with
        | none => [a]
        | some g => a :: outAttempts o rows s g false
    else [a]

/-- A written output: its attempts, the final one last, the slot observation, and whether the statistic is still
exceeded in the final attempt. -/
structure OutRes where
  attempts : List OutAttempt
  obsv : Option Obsv
  deriving DecidableEq, Repr

def OutRes.final (r : OutRes) : OutAttempt :=
  r.attempts.getLastD { fmt := { code := 0 }, main := [], side := none, cnt := {}, exceeded := false }

def OutRes.steps (r : OutRes) : Nat := r.attempts.length - 1

/-- Whether any attempt, a superseded one too, flushed an output element: the sticky flag of R44. -/
def OutRes.sticky (r : OutRes) : Bool := r.attempts.any (fun a => decide (a.cnt.flush ≠ 0))

/-- Writes an output tensor of t3 rows (R77). The observation is kept only when no widened attempt superseded it
(R99). -/
def writeOut (o : OutCfg) (t3 : List (List XV)) : OutRes :=
  let rows := t3.map (rotRow o.rot)
  let as := outAttempts o rows o.wdn o.fmt true
  { attempts := as
    obsv := if o.obs && decide (as.length ≤ 1) then some (observe rows.flatten) else none }

/-- The widest format that `steps` widenings allow (R87). -/
def widest (f : ElFmt) : Nat → ElFmt
  | 0 => f
  | s + 1 => match widen f with
    | none => f
    | some g => widest g s

end Sys2Proof.Machine
end

