-- ==== Sys2Proof/Machine/Operands.lean ====
section
/-! DEFINITION. Operation descriptors, their operands and their checks (R100 to R113, 05_operations.md). A check is a bit
position of the descriptor with its parameter block and a status; the lowest position decides (R13, R114). -/

namespace Sys2Proof.Machine

/-! Descriptor fields (Tables 5.1 to 5.7). -/

/-- A descriptor with its parameter block, as one little-endian number; the block's bits count from 512 (R111). -/
structure Desc where
  v : Nat
  deriving DecidableEq, Repr

/-- The descriptor in a run of bytes. -/
def Desc.ofBytes (bs : Bytes) : Desc := ⟨leVal bs⟩

/-- A bit field of a descriptor. -/
def Desc.f (d : Desc) (pos w : Nat) : Nat := fld d.v pos w

def Desc.opc (d : Desc) : Nat := d.f 0 8
def Desc.ftz (d : Desc) : Nat := d.f 8 2
def Desc.sat (d : Desc) : Nat := d.f 10 2
def Desc.psel (d : Desc) : Nat := d.f 12 2
def Desc.acc (d : Desc) : Nat := d.f 14 4
def Desc.g (d : Desc) : Nat := d.f 18 2
def Desc.accov (d : Desc) : Nat := d.f 20 2
def Desc.spl (d : Desc) : Nat := d.f 22 2
def Desc.cin (d : Desc) : Bool := bitAt d.v 24
def Desc.wdn (d : Desc) : Nat := d.f 25 2
def Desc.rotc (d : Desc) : Nat := d.f 27 2
def Desc.px (d : Desc) : Bool := bitAt d.v 29
def Desc.wsem (d : Desc) : Nat := d.f 32 8
def Desc.wen (d : Desc) : Bool := bitAt d.v 40
def Desc.wgl (d : Desc) : Bool := bitAt d.v 41
def Desc.psem (d : Desc) : Nat := d.f 42 8
def Desc.pen (d : Desc) : Bool := bitAt d.v 50
def Desc.pgl (d : Desc) : Bool := bitAt d.v 51
def Desc.acquire (d : Desc) : Bool := bitAt d.v 52
def Desc.release (d : Desc) : Bool := bitAt d.v 53
def Desc.rpt (d : Desc) : Bool := bitAt d.v 54
def Desc.mod (d : Desc) : Nat := d.f 55 4
/-- The address field of operand 0 to 3 (A to D). -/
def Desc.addr (d : Desc) (i : Nat) : Nat := d.f (64 + 64 * i) 48
/-- The position of an operand's format sub-field. -/
def fmtPos (i : Nat) : Nat := 112 + 64 * i
/-- The position of an operand's address. -/
def addrPos (i : Nat) : Nat := 64 + 64 * i
def Desc.code (d : Desc) (i : Nat) : Nat := d.f (fmtPos i) 4
def Desc.sgn (d : Desc) (i : Nat) : Bool := bitAt d.v (fmtPos i + 4)
def Desc.blk (d : Desc) (i : Nat) : Nat := d.f (fmtPos i + 5) 2
def Desc.obs (d : Desc) (i : Nat) : Bool := bitAt d.v (fmtPos i + 7)
def Desc.outl (d : Desc) (i : Nat) : Nat := d.f (fmtPos i + 8) 2
def Desc.rot (d : Desc) (i : Nat) : Nat := d.f (fmtPos i + 10) 2
def Desc.tagd (d : Desc) (i : Nat) : Bool := bitAt d.v (fmtPos i + 12)
def Desc.k (d : Desc) : Nat := d.f 320 32
def Desc.m (d : Desc) : Nat := d.f 352 16
def Desc.n (d : Desc) : Nat := d.f 368 16
def Desc.slot (d : Desc) (i : Nat) : Nat := d.f (384 + 10 * i) 10
def Desc.dead (d : Desc) (i : Nat) : Bool := bitAt d.v (432 + i)
def Desc.edge (d : Desc) : Bool := bitAt d.v 436
def Desc.shp (d : Desc) : Nat := d.f 448 3
def Desc.tip (d : Desc) : Nat := d.f 451 7
def Desc.spo (d : Desc) : Nat := d.f 458 8
def Desc.bias (d : Desc) : Bool := bitAt d.v 466
def Desc.scl (d : Desc) : Nat := d.f 467 2
def Desc.act (d : Desc) : Nat := d.f 469 2
def Desc.tag (d : Desc) : Nat := d.f 480 16
/-- A field of the parameter block: `n` bytes at byte `off`. -/
def Desc.par (d : Desc) (off n : Nat) : Nat := d.f (512 + 8 * off) (8 * n)
/-- An F32 field of the parameter block, with subnormals kept (R43). -/
def Desc.parF (d : Desc) (off : Nat) : XV := decodeF fmtF32 (d.par off 4)

/-! Opcodes (Table 5.11). -/

/-- What a row of Table 5.11 uses: its parameter layout (0 none, 1 M, 2 X, 3 O), how many modifiers, which dimensions,
and whether it reads or writes floats by value, so that FTZ and SAT apply (Table 2.2). -/
structure OpInfo where
  layout : Nat := 0
  mods : Nat := 1
  k : Bool := true
  m : Bool := true
  n : Bool := false
  conv : Bool := false
  deriving DecidableEq, Repr

/-- The row of an opcode; `none` is OPCODE_INVALID. -/
def opInfo (opc : Nat) : Option OpInfo :=
  match opc with
  | 0x00 | 0x01 | 0x02 | 0x03 | 0x55 | 0x56 => some { k := false, m := false }
  | 0x04 | 0x10 | 0x12 | 0x13 | 0x17 | 0x52 | 0x65 => some { m := false, conv := opc == 0x52 }
  | 0x11 => some { layout := 2, conv := true }
  | 0x14 | 0x15 => some { n := true }
  | 0x16 | 0x50 | 0x51 => some {}
  | 0x42 => some { conv := true }
  | 0x20 | 0x21 | 0x22 => some { layout := 1, n := true, conv := true }
  | 0x23 => some { layout := 1, mods := 7, conv := true }
  | 0x30 | 0x31 | 0x32 | 0x33 => some { mods := 2, conv := true }
  | 0x34 => some { mods := 11, conv := true }
  | 0x35 | 0x38 => some { conv := true }
  | 0x36 => some { layout := 2, mods := 2, conv := true }
  | 0x37 => some { layout := 2, conv := true }
  | 0x40 => some { layout := 1, conv := true }
  | 0x41 => some { k := false, n := true }
  | 0x53 | 0x71 | 0x72 | 0x73 => some { layout := 2, m := false, conv := true }
  | 0x54 => some { layout := 3, m := false }
  | 0x60 | 0x61 => some { layout := 2, mods := 3, m := false, conv := true }
  | 0x70 => some { layout := 2, m := false }
  | 0x62 | 0x63 => some { layout := 2, m := false, conv := true }
  | 0x64 => some { layout := 2, k := false, m := false }
  | _ => none

/-- MATMUL, MATMULT and CONV1D. -/
def isMat (opc : Nat) : Bool := decide (0x20 ≤ opc) && decide (opc ≤ 0x22)

/-- The operations that form dot products under Table 3.1. -/
def Desc.isDot (d : Desc) : Bool := isMat d.opc || (d.opc == 0x23 && decide (d.mod < 2))

/-- The operations with the output options of Table 4.1: the matrix operations and CONVERT. -/
def hasOst (opc : Nat) : Bool := isMat opc || opc == 0x40

/-- The operations that take part in the fixed tree. -/
def isCollective (opc : Nat) : Bool := decide (0x60 ≤ opc) && decide (opc ≤ 0x64)

/-- The elementwise opcodes of the vector class, and CONVERT (R110). -/
def isElementwise (opc : Nat) : Bool := [0x30, 0x31, 0x32, 0x33, 0x34, 0x37, 0x38, 0x40].contains opc

/-- The byte-count operations of R108. -/
def isByteOp (opc : Nat) : Bool := [0x10, 0x12, 0x13, 0x17, 0x65].contains opc

/-! What the checks need to know beside the descriptor. -/

/-- Where an operand lies (R108). -/
inductive Loc where
  | here
  | far (engine : Nat)
  | stg
  deriving DecidableEq, Repr

/-- The setting of the checks: the engines of the job and this one's logical ID, the default objects, the home of the
global semaphores, the staging window, the descriptor's address and the length of a saved stream. -/
structure Env where
  n : Nat := 1
  self : Option Nat := none
  defs : List Nat := []
  semHome : Nat := 0xFF
  winLo : Nat := 0
  winHi : Nat := 524288
  descAddr : Nat := 0
  actLen : Nat := 0
  deriving DecidableEq, Repr

/-- A default object, by its place in the list of `Stage.defs`. -/
def Env.dflt (e : Env) (i : Nat) : Nat := e.defs.getD i 0

/-- Resolves a global address (R108). -/
def Env.resolve (e : Env) (ga : Nat) : Option (Loc × Nat) :=
  let hi := ga / 2 ^ 40
  let lo := ga % 2 ^ 40
  if hi = 0xFF then some (.here, lo)
  else if hi = 0xFE then (if lo < 2 ^ 19 then some (.stg, lo) else none)
  else if e.self = some hi then some (.here, lo)
  else if hi < 128 && decide (hi < e.n) && e.self.isSome then some (.far hi, lo)
  else none

/-- Whether a range lies in the usable map, or in the task's staging window (R129, R146). -/
def Env.fits (e : Env) (l : Loc) (a n : Nat) : Bool :=
  match l with
  | .stg => decide (e.winLo ≤ a) && decide (a + n ≤ e.winHi)
  | _ => inHost a n

/-! Operands. -/

/-- The shape of an operand: absent, a tensor of rows and elements, a run of bytes with its alignment, or only the slot
that OBSERVE names. -/
inductive Shape where
  | none
  | tensor (rows els : Nat)
  | bytes (n align : Nat)
  | slotOnly
  deriving DecidableEq, Repr

/-- The aligned segments of an engine's block of leaves: lowest leaf and length (R221). `fuel` bounds their number. -/
def segmentsAux : Nat → Nat → Nat → List (Nat × Nat)
  | 0, _, _ => []
  | fuel + 1, p, hi =>
    if hi ≤ p then []
    else
      let s := ((List.range 8).filter (fun s => p % 2 ^ s == 0 && decide (p + 2 ^ s ≤ hi))).getLastD 0
      (p, 2 ^ s) :: segmentsAux fuel (p + 2 ^ s) hi

/-- The segments of logical engine `i` of `n` over `2^lam` leaves (R221). -/
def segments (n i lam : Nat) : List (Nat × Nat) :=
  segmentsAux 128 (i * 2 ^ lam / max 1 n) ((i + 1) * 2 ^ lam / max 1 n)

/-- The rows of A of a collective: one per segment with a leaf-count exponent, otherwise one (R221, R119). -/
def Env.collRows (e : Env) (lam : Nat) : Nat :=
  if lam = 0 || decide (e.n ≤ 1) then 1 else (segments e.n (e.self.getD 0) lam).length

/-- The worst-case length of a saved-activation stream (R182). -/
def actWorst (m k : Nat) : Nat :=
  32 + alignUp (8 * cdiv m 16) 32 +
    ((List.range (cdiv m 16)).map (fun i => alignUp (min 16 (m - 16 * i) * cdiv k 64 * 129) 32)).sum

/-- The shape of operand `i` of a descriptor (Table 5.11, R109). -/
def shapeOf (e : Env) (d : Desc) (i : Nat) : Shape :=
  let k := d.k
  let m := d.m
  let n := d.n
  let pick := fun (a b c r : Shape) => match i with | 0 => a | 1 => b | 2 => c | _ => r
  let t := Shape.tensor
  match d.opc with
  | 0x02 => pick (.bytes 64 64) .none .none .none
  | 0x03 => pick .none .none .none (.bytes 8 1)
  | 0x04 => pick (.bytes k 1) .none .none .none
  | 0x10 | 0x12 | 0x13 | 0x65 => pick (.bytes k 4) .none .none (.bytes k 4)
  | 0x17 => pick (.bytes k 4) .none .none .none
  | 0x11 => pick .none .none .none (t m k)
  | 0x14 => pick (t n k) (t 1 m) .none (t m k)
  | 0x15 => pick (t m k) (t 1 m) .none (t n k)
  | 0x16 => pick (t m k) .none .none (t k m)
  | 0x20 => pick (t m k) (t n k) (if d.cin then t m n else .none) (t m n)
  | 0x21 => pick (t m k) (t k n) (if d.cin then t m n else .none) (t m n)
  | 0x22 => pick (t (m + k - 1) n) (t n k) (if d.cin then t m n else .none) (t m n)
  | 0x23 => pick (t m k) .none (if d.isDot && d.cin then t 1 m else .none) (t 1 m)
  | 0x30 | 0x31 => pick (t m k) (t (if d.mod = 1 then 1 else m) k) .none (t m k)
  | 0x32 => pick (t m k) (t (if d.mod = 1 then 1 else m) k) (t (if d.mod = 1 then 1 else m) k) (t m k)
  | 0x33 => pick (t m k) (t m k) .none (t m k)
  | 0x34 | 0x35 | 0x37 | 0x40 => pick (t m k) .none .none (t m k)
  | 0x36 => pick (t m k) (t 1 k) (if d.mod = 0 then t 1 k else .none) (t m k)
  | 0x38 => pick (t m k) (t m k) (t m k) (t m k)
  | 0x42 => pick (t m k) .none .none .slotOnly
  | 0x50 => pick (t m k) .none .none (.bytes (actWorst m k) 32)
  | 0x51 => pick (.bytes e.actLen 32) .none .none (t m k)
  | 0x52 => pick (t 1 k) .none .none .none
  | 0x53 => pick (t 1 k) .none .none (t 1 k)
  | 0x54 => pick (t 1 k) .none .none (.bytes (2 * k) 32)
  | 0x56 => pick .none .none .none (.bytes 0 1)
  | 0x60 | 0x61 => pick (t (e.collRows (d.par 46 1)) k) .none .none (t 1 k)
  | 0x62 => pick (t 1 k) .none .none (t 1 k)
  | 0x63 => pick (t 1 k) .none .none (t 1 (e.n * k))
  | 0x70 | 0x71 | 0x72 => pick .none .none .none (t 1 k)
  | 0x73 => pick (t 1 k) .none .none (t 1 k)
  | _ => .none

/-- Whether an operand has elements in a format. -/
def Shape.isTensor : Shape → Bool
  | .tensor _ _ => true
  | _ => false

/-- Whether an operand is tagged (R113). -/
def isTagged (e : Env) (d : Desc) (i : Nat) : Bool := decide (i < 2) && (shapeOf e d i).isTensor && d.tagd i

/-- An operand with its place, format and extent. -/
structure Opd where
  ix : Nat
  shape : Shape := .none
  place : Option (Loc × Nat) := none
  fmt : ElFmt := { code := 0 }
  tagged : Bool := false
  steps : Nat := 0
  ext : Nat := 0
  deriving DecidableEq, Repr

def Opd.rows (o : Opd) : Nat := match o.shape with | .tensor r _ => r | _ => 0
def Opd.els (o : Opd) : Nat := match o.shape with | .tensor _ k => k | _ => 0

/-- The extent of a shape in a format (R109). -/
def extOf (f : ElFmt) : Shape → Nat
  | .tensor r k => extent f r k
  | .bytes n _ => n
  | _ => 0

/-- The tag record of operand `i` among the records of A and B. -/
def recOf (recs : Bytes) (i : Nat) : Bytes := slice recs (32 * i) 32

/-- The global address that an operand's data has: its field, or what its tag record says (R113). -/
def dataAddr (e : Env) (d : Desc) (recs : Bytes) (i : Nat) : Nat :=
  if isTagged e d i then
    let r := recOf recs i
    leAt r (if fld (leAt r 0 1) 4 2 = 0 then 8 else 16) 6
  else d.addr i

/-- The elements per block that a BLK field selects (Table 2.2, 0x3300:03). -/
def blkOf (e : Env) (b : Nat) : Nat := if b = 0 then 16 else if b = 1 then 32 else if e.dflt 2 = 0 then 16 else 32

/-- Operand `i` of a descriptor; its slot exponent is latched later (R114 stage 5). -/
def opdOf (e : Env) (d : Desc) (recs : Bytes) (i : Nat) : Opd :=
  let sh := shapeOf e d i
  let tg := isTagged e d i
  let b0 := leAt (recOf recs i) 0 1
  let code := if tg then b0 % 16 else d.code i
  let f : ElFmt := { code := code, sgn := (code == cXI4 || code == cXI8) && d.sgn i, blk := blkOf e (d.blk i), slot := d.slot i }
  { ix := i, shape := sh, place := e.resolve (dataAddr e d recs i), fmt := f, tagged := tg,
    steps := if tg then fld b0 4 2 else 0, ext := extOf f sh }

/-! Which fields an operation uses (R102). -/

/-- The widening steps after the cap (Table 4.1). -/
def cappedWdn (e : Env) (d : Desc) : Nat := if hasOst d.opc then min d.wdn (e.dflt 5) else 0

/-- Whether the tile word's output-stage fields are used (R107). -/
def Desc.useOst (d : Desc) : Bool := d.isDot || d.opc == 0x40

/-- The operations of Layout M, whose parameter block places side lists: the matrix operations, REDUCE and CONVERT. -/
def isLayoutM (opc : Nat) : Bool := hasOst opc || opc == 0x23

/-- Whether operand `i` may have a side list (R104): the inputs and output of the Layout M operations. -/
def mayOutl (opc i : Nat) : Bool := isLayoutM opc && decide (i ≠ 2)

/-- The bytes of Layout X that an opcode uses, as offset and size (Table 5.9). -/
def usedX (d : Desc) : List (Nat × Nat) :=
  let rng := [(16, 8), (24, 4), (28, 4), (32, 8)]
  match d.opc with
  | 0x11 | 0x36 => [(0, 4)]
  | 0x37 => [(8, 4)]
  | 0x53 => [(24, 4), (32, 8), (44, 1), (45, 1), (48, 4)]
  | 0x60 => [(12, 4), (40, 4), (46, 1)]
  | 0x61 => [(8, 4), (12, 4), (40, 4), (46, 1)]
  | 0x62 => [(8, 4), (12, 4)]
  | 0x63 | 0x64 => [(12, 4)]
  | 0x70 => rng
  | 0x71 | 0x72 => (0, 4) :: (4, 4) :: rng
  | 0x73 => (0, 4) :: rng
  | _ => []

/-- The bytes of Layout O that the chosen optimiser uses (Table 5.9, R196). -/
def usedO (d : Desc) : List (Nat × Nat) :=
  let o := d.par 0 1
  [(0, 1), (1, 1), (4, 4)] ++ (if o < 3 then [(8, 4)] else []) ++ (if o < 2 then [(12, 4), (16, 4)] else []) ++
    (if o = 0 then [] else [(20, 4)])

/-- The bytes of Layout M that an operation uses (Table 5.8). -/
def usedM (e : Env) (d : Desc) : List (Nat × Nat) :=
  (if d.useOst then
    (if d.bias then [(0, 6)] else []) ++ (if d.scl = 2 then [(6, 6)] else []) ++ (if d.scl = 1 then [(12, 4)] else []) ++
    (if d.act = 2 then [(16, 4), (20, 4)] else []) else []) ++
  (if cappedWdn e d ≠ 0 then [(24, 6), (32, 4), (36, 6)] else []) ++
  ([(0, 42), (1, 48), (3, 54)].filterMap (fun p => if mayOutl d.opc p.1 && decide (d.outl p.1 ≠ 0) && (shapeOf e d p.1).isTensor
    then some (p.2, 6) else none))

/-- The bytes of the parameter block that an operation uses. -/
def usedPar (e : Env) (d : Desc) (layout : Nat) : List (Nat × Nat) :=
  if layout = 1 then usedM e d else if layout = 2 then usedX d else if layout = 3 then usedO d else []

/-- The fields of an operand's address and format that are used, as position and width (R104). -/
def usedOpd (d : Desc) (o : Opd) : List (Nat × Nat) :=
  let p := fmtPos o.ix
  match o.shape with
  | .none => []
  | .bytes _ _ => [(addrPos o.ix, 48)]
  | .slotOnly => [(p, 4), (p + 7, 1)]
  | .tensor _ _ =>
    let x := o.fmt.code == cXI4 || o.fmt.code == cXI8
    [(addrPos o.ix, 48), (p, 4)] ++ (if x || o.tagged then [(p + 4, 1)] else []) ++
      (if isX o.fmt.code || o.tagged then [(p + 5, 2)] else []) ++
      (if o.ix = 3 && isLayoutM d.opc then [(p + 10, 2)] else []) ++ (if o.ix = 3 && o.fmt.code == cF16S then [(p + 7, 1)] else []) ++
      (if mayOutl d.opc o.ix then [(p + 8, 2)] else []) ++ (if o.ix < 2 then [(p + 12, 1)] else [])

/-- Every used field, as position and width. The dimensions count as used here: R102 gives them a status of their own. -/
def usedFields (e : Env) (d : Desc) (inf : OpInfo) (os : List Opd) : List (Nat × Nat) :=
  let marks := (os.filter (fun o => decide (o.ix < 3) && decide (d.opc ≠ 0x02) && o.shape != .none && o.shape != .slotOnly)).map (·.ix)
  [(0, 8), (29, 1), (40, 1), (50, 1), (52, 2), (54, 1), (55, 4), (320, 64), (480, 16)] ++
    (if inf.conv then [(8, 4)] else []) ++
    (if d.isDot then [(12, 13), (448, 10), (466, 5)] ++ (if d.spl ≠ 0 then [(458, 8)] else []) else []) ++
    (if d.opc = 0x40 then [(466, 5)] else []) ++
    (if hasOst d.opc then [(25, 2)] else []) ++ (if isMat d.opc then [(27, 2)] else []) ++
    (if d.wen then [(32, 8), (41, 1)] else []) ++ (if d.pen then [(42, 8), (51, 1)] else []) ++
    os.flatMap (usedOpd d) ++
    (os.filter (fun o => (o.shape.isTensor || o.shape == .slotOnly) && o.fmt.code == cF16S)).map (fun o => (384 + 10 * o.ix, 10)) ++
    marks.map (fun i => (432 + i, 1)) ++ (if marks.isEmpty then [] else [(436, 1)]) ++
    (usedPar e d inf.layout).map (fun p => (512 + 8 * p.1, 8 * p.2))

/-! The checks (R13, R114 stage 2). -/

/-- A failed check: its bit position and its status. -/
abbrev Fail := Nat × Nat

/-- A check that fails where its condition holds. -/
def failIf (c : Bool) (pos status : Nat) : List Fail := if c then [(pos, status)] else []

/-- The failure at the lowest position; the earlier of two at one position. -/
def firstFail (l : List Fail) : Option Nat :=
  (l.foldl (fun b x => match b with | none => some x | some y => if x.1 < y.1 then some x else some y) none).map (·.2)

/-- The lowest set bit that no used field covers (R6, R102). -/
def reservedFail (d : Desc) (used : List (Nat × Nat)) (bits : Nat) : List Fail :=
  let mask := used.foldl (fun m p => Nat.lor m ((2 ^ p.2 - 1) * 2 ^ p.1)) 0
  match (List.range bits).find? (fun i => d.v.testBit i && !mask.testBit i) with
  | some i => [(i, 0x0801)]
  | none => []

/-- The codes that the role of an operand accepts (Table 5.11, R32, R54, Table 3.2). -/
def codeOk (d : Desc) (i code ca : Nat) : Bool :=
  let flt := isFloatStored code
  let same := i == 0 || code == ca
  match d.opc with
  | 0x14 | 0x15 => if i = 1 then code == cI32 else !isX code && same
  | 0x16 => !isX code && same
  | 0x20 | 0x21 | 0x22 =>
    if i = 2 then code == d.acc
    else if i = 3 then true
    else isMulInput code && (d.opc == 0x20 || !isX code || (d.opc == 0x21 && i == 0))
  | 0x23 =>
    if i = 2 then code == d.acc
    else if i = 3 then decide (d.mod < 5) || code == cI32
    else decide (2 ≤ d.mod) || isMulInput code
  | 0x34 | 0x35 | 0x36 | 0x73 => flt
  | 0x42 => if i = 3 then code == cF16S else flt
  | 0x50 | 0x51 => code == cF16 || code == cBF16 || code == cF16S
  | 0x52 => code == cF16S || code == cF32
  | 0x53 => if i = 3 then code == cF32 else code == cF16S || code == cF32
  | 0x54 => code == cF32
  | 0x60 | 0x61 => code == cF32 || code == cF16S || code == cI32
  | 0x63 => !isX code
  | 0x70 => code == cI32
  | 0x71 | 0x72 => flt
  | _ => true

/-- The input codes an accumulator accepts (Table 3.2). -/
def accOk (acc code : Nat) : Bool :=
  if acc = cI32 then [cI4, cU4, cI8, cU8, cI16].contains code
  else if acc = cF16 then [cF4, cE4M3, cE5M2, cXE4M3, cF16, cF16S, cBF16].contains code
  else isMulInput code

/-- Where an operand may lie: `mem` not in staging, `stg` in staging, `loc` in this engine's memory (Table 5.11). -/
def placeOk (opc i : Nat) (l : Loc) : Bool :=
  match opc, i with
  | 0x12, 0 | 0x13, 3 | 0x17, 0 | 0x04, 0 => l != .stg
  | 0x12, _ | 0x13, _ => l == .stg
  | 0x65, 0 => l == .here
  | 0x65, _ => l != .stg
  | 0x02, _ | 0x54, 3 | 0x56, _ => l == .here
  | _, _ => true

/-- The checks of one operand's address, format and extent (R104, R108, R109). -/
def opdFails (e : Env) (d : Desc) (recs : Bytes) (ca : Nat) (o : Opd) : List Fail :=
  let p := fmtPos o.ix
  let ap := if o.tagged then p else addrPos o.ix
  let r := recOf recs o.ix
  let place := match o.place with
    | none => failIf (o.shape != .none && o.shape != .slotOnly) ap 0x0807
    | some (l, a) =>
      let al := match o.shape with | .tensor _ _ => 32 | .bytes _ k => k | _ => 1
      failIf (o.shape != .none && o.shape != .slotOnly &&
        (decide (a % al ≠ 0) || !placeOk d.opc o.ix l || !e.fits l a o.ext)) ap 0x0807
  let tagAt := e.resolve (d.addr o.ix)
  let tag := if !o.tagged then [] else
    failIf (match tagAt with | none => true | some (l, a) => decide (a % 32 ≠ 0) || !e.fits l a 32) (addrPos o.ix) 0x0807 ++
    failIf (!allZero (slice r 1 7) || !allZero (slice r 14 2) || !allZero (slice r 22 10)) p 0x0801 ++
    failIf (decide (64 ≤ leAt r 0 1)) p 0x0801 ++
    failIf (o.steps == 3) p 0x0802 ++ failIf (decide (d.code o.ix ≠ 0)) p 0x0801
  let fmt := match o.shape with
    | .tensor _ k =>
      failIf (!codeOk d o.ix o.fmt.code ca) p 0x0802 ++
      failIf (isX o.fmt.code && d.blk o.ix == 3) (p + 5) 0x0802 ++
      failIf (d.isDot && decide (o.ix < 2) && !accOk d.acc o.fmt.code) p 0x0802 ++
      (if !mayOutl d.opc o.ix || d.outl o.ix = 0 then [] else
        failIf (d.outl o.ix == 3) (p + 8) 0x0802 ++
        failIf (if o.ix = 3 then decide (d.rot 3 ≠ 0) || !outlCode o.fmt.code
          else (isMat d.opc && decide (d.rotc ≠ 0)) || (d.isDot && d.acc == cI32)) (p + 8) 0x0802) ++
      failIf (o.ix == 3 && isLayoutM d.opc && decide (d.rot 3 ≠ 0) && decide (k % (16 * 2 ^ d.rot 3) ≠ 0)) (p + 10) 0x0802
    | .slotOnly => failIf (d.code o.ix != cF16S) p 0x0802 ++ failIf (d.obs o.ix) (p + 7) 0x0802
    | _ => []
  place ++ tag ++ fmt

/-- The checks of the control, synchronisation and tile words and the dimensions (Tables 5.2, 5.3, 5.7; R46, R54, R67,
R102, R115). DESIGN CHOICE (log entry 79): a P of 2 or 3 needs an F32 multiplier operand, A or B, and its refusal stands at the
format sub-field of the last of them. -/
def wordFails (e : Env) (d : Desc) (inf : OpInfo) (os : List Opd) : List Fail :=
  let three := fun pos => failIf (d.f pos 2 == 3) pos 0x0802
  let need := if inf.layout = 1 then !(usedM e d).isEmpty else decide (inf.layout ≠ 0)
  let f32 := (os.filter (fun o => decide (o.ix < 2) && o.shape.isTensor)).any (fun o => o.fmt.code == cF32)
  let last := if (shapeOf e d 1).isTensor then 1 else 0
  let tmax := tileMax d.shp d.acc
  let (th, tw) := tileShape d.shp
  let spill := (if d.tip = 0 then tmax else d.tip) * th * tw * 8
  let stg := os.any (fun o => match o.place with
    | some (.stg, a) => decide (0 < o.ext) && decide (a < 2048 * d.spo + spill) && decide (2048 * d.spo < a + o.ext)
    | _ => false)
  (if inf.conv then three 8 ++ three 10 else []) ++
  (if d.isDot then
    three 12 ++ three 20 ++ failIf (!(d.acc == cF16 || d.acc == cF32 || d.acc == cI32)) 14 0x0802 ++
    failIf (decide (d.psel ≠ 0) && !f32) (fmtPos last) 0x0802 ++
    failIf (decide (5 < d.shp)) 448 0x0802 ++ failIf (decide (tmax < d.tip)) 451 0x0803 ++
    (if d.spl = 0 then [] else
      failIf (decide (524288 < 2048 * d.spo + spill)) 458 0x0803 ++
      failIf (!e.fits .stg (2048 * d.spo) spill || stg) 458 0x0807) else []) ++
  (if d.useOst then three 467 ++ three 469 else []) ++
  (if hasOst d.opc then three 25 else []) ++
  failIf (d.px && inf.layout == 0) 29 0x080A ++ failIf (!d.px && need) 29 0x080A ++
  failIf (d.wen && d.wgl && e.semHome == 0xFF) 41 0x0809 ++ failIf (d.pen && d.pgl && e.semHome == 0xFF) 51 0x0809 ++
  failIf (decide (inf.mods ≤ d.mod)) 55 0x0802 ++
  failIf (isByteOp d.opc && decide (d.k % 4 ≠ 0)) 320 0x0807 ++
  failIf ((!inf.k && decide (d.k ≠ 0)) || (d.opc == 0x22 && (d.k == 0 || decide (255 < d.k)))) 320 0x0808 ++
  failIf (if inf.m then (if d.opc = 0x41 then decide (1023 < d.m) else d.m == 0) else decide (d.m ≠ 0)) 352 0x0808 ++
  failIf (if inf.n then d.n == 0 || (d.opc == 0x41 && decide (1024 < d.m + d.n)) else decide (d.n ≠ 0)) 368 0x0808

/-- The widest output format that the capped steps allow (R87). -/
def widestOut (e : Env) (d : Desc) (o : Opd) : ElFmt := widest o.fmt (cappedWdn e d)

/-- The bytes of the alternate region that the output needs in the widest format that the cap allows, with the side list that
goes with it (R87, R112): `n` channels where that format takes a side list, and none otherwise. -/
def altNeed (e : Env) (d : Desc) (o : Opd) (n : Nat) : Nat :=
  let f := widestOut e d o
  let x := extent f o.rows o.els
  if d.outl 3 = 0 then x else alignUp x 32 + sideLen o.rows (if outlCode f.code then n else 0)

/-- The global address of the side list of operand `i`: its parameter field, or the place of R112 for a tagged operand
that was widened (R113). -/
def sideAddr (e : Env) (d : Desc) (recs : Bytes) (o : Opd) : Nat :=
  if o.tagged && decide (o.steps ≠ 0) then dataAddr e d recs o.ix + alignUp o.ext 32
  else d.par (match o.ix with | 0 => 42 | 1 => 48 | _ => 54) 6

/-- The position of the parameter field of a side list. -/
def sidePos (i : Nat) : Nat := 512 + 8 * (match i with | 0 => 42 | 1 => 48 | _ => 54)

/-- The operands whose side lists are read: inputs with OUTL, and a static output list. -/
def readsSide (d : Desc) (o : Opd) : Bool :=
  mayOutl d.opc o.ix && o.shape.isTensor && (if o.ix = 3 then d.outl 3 == 1 else d.outl o.ix == 1 || d.outl o.ix == 2)

/-- The checks of the parameter block (R71, R87, R92, R108, R111). `peek` reads bytes as they stand. -/
def parFails (e : Env) (d : Desc) (inf : OpInfo) (recs : Bytes) (os : List Opd) (peek : Loc → Nat → Nat → Bytes) : List Fail :=
  let out := os.getD 3 { ix := 3 }
  let at_ := fun (off n al : Nat) => match e.resolve (d.par off 6) with
    | none => failIf true (512 + 8 * off) 0x0807
    | some (l, a) => failIf (decide (a % al ≠ 0) || !e.fits l a n) (512 + 8 * off) 0x0807
  let used := fun (off : Nat) => (usedM e d).any (fun p => p.1 == off)
  let chans := if d.outl 3 = 1 then (match e.resolve (sideAddr e d recs out) with
    | some (l, a) => min 64 (leAt (peek l a 2) 0 2)
    | none => 0) else min 64 out.els
  if inf.layout ≠ 1 || !d.px then [] else
  (if used 0 then at_ 0 (4 * out.els) 32 else []) ++ (if used 6 then at_ 6 (4 * out.els) 32 else []) ++
  (if used 16 then failIf (d.parF 16).isNan 640 0x0802 ++
    failIf ((d.parF 20).isNan || XV.lt (d.parF 20) (d.parF 16)) 672 0x0802 else []) ++
  (if used 24 then at_ 24 (d.par 32 4) 32 ++ failIf (decide (d.par 32 4 < altNeed e d out chans)) 768 0x0805 ++ at_ 36 32 32 else []) ++
  (os.filter (fun o => mayOutl d.opc o.ix && decide (d.outl o.ix ≠ 0) && o.shape.isTensor)).flatMap (fun o =>
    match e.resolve (sideAddr e d recs o) with
    | none => failIf true (sidePos o.ix) 0x0807
    | some (l, a) =>
      let hd := peek l a 136
      let n := leAt hd 0 2
      if !e.fits l a 136 then failIf true (sidePos o.ix) 0x0807
      else if !readsSide d o then failIf (!e.fits l a (sideLen o.rows (min 64 o.els))) (sidePos o.ix) 0x0807
      else failIf ((parseSide o.rows o.els hd).isNone) (sidePos o.ix) 0x0804 ++
        failIf (!e.fits l a (sideLen o.rows n)) (sidePos o.ix) 0x0807)

/-- A range of bytes somewhere. -/
structure Region where
  loc : Loc
  addr : Nat
  len : Nat
  deriving DecidableEq, Repr

/-- Whether two ranges share a byte. -/
def Region.meets (a b : Region) : Bool :=
  a.loc == b.loc && decide (0 < a.len) && decide (0 < b.len) && decide (a.addr < b.addr + b.len) && decide (b.addr < a.addr + a.len)

/-- The extent of an operand as a range. -/
def Opd.region? (o : Opd) : Option Region := o.place.map (fun p => ⟨p.1, p.2, o.ext⟩)

/-- Whether an input is identical to D (R110). -/
def Opd.same (d : Desc) (o out : Opd) : Bool :=
  o.place == out.place && o.fmt.code == out.fmt.code && o.fmt.sgn == out.fmt.sgn && d.blk o.ix == d.blk 3 && o.shape == out.shape

/-- A range at a global address. -/
def Env.region (e : Env) (ga n : Nat) : List Region := ((e.resolve ga).map (fun p => (⟨p.1, p.2, n⟩ : Region))).toList

/-- The ranges beside the operands that D must not overlap: tag records, side lists and the parameter block (R110); and by
DESIGN CHOICE (log entry 79) the bias vector, the per-column scale vector and the tag record that the operation itself writes. -/
def otherRegions (e : Env) (d : Desc) (inf : OpInfo) (recs : Bytes) (os : List Opd) (peek : Loc → Nat → Nat → Bytes) : List Region :=
  let out := os.getD 3 { ix := 3 }
  (os.filter (·.tagged)).flatMap (fun o => e.region (d.addr o.ix) 32) ++
  (os.filter (readsSide d)).flatMap (fun o => (e.region (sideAddr e d recs o) 136).map (fun r =>
    { r with len := sideLen o.rows (min 64 (leAt (peek r.loc r.addr 2) 0 2)) })) ++
  (if d.outl 3 = 2 && mayOutl d.opc 3 then e.region (d.par 54 6) (sideLen out.rows (min 64 out.els)) else []) ++
  (if inf.layout = 1 then
    (if d.useOst && d.bias then e.region (d.par 0 6) (4 * out.els) else []) ++
    (if d.useOst && d.scl = 2 then e.region (d.par 6 6) (4 * out.els) else []) ++
    (if cappedWdn e d ≠ 0 then e.region (d.par 36 6) 32 else []) else []) ++
  (if d.px then [⟨.here, e.descAddr + 64, 64⟩] else [])

/-- The overlap checks, at D's address (R110), and DC on a C identical to D (R106). -/
def overlapFails (e : Env) (d : Desc) (inf : OpInfo) (recs : Bytes) (os : List Opd) (peek : Loc → Nat → Nat → Bytes) : List Fail :=
  let out := os.getD 3 { ix := 3 }
  match out.region? with
  | none => []
  | some r =>
    if out.shape == .none || out.shape == .slotOnly then [] else
    failIf ((os.take 3).any (fun o => o.shape != .none && (match o.region? with | some q => r.meets q | none => false) &&
        !((o.ix == 2 || (o.ix == 0 && isElementwise d.opc)) && o.same d out))) (addrPos 3) 0x0807 ++
    failIf ((otherRegions e d inf recs os peek).any r.meets) (addrPos 3) 0x0807 ++
    failIf (d.dead 2 && (shapeOf e d 2).isTensor && (os.getD 2 { ix := 2 }).same d out) 434 0x0807

/-- The seal checks: every local operand, record, vector and list must belong to the task's tenant (R379). -/
def sealFails (e : Env) (d : Desc) (inf : OpInfo) (recs : Bytes) (os : List Opd) (peek : Loc → Nat → Nat → Bytes)
    (okSeal : Nat → Nat → Bool) : List Fail :=
  let bad := fun (r : Region) => r.loc == .here && inHost r.addr r.len && !okSeal r.addr r.len
  os.flatMap (fun o => if o.shape == .none || o.shape == .slotOnly then [] else match o.region? with
    | some r => failIf (bad r) (if o.tagged then fmtPos o.ix else addrPos o.ix) 0x0701
    | none => []) ++
  failIf ((otherRegions e d inf recs os peek).any bad) 512 0x0701 ++
  (if inf.layout = 1 && decide (cappedWdn e d ≠ 0) then failIf ((e.region (d.par 24 6) (d.par 32 4)).any bad) 704 0x0701 else [])

/-- The four operands of a descriptor. -/
def opdsOf (e : Env) (d : Desc) (recs : Bytes) : List Opd := (List.range 4).map (opdOf e d recs)

/-- Every check of a descriptor: the status at the lowest position, or none (R13). `extra` holds the checks that the
opcode's own rule adds. -/
def checkDesc (e : Env) (d : Desc) (recs : Bytes) (peek : Loc → Nat → Nat → Bytes) (okSeal : Nat → Nat → Bool)
    (extra : List Fail) : Option Nat :=
  match opInfo d.opc with
  | none => some 0x0806
  | some inf =>
    let os := opdsOf e d recs
    let ca := (os.getD 0 { ix := 0 }).fmt.code
    firstFail (reservedFail d (usedFields e d inf os) (if d.px && inf.layout ≠ 0 then 1024 else 512) ++
      wordFails e d inf os ++ os.flatMap (opdFails e d recs ca) ++ parFails e d inf recs os peek ++
      overlapFails e d inf recs os peek ++ sealFails e d inf recs os peek okSeal ++ extra)

end Sys2Proof.Machine
end

