-- ==== Sys2Proof/Machine/Keys.lean ====
section
/-! DEFINITION. Key derivation (R376, R377, Table 15.5). -/

namespace Sys2Proof.Machine

/-- The byte D: whether debug is unlocked (R376). -/
def World.debugByte (w : World) : Byte := if w.sec.unlocked then 1#8 else 0#8

/-- The root key, as wake stage 4 read it. -/
def World.rootKey (w : World) : Bytes := slice w.live.factory 64 32

/-- The factory password. -/
def World.factoryPassword (w : World) : Bytes := slice w.live.factory 96 8

/-- The integrator access key of the live record (Table 15.3). -/
def World.integratorKey (w : World) : Bytes := slice w.live.record 8 32

/-- The link secret of the live record; all zeros where it has none (Table 15.3). -/
def World.linkSecret (w : World) : Bytes := slice w.live.record 60 32

/-- The key of a tenant's regions and context records. -/
def World.tenantKey (w : World) (t : Nat) (secret : Bytes) : Bytes :=
  hkdf w.rootKey secret (strBytes "YX416 tenant" ++ leBytes 2 t ++ [w.debugByte]) 64

/-- The key of the engine-reserved area (Table 15.5). -/
def World.engineKey (w : World) : Bytes := hkdf w.rootKey (zeros 32) (strBytes "YX416 engine") 64

/-- The key that seals the sector of a local address: the engine key in the engine-reserved area, and elsewhere that of the tenant
whose granule it is (R379). -/
def World.sectorKey (v : Vault) (w : World) (a : Nat) : Option Bytes :=
  if hostRegion ≤ a then some w.engineKey
  else (w.sealOf a).map (fun t => w.tenantKey t (v.tenants.get {} t).secret)

/-- The 32 bytes that the memory devices hold for a sector: what it reads, enciphered where it is sealed, its address the tweak
(R379; log entry 18). -/
def World.atRest (v : Vault) (w : World) (sector : Nat) : Bytes :=
  let pt := w.mem.dram.getRun 0 (32 * sector) 32
  match w.sectorKey v (32 * sector) with
  | none => pt
  | some k => xtsSector k (32 * sector) pt

/-- The tenant-derived RNG key Y (R376): its epoch is the job epoch in LENIENT mode only. -/
def World.noiseKey (w : World) (t : Nat) (secret : Bytes) : Nat :=
  let epoch := if w.train.mode = 1 then w.link.epoch else 0
  leVal (hkdf secret (zeros 32) (strBytes "YX416 noise" ++ leBytes 2 t ++ [byteOf w.train.mode] ++ leBytes 4 epoch) 8)

/-- The key of export blobs. -/
def World.exportKey (w : World) : Bytes := hkdf w.rootKey (zeros 32) (strBytes "YX416 export" ++ [w.debugByte]) 32

/-- The key of session manifests. -/
def World.manifestKey (w : World) : Bytes := hkdf w.rootKey (zeros 32) (strBytes "YX416 manifest" ++ [w.debugByte]) 32

/-- The key of debug unlock method 1. -/
def World.debugKey (w : World) : Bytes := hkdf w.rootKey (zeros 32) (strBytes "YX416 debug") 32

/-- The key of sealed link messages (R381). -/
def World.linkKey (w : World) : Bytes :=
  hkdf w.linkSecret (leBytes 16 w.job.salt) (strBytes "YX416 link" ++ leBytes 4 w.link.epoch) 32

end Sys2Proof.Machine
end

