-- ==== Sys2Proof/Machine/Remote.lean ====
section
/-! DEFINITION. Remote reads and writes as they leave this engine (R161, R162, R214, R215, R381). -/

namespace Sys2Proof.Machine

/-- Whether the live record carries a link secret, so that sealed messages can be sent (R381). -/
def World.hasLinkSecret (w : World) : Bool := !allZero w.linkSecret

/-- The bytes of a message of this engine; a sealed one carries its ciphertext and tag under the next nonce (R381). -/
def World.messageBytes (w : World) (typ dst tag addr : Nat) (data : Bytes) (sealIt : Bool) : World × Bytes :=
  let hd := fun (n : Nat) => msgHeader typ dst w.node w.link.logical tag n addr (w.link.epoch % 2 ^ 16)
  if sealIt then
    let h := hd (data.length + 16)
    let (ct, tg) := gcmSeal w.linkKey ([byteOf w.node, 0#8, 0#8, 0#8] ++ leBytes 8 w.job.nonce) h data
    ({ w with job := { w.job with nonce := w.job.nonce + 1 } }, h ++ ct ++ tg)
  else (w, hd data.length ++ data)

/-- Sends a message on a channel without taking a credit. -/
def World.sendMsg (w : World) (typ vc dst tag addr : Nat) (data : Bytes) (sealIt : Bool) : World :=
  let (w, m) := w.messageBytes typ dst tag addr data sealIt
  w.launch vc dst m

/-- Changes a collective in progress. -/
def World.updColl (w : World) (seq : Nat) (f : Coll → Coll) : World :=
  { w with job := { w.job with colls := w.job.colls.map (fun c => if c.seq == seq then f c else c) } }

/-- Sends what has a transaction credit; a level message is then unacknowledged (R215). -/
def World.sendWaiting (w : World) (x : Waiting) : World :=
  let w := match x.lvl with
    | some s => w.updColl s (fun c => { c with credits := c.credits + 1 })
    | none => w
  match x.msgs.getLast? with
  | none => w
  | some m => (x.msgs.dropLast.foldl (fun w b => w.launch x.vc x.dst b) w).launchFrom w.node x.vc x.dst m x.lvl

/-- Sends on a transaction credit, or waits until one is free (R215). -/
def World.credited (w : World) (x : Waiting) : World :=
  if 0 < w.link.credits ∧ w.job.toSend.isEmpty then (w.takeCredit 1).sendWaiting x
  else { w with job := { w.job with toSend := w.job.toSend ++ [x] } }

/-- Sends a request message, or keeps it until a transaction credit is free (R215). -/
def World.request (w : World) (dst : Nat) (m : Bytes) : World := w.credited { dst := dst, msgs := [m] }

/-- A transaction credit comes back, and what has waited longest takes it (R215). -/
def World.creditBack (w : World) : World :=
  let w := w.giveCredit 1
  match w.job.toSend with
  | [] => w
  | x :: r => ({ w with job := { w.job with toSend := r } }.takeCredit 1).sendWaiting x

/-- Takes an acknowledgement at a port (R206); each level message whose last flit it takes gives its credit back (R215). -/
def World.ackFlits (w : World) (k ack : Nat) : World :=
  let old := (w.port k).unacked
  let w := w.updPort k (·.acked ack)
  let gone := old.take (old.length - (w.port k).unacked.length)
  (gone.filterMap (fun e => e.1.lvl)).foldl (fun w s => (w.updColl s (fun c => { c with credits := c.credits - 1 })).creditBack) w

/-- The next transaction tag. -/
def World.takeTag (w : World) : World × Nat :=
  ({ w with job := { w.job with nextTag := (w.job.nextTag + 1) % 2 ^ 16 } }, w.job.nextTag)

/-- The global address of an address of a logical engine (R108). -/
def farAddr (l a : Nat) : Nat := l * 2 ^ 40 + a

/-- The 64-B halves of a line that a range touches and that are neither held nor asked for already, as an address and a length
(R161). -/
def World.halves (w : World) (since la a n : Nat) : Nat × Nat :=
  let lacks := fun (h : Nat) => decide (a < h + 64) && decide (h < a + n) && !w.mem.farHeld since h 64 &&
    !w.job.reads.any (fun r => r.epoch == w.mem.remEpoch && !r.stale && decide (r.addr ≤ h) && decide (h + 64 ≤ r.addr + r.len))
  match lacks (128 * la), lacks (128 * la + 64) with
  | true, true => (128 * la, 128)
  | true, false => (128 * la, 64)
  | false, true => (128 * la + 64, 64)
  | false, false => (128 * la, 0)

/-- Asks the home engine, for an operation that started at `since`, for the parts of a range that are not held, one read message for
each line (R161). A line that this engine has written waits for the acknowledgement (R176). A read message carries the length it asks
for in place of data (log entry 22). -/
def World.fetchFar (w : World) (since l a n : Nat) : World :=
  match w.nodeOf l with
  | none => w
  | some node =>
    let ga := farAddr l a
    (linesOf ga n).foldl (fun w la =>
      let (lo, len) := w.halves since la ga n
      if len = 0 || w.mem.rwrites.any (fun x => x.addr / 128 == la) then w
      else
        let (w, tag) := w.takeTag
        let w := { w with
          job := { w.job with reads := w.job.reads ++ [({ tag := tag, epoch := w.mem.remEpoch, node := node, addr := lo, len := len, seq := w.mem.farSeq } : RRead)] }
          mem := { w.mem with remFills := add64 w.mem.remFills 1 } }
        w.request node (msgHeader mRead node w.node w.link.logical tag len lo (w.link.epoch % 2 ^ 16))) w

/-- A run of bytes cut into what one write message carries: whole sectors of one line, or part of one sector (R214).
`fuel` is the run's length. -/
def writePieces : Nat → Nat → Bytes → List (Nat × Bytes)
  | 0, _, _ => []
  | fuel + 1, a, bs =>
    if bs.isEmpty then []
    else
      let n := if a % 32 ≠ 0 ∨ bs.length < 32 then min (32 - a % 32) bs.length else min (128 - a % 128) (bs.length / 32 * 32)
      (a, bs.take n) :: writePieces fuel (a + n) (bs.drop n)

/-- Writes to another engine's memory: the messages, what they await, and the copies held here (R161, R214). -/
def World.storeFar (w : World) (id : TaskId) (l a : Nat) (bs : Bytes) (sealIt : Bool) : World :=
  match w.nodeOf l with
  | none => w
  | some node =>
    (writePieces bs.length (farAddr l a) bs).foldl (fun w p =>
      let (w, tag) := w.takeTag
      let w := { w with
        job := { w.job with reads := w.job.reads.map (fun (r : RRead) => if r.addr / 128 = p.1 / 128 then { r with stale := true } else r) }
        mem := { w.mem.updateFar p.1 p.2 with
        farSeq := w.mem.farSeq + 1
        rwrites := w.mem.rwrites ++ [({ tag := tag, node := node, addr := p.1, task := (id.queue, id.seq) } : RWrite)] } }
      let (w, m) := w.messageBytes mWrite node tag p.1 p.2 sealIt
      w.request node m) w

end Sys2Proof.Machine
end

