-- ==== Sys2Proof/Machine/StreamOut.lean ====
section
/-! DEFINITION. Frames of media streams, and what a post on an output semaphore does (R336, R339, R340; Tables 13.7, 13.8). -/

namespace Sys2Proof.Machine

/-- A stream context. -/
def World.ctx (w : World) (c : Nat) : Ctx := w.host.ctxs.get {} c

/-- Changes a stream context. -/
def World.updCtx (w : World) (c : Nat) (f : Ctx → Ctx) : World :=
  { w with host := { w.host with ctxs := w.host.ctxs.upd {} c f } }

/-- The kHz of a rate code (Table 13.10). -/
def rateKHz (r : Nat) : Nat := [8, 16, 24, 48].getD r 8

/-- Samples in a 10 ms frame. -/
def Ctx.samples (c : Ctx) : Nat := 10 * rateKHz c.rate

/-- Bytes of a stored sample. -/
def Ctx.width (c : Ctx) : Nat := if c.fmt = 0 then 2 else 4

/-- The stride of a ring's slots (Table 13.8). -/
def Ctx.stride (c : Ctx) : Nat := alignUp (32 + c.samples * c.width) 32

/-- A context's input semaphore. -/
def Ctx.inSem (c : Ctx) : Nat := c.sems % 256

/-- A context's output semaphore. -/
def Ctx.outSem (c : Ctx) : Nat := c.sems / 256 % 256

/-- Whether a source or sink code names a TDM port. -/
def isTdm (s : Nat) : Bool := s == 1 || s == 2

/-- Whether an engine semaphore is a stream semaphore (R336). -/
def World.streamSem (w : World) (n : Nat) : Bool :=
  w.host.ctxs.any (fun e => e.2.isOpen && (e.2.inSem == n || e.2.outSem == n))

/-- The end of input frame k, where it is known (Table 13.7). -/
def Ctx.frameEnd (c : Ctx) (k : Nat) : Option Nat :=
  if c.src = 3 then (c.ends.find? (fun e => e.1 == k)).map (·.2) else some (c.t0 + (k + 1) * 10000000)

/-- When output frame k falls due: D_k (R339). -/
def Ctx.due (c : Ctx) (k : Nat) : Option Nat := (c.frameEnd k).map (· + 1000 * c.latency)

/-- The header of a frame slot (Table 13.8). -/
def frameHeader (k t samples flags : Nat) : Bytes := leBytes 8 k ++ leBytes 8 t ++ leBytes 4 samples ++ leBytes 4 flags ++ zeros 8

/-- Adds one to entry `i` of a context's counts (0x3100+c:11). -/
def Ctx.count (c : Ctx) (i n : Nat) : Ctx := { c with counts := modAt c.counts i (fun v => sat32 v n) }

/-- What one post of an output semaphore does in one open context: a PCIe sink takes the frame (R340); a TDM sink settles
its debt (R339). -/
def World.outputPost (n : Nat) (w : World) (c : Nat) : World :=
  let x := w.ctx c
  let v := (w.sched.sems.get {} n).value
  let dec := fun (w : World) => { w with sched := { w.sched with sems := w.sched.sems.upd {} n (fun s => { s with value := s.value - 1 }) } }
  if !x.isOpen || x.outSem != n || v == 0 then w
  else if x.sink = 3 then
    let k := x.outPost
    let late := match x.due k with | some d => decide (d < w.now) | none => false
    let w := (dec w).store (x.outBase + k % max 1 x.nOut * x.stride) (frameHeader k w.now x.samples (if late then 4 else 0))
    let w := w.updCtx c (fun x =>
      let x := { x with outPost := k + 1, untaken := min x.nOut (x.untaken + 1), ends := x.ends.filter (fun e => decide (k < e.1)) }
      let x := if late then x.count 3 1 else x
      if x.nOut ≤ (w.ctx c).untaken then x.count 0 1 else x)
    w.vector67
  else if isTdm x.sink && decide (0 < x.debt) then
    let m := min v x.debt
    let w := (List.range m).foldl (fun w _ => dec w) w
    w.updCtx c (fun x => { x with debt := x.debt - m }.count 2 m)
  else w

/-- What follows when an engine semaphore has become non-zero: the streams that it feeds take their frames. -/
def World.streamPost (w : World) (n : Nat) : World := (w.host.ctxs.map (·.1)).foldl (World.outputPost n) w

end Sys2Proof.Machine
end

