-- ==== Sys2Proof/Machine/Sems.lean ====
section
/-! DEFINITION. Ranks, cores, semaphores and holder resume (R127, R130, R137 to R144, 06_spindles_partitions_scheduling.md). -/

namespace Sys2Proof.Machine

/-! Ranks and cores. -/

/-- The cores that the parked tasks of a chain keep for its holders: of each, the core whose stream waited (R141 step 1). -/
def World.keeps (w : World) (ch : Chain) : List Nat :=
  let first := fun (id : TaskId) (g : Nat) => (w.task? id).bind (fun t => (t.stageCores g).head?)
  ((ch.waiter, ch.stage) :: (ch.holders.zip (ch.holders.drop 1)).map (fun (a, b) => (a.task, b.stage))).filterMap (fun x => first x.1 x.2)

/-- The chain that a core is kept for. -/
def World.keptFor (w : World) (c : Nat) : Option Chain := w.sched.chains.find? (fun ch => (w.keeps ch).contains c)

/-- Whether a core is kept for a task's own chain. -/
def World.keptOwn (w : World) (t : Task) (c : Nat) : Bool := (w.keptFor c).any (fun ch => ch.waiter == t.id || ch.has t.id)

/-- A partition. -/
def World.part (w : World) (p : Nat) : Part := w.sched.parts.getD p {}

/-- Whether two staging windows overlap. -/
def Task.meets (t u : Task) : Bool := decide (t.winBase < u.winBase + u.winLen) && decide (u.winBase < t.winBase + t.winLen)

/-- Whether a core qualifies for a task: it is some partition's home core, since no other core runs tasks (R125); no window resident
there overlaps the task's own; and it holds fewer than three suspended or parked contexts, the task's own apart (R130, R429). -/
def World.qualifies (w : World) (t : Task) (c : Nat) : Bool :=
  let others := w.sched.tasks.filter (fun u => !(u.id == t.id) && u.cores.contains c)
  w.sched.parts.any (fun p => bitAt p.home c) && others.all (fun u => !t.meets u) &&
    decide ((others.filter (fun u => u.out.contains c || u.draining.contains c || u.saving.contains c)).length < 3)

/-- The highest rank for which a core is kept from a task: of the other tasks that hold it, and of the waiter that keeps it for its
holder (R130, R141). A task that is leaving a core does not keep it from the holder that the core is kept for. -/
def World.keptAt (w : World) (t : Task) (c : Nat) : Option Nat :=
  let own := w.keptOwn t c
  let ranks := (w.sched.tasks.filter (fun u => !(u.id == t.id) && (if own then u.on c || u.coming.contains c else u.holds c))).map Task.rank ++
    (match w.keptFor c with
      | some ch => if ch.waiter == t.id || ch.has t.id then [] else [ch.rank]
      | none => [])
  ranks.foldl (fun b r => some (max r (b.getD 0))) none

/-- Whether a task may come back to a core that it was switched out from (R429): the core is in its partition's masks and qualifies,
or is kept for the task's own chain (R141 step 3); and what keeps it from the task is of lower rank (R130 tiers 1 to 4). -/
def World.canRegain (w : World) (t : Task) (c : Nat) : Bool :=
  let p := w.part t.part
  (w.keptOwn t c || ((bitAt p.home c || bitAt p.borrow c) && w.qualifies t c)) && (w.keptAt t c).all (fun r => decide (r < t.rank))

/-- The tasks that run on a core are asked to leave it for a task, whose wait from then to its first operation is measured
(R134, R136). -/
def World.askLeave (w : World) (id : TaskId) (c : Nat) : World :=
  let busy := w.sched.tasks.any (fun u => !(u.id == id) && u.on c)
  { w with sched := { w.sched with tasks := w.sched.tasks.map (fun (u : Task) =>
    if u.id == id then { u with asked := if busy then some (u.asked.getD w.now) else u.asked }
    else if u.on c then { u with preempt := true }
    else u) } }

/-- Gives a core that it was, or is being, switched out from back to a task: it comes free at once, or after the task of lower rank
that runs there has left (R130, R141 step 3, R429). -/
def World.regain (w : World) (id : TaskId) (c : Nat) : World :=
  match w.task? id with
  | none => w
  | some t =>
    if t.needsNone c || t.coming.contains c || !w.canRegain t c then w
    else ((w.askLeave id c).updTask id (fun t => { t with coming := t.coming ++ [c] })).settle id

/-! Semaphores. -/

/-- A semaphore of one of the two tables. -/
def World.sem (w : World) (glob : Bool) (n : Nat) : Sem := if glob then w.sched.gsems.get {} n else w.sched.sems.get {} n

/-- Changes a semaphore. -/
def World.updSem (w : World) (glob : Bool) (n : Nat) (f : Sem → Sem) : World :=
  { w with sched := if glob then { w.sched with gsems := w.sched.gsems.upd {} n f } else { w.sched with sems := w.sched.sems.upd {} n f } }

/-- Whether the global semaphores are homed here (0x3200:02). -/
def World.semHere (w : World) : Bool := w.sched.semHome == w.link.logical

/-- Takes one from a semaphore for a stage's core (R138); a stream semaphore records no owner (R336). -/
def World.takeSem (w : World) (glob : Bool) (n : Nat) (t : Task) (g : Nat) : World :=
  w.updSem glob n (fun s => { s with
    value := s.value - 1
    owner := if !glob && w.streamSem n then none else some { engine := if glob then w.link.logical else 0xFF, task := t.id, slot := t.slot, core := (t.stageCores g).headD 0 } })

/-- Whether a task's posts, or another's, come from the owner of a semaphore. -/
def Sem.ownedBy (s : Sem) (engine : Nat) (id : TaskId) : Bool :=
  match s.owner with
  | some o => o.task == id && o.engine == engine
  | none => false

/-- Parks a waiting task: its cores drain and save its context, and are then released (R134, R141 step 1). -/
def World.park (w : World) (id : TaskId) : World :=
  (w.updTask id (fun t => { t with parking := true, coming := [], fresh := [], draining := t.draining ++ t.cores.filter t.on })).settle id

/-- A holder resumes, at the rank that its chains lend it, on its owning core (R141 step 3). -/
def World.lendTo (w : World) (h : TaskId) (core : Nat) : World :=
  let w := w.relend h
  let w := { w with sched := { w.sched with resumes := sat32 w.sched.resumes 1 } }
  w.regain h core

/-- Extends with another holder a chain whose last holder waits in turn, or ends its waiting task's operation where it would be a
fifth or is in it already (R142). -/
def World.extendChain (h : Hold) (w : World) (c : Chain) : World :=
  if 4 ≤ c.holders.length ∨ c.waiter = h.task ∨ c.has h.task then w.dropChains (fun x => x.waiter == c.waiter && x.stage == c.stage)
  else { w with sched := { w.sched with chains := w.sched.chains.map (fun (x : Chain) =>
    if x.waiter == c.waiter && x.stage == c.stage then { x with holders := x.holders ++ [h] } else x) } }

/-- Starts or extends a holder resume for a wait that found the value 0 (R141, R142). -/
def World.beginResume (w : World) (t : Task) (g : Nat) (glob : Bool) (n : Nat) (h : TaskId) (core : Nat) : World :=
  let hold : Hold := { task := h, glob := glob, sem := n, core := core, stage := g }
  let mine := fun (c : Chain) => c.holders.getLast?.any (fun x => x.task == t.id)
  let last := w.sched.chains.filter mine
  if !last.isEmpty then
    let w := last.foldl (World.extendChain hold) w
    if w.sched.chains.any (fun c => c.has t.id && c.has h) then (w.park t.id).lendTo h core else w
  else
    let c : Chain := { waiter := t.id, stage := g, glob := glob, sem := n, since := w.now, rank := t.rank, holders := [hold] }
    let w := { w with sched := { w.sched with chains := w.sched.chains ++ [c] } }
    if w.sched.holdBudget = 0 then w.dropChains (fun x => x.waiter == t.id && x.stage == g)
    else (w.park t.id).lendTo h core

/-- A stage's wait (R138, R140, R141): the second part is whether the semaphore was acquired at once. A home that the job does
not have is a lost home (R398 cause 8). -/
def World.waitSem (w : World) (t : Task) (g : Nat) (glob : Bool) (n : Nat) : World × Bool :=
  let w := if glob then w.updTask t.id (fun t => { t with job := true }) else w
  if glob && !w.semHere then
    match w.nodeOf w.sched.semHome with
    | none =>
      let w := w.jobFault 8 w.node srcMgmt 0
      ((w.updStage t.id g (fun s => { s with phase := .executed (OpRes.plain 0x0510 (leAt s.desc 60 2)) })).settle t.id, false)
    | some _ =>
      let w := w.semMsg w.sched.semHome 0 n t.id.queue t.slot ((t.stageCores g).headD 0) t.rank
      ((w.updStage t.id g (fun s => { s with phase := .asking n })).settle t.id, false)
  else
    let s := w.sem glob n
    if 1 ≤ s.value then (w.takeSem glob n t g, true)
    else
      let w := w.updStage t.id g (fun st => { st with phase := .waiting glob n w.now w.sched.order })
      let w := ({ w with sched := { w.sched with order := w.sched.order + 1 } }).settle t.id
      match s.owner with
      | none => (w, false)
      | some o =>
        if o.engine = 0xFF || o.engine = w.link.logical then
          match w.task? o.task with
          | some h =>
            if h.st == .suspended || h.st == .parked then (w.beginResume t g glob n h.id o.core, false) else (w, false)
          | none => (w, false)
        else (w.semMsg o.engine 5 n o.task.queue o.slot o.core t.rank, false)

/-- A task back at its own rank leaves its cores at its next pre-emption point where anything ranked higher is ready, or after a
post also parked (R141 step 4, R142). -/
def World.yieldCores (w : World) (parkedToo : Bool) (id : TaskId) : World :=
  let higher := fun (t : Task) => w.sched.tasks.any (fun u => (u.st == .ready || (parkedToo && u.parking)) && decide (t.rank < u.rank))
  w.updTask id (fun t => { t with preempt := t.preempt || higher t })

/-- A chain whose holder has posted the semaphore it was resumed for: it keeps the holders before it. Those after it serve the wait
of that holder itself, which becomes a chain of its own (R141, R142). -/
def World.splitChain (w : World) (id : TaskId) (glob : Bool) (n : Nat) (c : Chain) : List Chain :=
  match c.holders.findIdx? (fun h => h.task == id && h.glob == glob && h.sem == n) with
  | none => [c]
  | some i =>
    let kept := { c with holders := c.holders.take i }
    (if kept.isFar && kept.holders.isEmpty then [] else [kept]) ++
      (match w.task? id, c.holders.drop (i + 1) with
        | some t, h :: hs =>
          let since := match (t.stgs[h.stage]?).map (·.phase) with
            | some (.waiting _ _ s _) => s
            | _ => w.now
          [{ waiter := id, stage := h.stage, glob := h.glob, sem := h.sem, since := since, rank := t.ownRank, holders := h :: hs }]
        | _, _ => [])

/-- A holder that has posted returns to its own rank, as do those that were resumed for it alone, and leaves its core if anything
ranked higher is ready or parked (R141 step 4). -/
def World.returnRank (w : World) (id : TaskId) (glob : Bool) (n : Nat) : World :=
  let held := w.sched.chains.filter (fun c => c.holders.any (fun h => h.task == id && h.glob == glob && h.sem == n))
  if held.isEmpty then w
  else
    let w := { w with sched := { w.sched with chains := w.sched.chains.flatMap (w.splitChain id glob n) } }
    let w := (held.flatMap (·.holders)).foldl (fun w h => w.relend h.task) w
    w.yieldCores true id

/-- A post on a semaphore held here (R138): refused where the value is 65,535. -/
def World.postSem (w : World) (glob : Bool) (n engine : Nat) (id : Option TaskId) : World × Bool :=
  let s := w.sem glob n
  if 65535 ≤ s.value then (w, false)
  else
    let mine := match id with | some id => s.ownedBy engine id | none => false
    let w := w.updSem glob n (fun s => { s with value := s.value + 1, owner := if mine then none else s.owner })
    let w := match id with
      | some id => if mine then w.returnRank id glob n else w
      | none => w
    (if glob then w else w.streamPost n, true)

/-! The release of a waiter (R138). -/

/-- A waiter: its rank, when it began to wait, and who it is. -/
structure Waiter where
  rank : Nat
  ord : Nat
  task : Option (TaskId × Nat)
  far : Option FarWait
  deriving DecidableEq, Repr

/-- The waiters on a semaphore. -/
def World.waiters (w : World) (glob : Bool) (n : Nat) : List Waiter :=
  w.sched.tasks.flatMap (fun t => t.stgs.zipIdx.filterMap (fun (s, g) => match s.phase with
    | .waiting gl m _ ord => if gl == glob && m == n then some { rank := t.rank, ord := ord, task := some (t.id, g), far := none } else none
    | _ => none)) ++
  (if glob then (w.sem true n).far.map (fun f => { rank := f.rank, ord := f.ord, task := none, far := some f }) else [])

/-- The highest-ranked waiter, then the earliest (R138). -/
def firstWaiter (l : List Waiter) : Option Waiter :=
  l.foldl (fun b x => match b with
    | none => some x
    | some y => if y.rank < x.rank || (x.rank == y.rank && decide (x.ord < y.ord)) then some x else some y) none

/-- A released or answered wait goes on in a new phase; a parked task comes back on its cores (R141 step 4). -/
def World.unwait (w : World) (id : TaskId) (g : Nat) (ph : Phase) : World :=
  let w := w.updStage id g (fun s => { s with phase := ph })
  let w := (w.sched.chains.filter (fun c => c.waiter == id && c.stage == g)).foldl World.forgetChain w
  match w.task? id with
  | none => w
  | some t =>
    if t.parking then
      let w := w.updTask id (fun t => { t with parking := false })
      (t.cores.foldl (fun w c => w.regain id c) w).settle id
    else w.settle id

end Sys2Proof.Machine
end

