-- ==== Sys2Proof/Machine/OpRun.lean ====
section
/-! DEFINITION. How an operation starts, waits, reads its operands and writes its output (R54, R100, R101, R114, R131,
05_operations.md). Each opcode's rule is in the file of its family. -/

namespace Sys2Proof.Machine

/-- The part of an operation that a command runs, by core of the stage: the pre-emption points reached before it, and those to
reach, or none for the end of the core's share (R68, R115). -/
structure Span where
  start : List Nat
  goal : List (Option Nat)
  deriving DecidableEq, Repr

/-- What an operation runs with: its task and stage, its descriptor, the setting of its checks and its operands; the part of it
that runs, or none for the whole at once; and the tiles and counts so far. -/
structure Run where
  t : Task
  g : Nat
  d : Desc
  e : Env
  recs : Bytes
  os : List Opd
  part : Option Span := none
  tiles : List CoreTiles := []
  acc : Cnt := {}
  deriving DecidableEq, Repr

/-- Operand `i`. -/
def Run.o (r : Run) (i : Nat) : Opd := r.os.getD i { ix := i }

/-- The compute cores of the stage. -/
def Run.cores (r : Run) : List Nat := r.t.stageCores r.g

/-- Whether FTZ is in effect (Table 2.2). -/
def Run.ftz (r : Run) : Bool := r.d.ftz == 2 || (r.d.ftz == 0 && r.e.dflt 0 == 1)

/-- Whether the operation saturates (Table 2.2). -/
def Run.satMode (r : Run) : Bool := r.d.sat == 2 || (r.d.sat == 0 && r.e.dflt 1 == 1)

/-- The default objects that operations read (R33, R54). -/
def World.defaults (w : World) : List Nat :=
  let n := w.num
  [n.ftz, n.sat, n.blk, n.accov, n.grp, n.wcap, n.k4, n.k8, n.k16, n.outT]

/-- The number of engines of the job; one where there is no job. -/
def World.engines (w : World) : Nat := if w.multi then w.link.jobSize else 1

/-- Bytes as they stand at a place: local memory, the first core's staging, or held remote bytes. -/
def World.peek (w : World) (t : Task) (g : Nat) (l : Loc) (a n : Nat) : Bytes :=
  match l with
  | .here => w.load a n
  | .stg => w.loadStaging ((t.stageCores g).headD 0) a n
  | .far x => w.mem.far.getRun 0 (farAddr x a) n

/-- The setting of a stage's checks. -/
def World.envOf (w : World) (t : Task) (g : Nat) (defs : List Nat) (pc : Nat) (d : Desc) : Env :=
  let e : Env := {
    n := w.engines
    self := if w.link.jobState = 0 then none else some w.link.logical
    defs := defs
    semHome := w.sched.semHome
    winLo := 2048 * t.winBase
    winHi := min 524288 (2048 * (t.winBase + t.winLen))
    descAddr := pc }
  if d.opc = 0x51 then
    match e.resolve (d.addr 0) with
    | some (l, a) => { e with actLen := if e.fits l a 32 then leVal (w.peek t g l (a + 16) 8) else 32 }
    | none => e
  else e

/-- The parts of ranges that lie on other engines and are not held here for an operation that started at `since`. -/
def World.missing (w : World) (since : Nat) (rs : List Region) : List (Nat × Nat × Nat) :=
  rs.filterMap (fun r => match r.loc with
    | .far l => if 0 < r.len ∧ !w.mem.farHeld since (farAddr l r.addr) r.len then some (l, r.addr, r.len) else none
    | _ => none)

/-- Asks for what is missing (R161). -/
def World.fetchAll (w : World) (since : Nat) (ms : List (Nat × Nat × Nat)) : World :=
  ms.foldl (fun w m => w.fetchFar since m.1 m.2.1 m.2.2) w

/-- A range that fits the usable map or window, as a region. -/
def Env.fitting (e : Env) (ga n : Nat) : List Region := (e.region ga n).filter (fun r => e.fits r.loc r.addr r.len)

/-- The tag records of A and B as they stand (R113). -/
def World.recsOf (w : World) (t : Task) (g : Nat) (e : Env) (d : Desc) : Bytes :=
  (List.range 2).flatMap (fun i => if isTagged e d i then
    match e.resolve (d.addr i) with
    | some (l, a) => if e.fits l a 32 then w.peek t g l a 32 else zeros 32
    | none => zeros 32
  else zeros 32)

/-- The ranges that the checks read: tag records; then saved-stream headers and side-list headers; then side lists and
saved streams. -/
def World.checkReads (w : World) (t : Task) (g : Nat) (e : Env) (d : Desc) : List (List Region) :=
  let tags := (List.range 2).flatMap (fun i => if isTagged e d i then e.fitting (d.addr i) 32 else [])
  let recs := w.recsOf t g e d
  let os := (opdsOf e d recs).filter (readsSide d)
  let heads := (if d.opc = 0x51 then e.fitting (d.addr 0) 32 else []) ++ os.flatMap (fun o => e.fitting (sideAddr e d recs o) 136)
  let lists := os.flatMap (fun o => (e.fitting (sideAddr e d recs o) 136).map (fun r =>
    { r with len := sideLen o.rows (min 64 (leAt (w.peek t g r.loc r.addr 2) 0 2)) }))
  [tags, heads, lists ++ (if d.opc = 0x51 then e.fitting (d.addr 0) e.actLen else [])]

/-- The first missing reads of a list of stages. -/
def World.firstMissing (w : World) (since : Nat) : List (List Region) → List (Nat × Nat × Nat)
  | [] => []
  | rs :: rest => let m := w.missing since rs; if m.isEmpty then w.firstMissing since rest else m

/-- Whether a local range holds a poisoned sector (R163). -/
def World.poisoned (w : World) (rs : List Region) : Option Nat :=
  let ss := (rs.filter (fun r => r.loc == .here)).flatMap (fun r => w.mem.poison.filter (fun s =>
    decide (0 < r.len) && decide (r.addr < 32 * s + 32) && decide (32 * s < r.addr + r.len)))
  if ss.isEmpty then none else some (if ss.any (w.mem.slicePoison.contains ·) then 2 else 1)

/-- An operation that consumes a poisoned sector ends with POISON_CONSUMED (R163, R398). -/
def World.poisonStop (w : World) (t : Task) (g cause tag : Nat) : World :=
  let w := w.updStage t.id g (fun s => { s with phase := .executed (OpRes.plain 0x0401 tag) })
  w.taskFault t cause srcCore ((t.stageCores g).headD 0)

/-- Whether this engine's cores run: Active or in power-down step D1, and not halted (R235, R247, R275). -/
def World.coresRun (w : World) : Bool := (w.power.st == .active || (w.power.st == .down && w.power.dstep == 1)) && !w.pt.coolStop && !w.pt.trip

/-- Whether every task must leave its cores: entry to Idle, and power-down step D1 (R237, R247). -/
def World.leaving (w : World) : Bool := w.power.entering || w.power.st == .down

/-- Whether a COMMIT or a REEL waits for a serving task's generation, so that the task runs on (R23, R237). -/
def World.awaited (w : World) (t : Task) : Bool :=
  t.gen.isSome && w.sched.tasks.any (fun u => u.tenant == t.tenant && u.stgs.any (fun s => match s.phase with
    | .holders g => t.gen == some g
    | _ => false))

/-- Whether the engine's state asks a task to leave its cores. -/
def World.mustLeave (w : World) (t : Task) : Bool := w.leaving && !w.awaited t

/-- Whether a task has been switched in on a core of a stage and has not yet reached a pre-emption point there (R143). -/
def Task.freshOn (t : Task) (g : Nat) : Bool := (t.stageCores g).any t.fresh.contains

/-- Whether a stage can start or go on with an operation: its task runs on a core of the stage (R137), and nothing asks it to
stop, to leave its cores before it has reached a pre-emption point there (R143), or to hold at a micro-batch boundary. -/
def World.canRun (w : World) (t : Task) (g : Nat) (st : Stage) : Bool :=
  w.coresRun && (t.st == .running || t.st == .waiting) && (t.stageCores g).any t.on &&
    ((match st.phase with | .holders _ => true | _ => false) ||
      (t.stop.isNone && !st.boundary && (t.freshOn g || (!t.preempt && !w.mustLeave t))))

/-- The bytes of the descriptor at an address, with its parameter block where it has one (R100). -/
def World.fetchDesc (w : World) (pc : Nat) : Option Bytes :=
  if !inHost pc 64 then none
  else
    let b := w.load pc 64
    let d := Desc.ofBytes b
    if d.px && (match opInfo d.opc with | some i => decide (i.layout ≠ 0) | none => false) then
      (if inHost pc 128 then some (w.load pc 128) else none)
    else some b

/-- Where an operation may be pre-empted (the pre-emption column of Table 5.11): between operations only, at segment ends, every
4,096 output elements, or every 2 KiB moved or sent. -/
inductive PreClass where
  | whole | tiles | els | bytes
  deriving DecidableEq, Repr

/-- The class of a descriptor's operation. Collectives may be pre-empted while they wait. -/
def Desc.preClass (d : Desc) : PreClass :=
  if d.isDot then .tiles
  else if d.opc = 0x11 ∨ (0x23 ≤ d.opc ∧ d.opc ≤ 0x40) ∨ d.opc = 0x42 ∨ (0x50 ≤ d.opc ∧ d.opc ≤ 0x53) ∨ (0x70 ≤ d.opc ∧ d.opc ≤ 0x73) then .els
  else if d.opc = 0x65 ∨ (0x10 ≤ d.opc ∧ d.opc ≤ 0x17) then .bytes
  else .whole

/-- Whether an operation's effect is taken row by row, or run of bytes by run of bytes, as its points are reached; that of the
others of their classes is taken with their last element (DESIGN CHOICE, log entry 8). -/
def Desc.piecewise (d : Desc) : Bool := d.preClass == .bytes || d.opc == 0x11 || (decide (0x30 ≤ d.opc) && decide (d.opc ≤ 0x38))

/-- The elements or bytes between two pre-emption points of a class (R115). -/
def Desc.quantum (d : Desc) : Nat := if d.preClass == .bytes then 2048 else 4096

/-- Whether an operation marks the phase of a step (R177): a collective, GNORM, CLIPNOISE, REEL or COMMIT. -/
def marksPhase (opc : Nat) : Bool := isCollective opc || [0x52, 0x53, 0x54, 0x55].contains opc

/-- Whether every other stage of a task has ended. -/
def Task.othersOver (t : Task) (g : Nat) : Bool := t.stgs.zipIdx.all (fun (s, i) => i == g || s.phase.past)

/-- The order checks that every opcode has (R120, R177), at the opcode's position. -/
def World.orderFails (w : World) (t : Task) (g : Nat) (d : Desc) : List Fail :=
  let last := g + 1 == t.stages
  let seen := (w.step? t.id).elim [] (·.observed)
  let bad :=
    (decide (0x50 ≤ d.opc) && decide (d.opc ≤ 0x55) && t.kind != 1) ||
    (d.opc == 0x56 && t.kind == 0) ||
    (decide (0x52 ≤ d.opc) && decide (d.opc ≤ 0x55) && !last) ||
    (d.opc == 0x41 && t.kind == 1 && !last && seen.any (fun s => decide (d.m ≤ s) && decide (s < d.m + d.n))) ||
    (last && d.opc != 0x01 && ((w.step? t.id).elim false (·.committed)))
  failIf bad 0 0x080B

/-! Reading operands. -/

/-- The parsed elements of an operand's bytes. -/
def Opd.parse (o : Opd) (ftz : Bool) (bs : Bytes) : List (List El) := readTensor o.fmt ftz o.rows o.els bs

/-- The bytes of a place as one core of the stage reads them. -/
def World.readAt (w : World) (core : Nat) (l : Loc) (a n : Nat) : Bytes :=
  match l with
  | .here => w.load a n
  | .stg => w.loadStaging core a n
  | .far x => w.mem.far.getRun 0 (farAddr x a) n

/-- The bytes of an operand's extent as one core reads them. -/
def World.opdBytes (w : World) (core : Nat) (o : Opd) : Bytes :=
  match o.place with
  | some (l, a) => w.readAt core l a o.ext
  | none => zeros o.ext

/-- A side list as an operation takes it when it starts (R90): whatever stands there, up to 64 channels. -/
def sideOf (rows : Nat) (bs : Bytes) : Side :=
  let n := min 64 (leAt bs 0 2)
  { idx := (List.range n).map (fun i => leAt bs (8 + 2 * i) 2),
    vals := (List.range rows).map (fun r => (List.range n).map (fun i => leAt bs (136 + 2 * (r * n + i)) 2)) }

/-- The side list of an operand as one core reads it. -/
def World.sideList (w : World) (r : Run) (core : Nat) (o : Opd) : Side :=
  match r.e.resolve (sideAddr r.e r.d r.recs o) with
  | some (l, a) => sideOf o.rows (w.readAt core l a (sideLen o.rows (min 64 (leAt (w.readAt core l a 2) 0 2))))
  | none => ⟨[], []⟩

/-- The elements of operand `i` as one core reads them, with its side list (R43, R90). -/
def World.tensorAt (w : World) (r : Run) (i core : Nat) (ftz : Bool) : List (List El) :=
  let o := r.o i
  let t := o.parse ftz (w.opdBytes core o)
  if readsSide r.d o && decide (i ≠ 3) then substSide ftz (w.sideList r core o) t else t

/-- Whether an operand lies in staging. -/
def Opd.staged (o : Opd) : Bool := match o.place with | some (.stg, _) => true | _ => false

/-- The elements of operand `i` for each core of the stage: one copy where all the cores read the same bytes. -/
def World.tensors (w : World) (r : Run) (i : Nat) (ftz : Bool) : List (List (List El)) :=
  if (r.o i).staged then r.cores.map (fun c => w.tensorAt r i c ftz) else [w.tensorAt r i (r.cores.headD 0) ftz]

/-- The copy that core number `c` of the stage reads. -/
def coreCopy {α : Type} (l : List (List α)) (c : Nat) : List α := if 1 < l.length then l.getD c [] else l.headD []

/-- The core number that a row is dealt to: blocks of 16 rows, round-robin (R131). -/
def rowCore (n r : Nat) : Nat := r / 16 % max 1 n

/-- The place of a row among those that its core is dealt. -/
def rowPlace (n r : Nat) : Nat := 16 * (r / 16 / max 1 n) + r % 16

/-- Whether a piece of core `c`'s share that ends at `pos` elements or bytes lies in the part that runs. -/
def Run.inPart (r : Run) (c pos : Nat) : Bool :=
  match r.part with
  | none => true
  | some p => decide (r.d.quantum * p.start.getD c 0 < max 1 pos) &&
    (match p.goal.getD c none with | none => true | some k => decide (max 1 pos ≤ r.d.quantum * k))

/-- Whether row `i` of D, of `len` elements or bytes, is in the part that runs. -/
def Run.rowIn (r : Run) (len i : Nat) : Bool := r.inPart (rowCore r.cores.length i) ((rowPlace r.cores.length i + 1) * len)

/-- The run of bytes `[start, end)` of a share of `n` bytes dealt to the first core, in the part that runs. -/
def Run.bytesIn (r : Run) (n : Nat) : Nat × Nat :=
  match r.part with
  | none => (0, n)
  | some p => (min n (r.d.quantum * p.start.headD 0), match p.goal.headD none with | none => n | some k => min n (r.d.quantum * k))

/-- The rows and the length of a row, in elements or bytes, that an operation's shares are counted in. -/
def Run.extent (r : Run) : Nat × Nat :=
  let o := if (r.o 3).shape.isTensor then r.o 3 else r.o 0
  if isByteOp r.d.opc then (1, r.d.k)
  else if r.d.preClass == .bytes then ((if r.d.opc = 0x15 then r.d.m else o.rows), rowBytes o.fmt o.els) else (o.rows, o.els)

/-- The elements or bytes of core `c`'s share of an operation. -/
def Run.share (r : Run) (c : Nat) : Nat := (List.range r.extent.1).countP (fun i => rowCore r.cores.length i == c) * r.extent.2

/-- Whether the part that runs takes every core to the end of its share. -/
def Run.toEnd (r : Run) : Bool :=
  match r.part with
  | none => true
  | some p => (List.range r.cores.length).all (fun c => match p.goal.getD c none with
    | none => true
    | some k => decide (r.share c ≤ r.d.quantum * k))

/-- The rows of operand `i` as dealt (R131). -/
def World.rowsOf (w : World) (r : Run) (i : Nat) (ftz : Bool) : List (List El) :=
  let ts := w.tensors r i ftz
  (List.range (r.o i).rows).map (fun k => (coreCopy ts (rowCore r.cores.length k)).getD k [])

/-- The values of rows. -/
def rowVals (t : List (List El)) : List (List XV) := t.map (fun r => r.map (·.x))

/-- The ranges whose data an operation reads when it runs: operands, side lists and vectors. -/
def Run.reads (r : Run) : List Region :=
  let used := if r.d.opc = 0x02 ∨ r.d.opc = 0x04 then [] else (r.os.take 3).filter (fun o => o.shape != .none)
  let out := r.o 3
  used.flatMap (fun o => o.region?.toList) ++
  (r.os.filter (readsSide r.d)).flatMap (fun o => r.e.region (sideAddr r.e r.d r.recs o) 136) ++
  (if r.d.useOst && r.d.bias then r.e.region (r.d.par 0 6) (4 * out.els) else []) ++
  (if r.d.useOst && r.d.scl = 2 then r.e.region (r.d.par 6 6) (4 * out.els) else [])

/-! Writing. -/

/-- A place and address as a global address, with 0xFF for this engine (R108). -/
def locKey (l : Loc) (a : Nat) : Nat :=
  match l with
  | .here => 0xFF * 2 ^ 40 + a
  | .stg => 0xFE * 2 ^ 40 + a
  | .far x => farAddr x a

/-- Takes a written range out of the noised extents of a task's step (R191). -/
def World.unnoise (w : World) (id : TaskId) (a n : Nat) : World :=
  w.updStep id (fun s => { s with noised := s.noised.filter (fun x => decide (n = 0) || decide (x.1 + x.2 ≤ a) || decide (a + n ≤ x.1)) })

/-- Whether any local range that an operation reads is sealed, so that what it sends is too (R215, R380). -/
def World.readsSealed (w : World) (r : Run) : Bool := r.reads.any (fun x => x.loc == .here && w.anySealed x.addr x.len)

/-- Whether a global address lies on another engine. -/
def Env.isFar (e : Env) (ga : Nat) : Bool := match e.resolve ga with | some (.far _, _) => true | _ => false

/-- Whether an operation writes to another engine: D, the alternate region, the tag record or the side list of D. -/
def Run.writesFar (r : Run) : Bool :=
  (match (r.o 3).place with | some (.far _, _) => (r.o 3).shape != .none && (r.o 3).shape != .slotOnly | _ => false) ||
  (hasOst r.d.opc && decide (cappedWdn r.e r.d ≠ 0) && (r.e.isFar (r.d.par 24 6) || r.e.isFar (r.d.par 36 6))) ||
  (isLayoutM r.d.opc && decide (r.d.outl 3 ≠ 0) && r.e.isFar (r.d.par 54 6))

/-- Writes bytes to a place; in staging, each byte goes to the core that `owner` gives its offset (R131). -/
def World.put (w : World) (r : Run) (l : Loc) (a : Nat) (bs : Bytes) (owner : Nat → Nat) : World :=
  let w := w.unnoise r.t.id (locKey l a) bs.length
  match l with
  | .here => w.store a bs
  | .far x => (w.updTask r.t.id (fun t => { t with job := true })).storeFar r.t.id x a bs (w.readsSealed r)
  | .stg =>
    if r.cores.length ≤ 1 then w.storeStaging (r.cores.headD 0) a bs
    else bs.zipIdx.foldl (fun w (b, i) => w.storeStaging (r.cores.getD (owner i) 0) (a + i) [b]) w

/-- The core number that writes a byte of a tensor whose rows are dealt (R131). -/
def rowOwner (n : Nat) (f : ElFmt) (rows k off : Nat) : Nat :=
  let so := scaleOff f rows k
  if isX f.code && decide (so ≤ off) then rowCore n ((off - so) / max 1 (scaleRow f k)) else rowCore n (off / max 1 (pitch f k))

/-- Writes the bytes of an operand whose rows are dealt. -/
def World.putRows (w : World) (r : Run) (o : Opd) (bs : Bytes) : World :=
  match o.place with
  | some (l, a) => w.put r l a bs (rowOwner r.cores.length o.fmt o.rows o.els)
  | none => w

/-- Writes one converted row of an operand: its elements, zeros up to the next row's start or to the scale stream, and its block
exponents (R109). -/
def World.putConvRow (w : World) (r : Run) (o : Opd) (i : Nat) (cv : ConvRow) : World :=
  match o.place with
  | some (l, a) =>
    let core := fun (_ : Nat) => rowCore r.cores.length i
    let bs := pack (elBits o.fmt.code) cv.codes
    let room := if i + 1 < o.rows then pitch o.fmt o.els else if isX o.fmt.code then scaleOff o.fmt o.rows o.els - i * pitch o.fmt o.els else bs.length
    let w := w.put r l (a + i * pitch o.fmt o.els) (bs ++ zeros (room - bs.length)) core
    if isX o.fmt.code then w.put r l (a + scaleOff o.fmt o.rows o.els + i * scaleRow o.fmt o.els) (cv.blks.map byteOf) core else w
  | none => w

/-- Converts rows of exact values to D and writes those of the part that runs (R48, R109, R116); the counts go to the result.
DESIGN CHOICE (log entry 79): no slot is observed here, since Table 5.11 gives observation to the operations of Table 4.1 and
OBSERVE alone. -/
def World.writeConv (w : World) (r : Run) (o : Opd) (rows : List (List XV)) : World × Cnt :=
  let cs := rows.map (convRow o.fmt r.satMode r.ftz)
  if r.part.isNone then (w.putRows r o (tensorBytes o.fmt o.els cs), cs.foldl (fun t c => t.add c.cnt) {})
  else
    let live := cs.zipIdx.filter (fun (_, i) => r.rowIn o.els i)
    (live.foldl (fun w (c, i) => w.putConvRow r o i c) w, live.foldl (fun t c => t.add c.1.cnt) {})

/-! The course of an operation (R114). -/

/-- What an operation's rule answers: its result, or nothing where it has set its stage's phase itself. -/
abbrev Done := Option OpRes

/-- The result of a run with status 0 and no counts. -/
def Run.ok (r : Run) : OpRes := { tag := r.d.tag, code := (r.o 3).fmt.code }

/-- The result with the conversion counts, which saturate, and the sticky flush flag (R44, R73). -/
def Run.counted (r : Run) (c : Cnt) : OpRes := { r.ok with sat := satTo 32 c.sat, flush := satTo 32 c.flush, sticky := decide (c.flush ≠ 0) }

/-- A result with the counts of the parts that ran before. -/
def OpRes.plus (r : OpRes) (c : Cnt) : OpRes :=
  { r with sat := sat32 r.sat c.sat, flush := sat32 r.flush c.flush, sticky := r.sticky || decide (c.flush ≠ 0) }

/-- The run of a stage, with the slot exponents latched when it started; as the slots stand while it has not (R39, R114 stage 5). -/
def World.runOf (w : World) (t : Task) (g : Nat) (st : Stage) : Run :=
  let d := Desc.ofBytes st.desc
  let e := w.envOf t g st.defs st.pc d
  let latch := fun (o : Opd) => if o.fmt.code = cF16S then
    { o with fmt := { o.fmt with s := st.slots.getD o.ix (w.num.slots.get {} o.fmt.slot).s } } else o
  { t := t, g := g, d := d, e := e, recs := st.recs, os := (opdsOf e d st.recs).map latch, tiles := st.tiles, acc := st.cnt }

/-- A stage with the slot exponents of its operands latched, where they are not yet (R33, R39, R114 stage 5). -/
def World.latchSlots (w : World) (t : Task) (g : Nat) (st : Stage) : Stage :=
  if st.slots.isEmpty then { st with slots := (w.runOf t g st).os.map (·.fmt.s) } else st

/-- Records the result of an operation that has run, with its duration, a free value (R121). -/
def World.executed (w : World) (id : TaskId) (g : Nat) (r : OpRes) : World :=
  let w' := { w with sec := { w.sec with used := w.sec.used + 1 } }
  w'.updStage id g (fun s => { s with phase := .executed { r with ns := satTo 32 (Config.freeNs w.sec.used), preempted := s.preempted } })

/-- A task's stage moves on: its cores have reached a pre-emption point since they were switched in (R143), and the time from a
pre-emption that the task asked for to its first operation is measured (R136). -/
def World.begun (w : World) (t : Task) (g : Nat) : World :=
  let took := match t.asked with | some a => satTo 32 (w.now - a) | none => 0
  let w := w.updTask t.id (fun t => { t with fresh := t.fresh.filter (fun c => !(t.stageCores g).contains c), asked := none })
  { w with sched := { w.sched with longest := max w.sched.longest took } }

/-- Readies the operation of a stage whose wait is over: it asks for remote data that is missing, stops on poison or on an
access that its tenant may not make, or is to run now, which the second part then says (R114 stage 5). -/
def World.gather (w : World) (t : Task) (g : Nat) (st : Stage) (reads : World → Run → List (List Region)) : World × Option Run :=
  let st := w.latchSlots t g st
  let r := w.runOf t g st
  let rs := reads w r
  let ms := w.firstMissing st.since rs
  let w := w.updTask t.id (fun t => { t with job := t.job || rs.flatten.any (fun x => match x.loc with | .far _ => true | _ => false) })
  let w := w.updStage t.id g (fun s => { s with slots := st.slots })
  if !ms.isEmpty then ((w.updStage t.id g (fun s => { s with phase := .granted })).fetchAll st.since ms, none)
  else match w.poisoned rs.flatten with
    | some cause => (w.poisonStop ((w.task? t.id).getD t) g cause r.d.tag, none)
    | none =>
      if r.writesFar && w.readsSealed r && !w.hasLinkSecret then (w.executed t.id g (OpRes.plain 0x0701 r.d.tag), none)
      else (w.begun t g, some r)

/-- Whether an operation uses the job: a collective, SCALEUPD among them (R81), a global semaphore or a remote address (R223). -/
def Run.usesJob (r : Run) : Bool :=
  isCollective r.d.opc || r.d.opc == 0x41 || (r.d.wen && r.d.wgl) || (r.d.pen && r.d.pgl) || r.writesFar ||
    r.os.any (fun o => o.shape != .none && (match o.place with | some (.far _, _) => true | _ => false))

/-- The status that stops a job's operation while its job restarts or after it has failed (R223, R226). -/
def World.jobStop (w : World) (r : Run) : Option Nat :=
  if !w.multi || !r.usesJob then none
  else if w.link.jobState = 5 then some 0x0512
  else if w.link.jobState = 3 ∨ w.link.jobState = 1 then some 0x0510
  else none

/-- A stage with its descriptor, its tag records and the default objects latched (R33, R54, R113). -/
def World.latch (w : World) (t : Task) (g : Nat) (st : Stage) (bs : Bytes) : Stage :=
  let d := Desc.ofBytes bs
  { st with desc := bs, recs := w.recsOf t g (w.envOf t g w.defaults st.pc d) d, defs := w.defaults }

/-- Whether an operation in the final stage of a step is the first to mark the step's phase (R177). -/
def World.atMark (w : World) (t : Task) (g opc : Nat) : Bool := marksPhase opc && g + 1 == t.stages && (w.step? t.id).elim false (fun x => !x.marked)

/-- The status of an agreed abandon of a task's step that has not acted at a boundary, so that it acts at the phase mark
(R28, R29, R200). -/
def World.dueAbandon (w : World) (t : Task) : Option Nat :=
  (w.step? t.id).bind (fun s => if s.agreed && !s.committed then s.abandon else none)

/-- An operation that passes its checks enters execution: its step is past the phase mark where the operation marks it
(R177), its stage is latched, its cores' L1 lines go, and an acquire fence drops held remote lines (R158, R162). -/
def World.enterOp (w : World) (t : Task) (g : Nat) (st : Stage) (d : Desc) : World :=
  let w := if w.atMark t g d.opc then w.updStep t.id (fun x => { x with marked := true }) else w
  let w := w.updStage t.id g (fun _ => st)
  let w := { w with mem := { w.mem with l1 := w.mem.l1.mapAll [] (fun c ls => if (t.stageCores g).contains c then [] else ls) } }
  let w := if d.acquire then { w with mem := w.mem.acquire } else w
  w.updStage t.id g (fun s => { s with since := w.mem.farSeq })

/-- Whether a local range lies in one of some areas. -/
def Region.inside (x : Region) (areas : List (Nat × Nat)) : Bool :=
  x.loc != .here || x.len == 0 || areas.any (fun a => decide (a.1 ≤ x.addr) && decide (x.addr + x.len ≤ a.1 + a.2))

/-- Whether a local range shares a byte with one of some areas. -/
def Region.touches (x : Region) (areas : List (Nat × Nat)) : Bool := areas.any (fun a => x.meets ⟨.here, a.1, a.2⟩)

/-- The checks of R17, which end with TENANT_ACCESS (DEDUCED, log entry 83): a step writes to this engine's memory only in its
shadow generation, its tenant's saved-activation area and its scratch; and a serving task uses neither the generation that it did
not take, until a step has committed, nor what an uncommitted step of its tenant writes. -/
def World.confineFails (w : World) (t : Task) (r : Run) : List Fail :=
  let ranges := fun (o : Opd) => if o.shape == .none || o.shape == .slotOnly then [] else o.region?.toList
  let written := (if hasOst r.d.opc && decide (cappedWdn r.e r.d ≠ 0) then r.e.region (r.d.par 24 6) (r.d.par 32 4) ++ r.e.region (r.d.par 36 6) 32 else []) ++
    (if isLayoutM r.d.opc && r.d.outl 3 == 2 then r.e.region (r.d.par 54 6) (sideLen (r.o 3).rows (min 64 (r.o 3).els)) else [])
  if t.kind = 1 then
    if r.d.opc = 0x54 ∨ r.d.opc = 0x56 then []
    else failIf ((ranges (r.o 3)).any (fun x => !x.inside t.own)) (addrPos 3) 0x0701 ++ failIf (written.any (fun x => !x.inside t.own)) 512 0x0701
  else if t.ctx.isSome then
    let open_ := w.train.steps.any (fun s => some s.tenant == t.tenant && !s.committed)
    let closed := t.shut ++ if open_ then t.veiled else []
    r.os.flatMap (fun o => failIf ((ranges o).any (·.touches closed)) (addrPos o.ix) 0x0701) ++
      failIf (written.any (·.touches closed)) 512 0x0701
  else []

/-- The status that the checks of an operation end with, if any (R13, R114 stage 2). -/
def World.checkOp (w : World) (t : Task) (g : Nat) (st : Stage) (extra : World → Run → List Fail) : Option Nat :=
  let d := Desc.ofBytes st.desc
  let r := w.runOf t g st
  checkDesc (w.envOf t g w.defaults st.pc d) d st.recs (w.peek t g) (w.tenantOk t.tenant)
    (w.orderFails t g d ++ w.confineFails t r ++ extra w r)

/-- A refused operation: it has no effect but its report (R114). -/
def World.refuseOp (w : World) (t : Task) (g : Nat) (st : Stage) (status : Nat) : World :=
  w.updStage t.id g (fun _ => { st with phase := .executed { OpRes.plain status (Desc.ofBytes st.desc).tag with refused := true } })

/-- The stages of R114 up to the execution of the operation at a ready stage, whose descriptor is `bs`. -/
def World.startOp (w : World) (t : Task) (g : Nat) (st : Stage) (bs : Bytes) (extra : World → Run → List Fail)
    (reads : World → Run → List (List Region)) : World × Option Run :=
  let d := Desc.ofBytes bs
  let cr := w.checkReads t g (w.envOf t g w.defaults st.pc d) d
  match w.poisoned (⟨.here, st.pc, bs.length⟩ :: cr.flatten) with
  | some cause => (w.poisonStop t g cause d.tag, none)
  | none =>
    if w.atMark t g d.opc && !t.othersOver g then (w.updStage t.id g (fun x => { x with phase := .markHeld }), none)
    else if w.atMark t g d.opc && (w.dueAbandon t).isSome then (w.finishAfter t ((w.dueAbandon t).getD 0), none)
    else if !(w.firstMissing st.since cr).isEmpty then (w.fetchAll st.since (w.firstMissing st.since cr), none)
    else
      let st' := w.latch t g st bs
      match w.checkOp t g st' extra with
      | some status => (w.refuseOp t g st' status, none)
      | none =>
        let r := w.runOf t g st'
        let w := w.enterOp t g st' d
        match w.jobStop r with
        | some status => (w.executed t.id g (OpRes.plain status d.tag), none)
        | none =>
          let st' := { st' with since := w.mem.farSeq }
          if d.wen then
            match w.waitSem t g d.wgl d.wsem with
            | (w, true) => w.gather t g st' reads
            | (w, false) => (w.begun t g, none)
          else w.gather t g st' reads

/-- The operation that the command of a row reaches: that of the stage, where it is to execute now. An operation that is not
pre-empted inside needs all the cores of its stage (R137). -/
def World.reach (w : World) (q s g opc : Nat) (mods : Nat → Bool) (extra : World → Run → List Fail)
    (reads : World → Run → List (List Region)) : World × Option Run :=
  match w.task? ⟨q, s⟩ with
  | none => (w, none)
  | some t =>
    match t.stgs[g]? with
    | none => (w, none)
    | some st =>
      let mine := fun (bs : Bytes) =>
        let d := Desc.ofBytes bs
        d.opc == opc && mods d.mod && (d.preClass != .whole || t.stageOn g)
      if !w.canRun t g st then (w, none)
      else match st.phase with
        | .granted | .holders _ | .part => if mine st.desc then w.gather t g st reads else (w, none)
        | .retry =>
          if mine st.desc then
            match w.waitSem t g (Desc.ofBytes st.desc).wgl (Desc.ofBytes st.desc).wsem with
            | (w, true) => w.gather t g st reads
            | (w, false) => (w.begun t g, none)
          else (w, none)
        | .ready =>
          match w.fetchDesc st.pc with
          | none => (w, none)
          | some bs => if mine bs then w.startOp t g st bs extra reads else (w, none)
        | _ => (w, none)

/-- The part of an operation that a command runs. With no points named, and nothing in the way, it runs the whole, or what is left;
otherwise each core of the stage that runs goes on to the points named for it, and one that must leave only to its first
(R68, R115, R137, R143). -/
def World.spanOf (w : World) (r : Run) (st : Stage) (pts : List Nat) : Option Span :=
  let press := r.t.preempt || w.mustLeave r.t
  if r.d.preClass == .whole || (pts.isEmpty && r.cores.all r.t.on && !press && st.pts.isEmpty) then none
  else
    let done := fun i => st.pts.getD i 0
    some {
      start := (List.range r.cores.length).map done
      goal := r.cores.zipIdx.map (fun (c, i) =>
        if !r.t.on c || (press && !r.t.fresh.contains c) then some (done i)
        else if press then some (done i + 1)
        else (pts[i]?).map (fun k => max k (done i))) }

/-- What the command of an operation's row finds: the operation of the stage is to execute now, as the second part says; or it
stops, waits, or cannot run. `extra` gives the checks of the opcode's own rule, `reads` the ranges it reads, `mods` the
modifiers of the command's row, and `pts` the pre-emption points to run on to (R114, R115). -/
def World.prepare (w : World) (q s g : Nat) (pts : List Nat) (opc : Nat) (mods : Nat → Bool) (extra : World → Run → List Fail)
    (reads : World → Run → List (List Region)) : World × Option Run :=
  match w.reach q s g opc mods extra reads with
  | (w', some r) => (w', some { r with part := w.spanOf r ((((w'.task? r.t.id).bind (fun t => t.stgs[r.g]?))).getD {}) pts })
  | (w', none) => (w', none)

/-- The points that each core has reached when a part has run. -/
def Run.reached (r : Run) : List Nat :=
  match r.part with
  | none => []
  | some p => (List.range r.cores.length).map (fun c => (p.goal.getD c none).getD (cdiv (r.share c) r.d.quantum))

/-- The operation stands at a pre-emption point inside it, with its points and its counts so far (R69, R73). -/
def World.pause (w : World) (r : Run) (pts : List Nat) (c : Cnt) : World :=
  w.updStage r.t.id r.g (fun s => { s with phase := .part, pts := pts, cnt := r.acc.add c })

/-- Runs the part of an operation that a command names. The rule of a piecewise operation acts on its part; that of another of the
els class acts when the last element is done; a dot product keeps its own tiles. -/
def World.advance (run : World → Run → World × Done) (w : World) (r : Run) : World × Done :=
  if r.part.isNone || r.d.preClass == .tiles then run w r
  else if r.toEnd then
    let (w, d) := run w (if r.d.piecewise then r else { r with part := none })
    (w, d.map (OpRes.plus · r.acc))
  else if r.d.piecewise then
    let (w, d) := run w r
    (w.pause r r.reached (d.elim {} (fun res => ⟨res.sat, res.flush⟩)), none)
  else (w.pause r r.reached {}, none)

/-- Executes an operation that has been readied; its rule either answers a result, or has set the stage's phase itself. -/
def World.execute (run : World → Run → World × Done) (w : World) (r : Run) : World :=
  match World.advance run w r with
  | (w', some res) => w'.executed r.t.id r.g res
  | (w', none) => w'

/-- Starts the operation at a stage's address, or goes on with it after its wait or at a pre-emption point (R114). Nothing happens
where the stage cannot run it now. -/
def World.operate (w : World) (q s g : Nat) (pts : List Nat) (opc : Nat) (mods : Nat → Bool) (extra : World → Run → List Fail)
    (reads : World → Run → List (List Region)) (run : World → Run → World × Done) : World :=
  match w.prepare q s g pts opc mods extra reads with
  | (w, some r) => w.execute run r
  | (w, none) => w

/-- The reads of an operation that reads whole operands. -/
def wholeReads (_ : World) (r : Run) : List (List Region) := [r.reads]

/-- Every modifier: of an opcode with one row. -/
def anyMod (_ : Nat) : Bool := true

/-- The modifier of one row of an opcode with `n` of them; row 0 also takes the modifiers that no row has, which are refused
(Table 5.3). -/
def modIs (n m v : Nat) : Bool := v == m || (m == 0 && decide (n ≤ v))

/-- No checks beyond those of every operation. -/
def noExtra (_ : World) (_ : Run) : List Fail := []

end Sys2Proof.Machine
end

