-- ==== Sys2Proof/Machine/Votes.lean ====
section
/-! DEFINITION. Votes over the fixed tree (R25, R26, R216, R217, R218, R225). -/

namespace Sys2Proof.Machine

/-- The content of a vote message: kind, direction, status and value (log entry 24). -/
def voteBytes (kind : Nat) (down : Bool) (status value : Nat) : Bytes :=
  [byteOf kind, if down then 1#8 else 0#8] ++ leBytes 2 status ++ leBytes 4 value

/-- A vote of this engine by its kind and value. -/
def World.vote? (w : World) (kind value : Nat) : Option Vote := w.job.votes.find? (fun v => v.kind == kind && v.value == value)

/-- The collective ID and sequence that a vote's messages carry: those of a barrier (R219). -/
def World.voteAddr (w : World) (kind value : Nat) : Nat :=
  if kind = 3 then ((w.vote? kind value).elim 0 (·.id)) + 2 ^ 32 * (value % 2 ^ 16) else 0

/-- Sends a vote to a logical engine over the collective channel (R217). -/
def World.sendVote (w : World) (l kind : Nat) (down : Bool) (status value : Nat) : World :=
  w.messageTo mVote 2 l 0 (w.voteAddr kind value) (voteBytes kind down status value)

/-- Sends a vote down the tree to this engine's children (R216). -/
def World.voteDown (w : World) (kind status value : Nat) : World :=
  (downChildren w.link.jobSize w.link.logical).foldl (fun w l => w.sendVote l kind true status value) w

/-- Changes a vote, making it where it is missing. -/
def World.updVote (w : World) (kind value : Nat) (f : Vote → Vote) : World :=
  let vs := w.job.votes
  let vs := if (w.vote? kind value).isSome then vs else vs ++ [({ kind := kind, value := value } : Vote)]
  { w with job := { w.job with votes := vs.map (fun v => if v.kind == kind && v.value == value then f v else v) } }

/-- Forgets a vote. -/
def World.dropVote (w : World) (kind value : Nat) : World :=
  { w with job := { w.job with votes := w.job.votes.filter (fun v => !(v.kind == kind && v.value == value)) } }

/-- This engine's own vote, for a stage that waits for the answer; the task takes part in the job from then on. -/
def World.castVote (w : World) (kind value id : Nat) (task : TaskId) (stage status : Nat) : World :=
  (w.updTask task (fun t => { t with job := true })).updVote kind value (fun v => { v with own := some status, id := id, task := task, stage := stage })

/-- A vote of a child of the tree. An admission vote shows that what the child voted before on a commit of the same
tenant is over (R200). -/
def World.hearVote (w : World) (kind value id src status : Nat) : World :=
  let w := if kind ≠ 0 then w else { w with job := { w.job with votes := w.job.votes.map (fun (v : Vote) =>
    if v.kind == 1 && v.value == value then { v with got := v.got.filter (fun g => decide (g.1 ≠ src)) } else v) } }
  w.updVote kind value (fun v => { v with
    got := v.got.filter (fun g => decide (g.1 ≠ src)) ++ [(src, status)]
    id := if v.own.isSome then v.id else id })

/-- Whether an engine and all its children have voted. -/
def Vote.ready (v : Vote) (n me : Nat) : Bool :=
  v.own.isSome && !v.sent && (childrenOf n me).all (fun c => v.got.any (fun g => g.1 == c))

/-- The combined status: the refusal of the lowest logical ID (R25, R217). For the ceilings, the least (R233). -/
def Vote.combined (v : Vote) (n me : Nat) : Nat :=
  let all := v.own.toList ++ (childrenOf n me).filterMap (fun c => (v.got.find? (fun g => g.1 == c)).map (·.2))
  if v.kind = 6 then all.foldl (fun a b => min (a % 16) (b % 16) + 16 * min (a / 16) (b / 16)) (v.own.getD 0) else (all.find? (fun s => decide (s ≠ 0))).getD 0

/-- Combines a vote that is ready: sends it up, or at the root answers it and forgets it. -/
def World.tally (w : World) (kind value : Nat) : World × Option Vote :=
  match w.vote? kind value with
  | none => (w, none)
  | some v =>
    let n := w.link.jobSize
    let me := w.link.logical
    if !v.ready n me then (w, none)
    else
      let st := v.combined n me
      if me = 0 then (w.dropVote kind value, some { v with own := some st })
      else ((w.sendVote (parentOf me) kind false st value).updVote kind value (fun v => { v with sent := true }), none)

/-- The staged checkpoint becomes the last one, with its step counter and its address (R225). -/
def World.adoptCkpt (w : World) (task : TaskId) : World :=
  match w.job.ckNext with
  | none => w
  | some c =>
    if c.task != task then w
    else { w with
      job := { w.job with ckpt := some c, ckNext := none }
      link := { w.link with ckStep := c.stepCtr, ckAddr := (c.tenants.getLast?).elim 0 (fun t => t.2.1) } }

/-- The staged checkpoint of a task is given up: the previous one stands (R225). -/
def World.dropCkpt (w : World) (task : TaskId) : World :=
  if w.job.ckNext.any (fun c => c.task == task) then { w with job := { w.job with ckNext := none } } else w

end Sys2Proof.Machine
end

