-- ==== Sys2Proof/Machine/OpComplete.lean ====
section
/-! DEFINITION. How an operation completes and how a task ends (R101, R103, R106, R114 stages 7 to 10, R121, R122, R178,
R199, R200). -/

namespace Sys2Proof.Machine

/-! The end of a task. -/

/-- The uncommitted steps of a tenant on this engine. -/
def World.openSteps (w : World) (tenant : Nat) : List Step := w.train.steps.filter (fun s => s.tenant == tenant && !s.committed)

/-- An agreed abandon of a tenant's step acts here: at once after the phase mark or where the task has already stopped,
and otherwise at the next boundaries (R200). -/
def World.applyAbandon (w : World) (tenant status : Nat) : World :=
  (w.openSteps tenant).foldl (fun w s =>
    match w.task? s.task with
    | none => w
    | some t =>
      if s.marked || t.stop.isSome then w.finishAfter t status
      else w.updStep s.task (fun s => { s with abandon := some status, agreed := true })) w

/-- An abandon reaches the root of the tree: engine 0 sends it down (R200). -/
def World.agreeAbandon (w : World) (tenant status : Nat) : World :=
  if (w.openSteps tenant).all (·.agreed) then w else ((w.voteDown 2 status tenant).dropVote 1 tenant).applyAbandon tenant status

/-- An abandon goes up the tree, or is decided here (R200). -/
def World.abandonUp (w : World) (tenant status : Nat) : World :=
  if w.link.logical = 0 then w.agreeAbandon tenant status
  else w.sendVote (parentOf w.link.logical) 2 false status tenant

/-- A checkpoint task ends: on one engine its checkpoint stands at once, and in an ensemble the engines vote (R225). -/
def World.endCkpt (w : World) (t : Task) (status : Nat) : World :=
  if w.multi then
    match w.vote? 4 w.train.stepCtr with
    | some v =>
      if v.own.isSome then w
      else (w.updTask t.id (fun t => { t with stop := some status })).castVote 4 w.train.stepCtr 0 t.id 0 status
    | none => (w.updTask t.id (fun t => { t with stop := some status })).castVote 4 w.train.stepCtr 0 t.id 0 status
  else if status = 0 then (w.adoptCkpt t.id).finishAfter t status
  else (w.dropCkpt t.id).finishAfter t status

/-- A task ends with a status. A step of an ensemble that has not committed first asks for the abandon of R200; its task
stays stopped until the answer comes. A checkpoint task of an ensemble first votes (R225). -/
def World.endTask (w : World) (t : Task) (status : Nat) : World :=
  let now := decide (status / 256 = 5) || (status / 256 == 4 && t.job)
  if t.closing.isSome then w
  else match w.step? t.id with
  | none => if t.kind = 2 && !now then w.endCkpt t status else w.finishAfter t status
  | some s =>
    if s.committed then w.finishAfter t 0
    else if w.multi && !now then
      if s.abandon.isSome && !s.agreed then w.updTask t.id (fun t => { t with stop := some (t.stop.getD status) })
      else
        let w := w.updStep t.id (fun s => { s with abandon := some status, agreed := false })
        (w.updTask t.id (fun t => { t with stop := some status })).abandonUp s.tenant status
    else w.finishAfter t status

/-- The status of a task whose stages have all ended (R120, R122, Table 1.3). -/
def World.endStatus (w : World) (t : Task) : Nat :=
  if t.kind = 1 then (if (w.step? t.id).elim false (·.committed) then 0 else 0x080B) else t.worst

/-! The completion of an operation. -/

/-- Drops the lines of an operation's dead inputs (R106, R156). -/
def World.applyMarks (w : World) (r : Run) : World :=
  (r.os.take 3).foldl (fun w o =>
    if r.d.dead o.ix then
      match o.place with
      | some (.here, a) => { w with mem := w.mem.dropExtent r.cores r.d.edge false a o.ext }
      | some (.far l, a) => { w with mem := w.mem.dropExtent r.cores r.d.edge true (farAddr l a) o.ext }
      | _ => w
    else w) w

/-- Whether an operation's completion is a micro-batch boundary (R178). -/
def World.isBoundary (w : World) (t : Task) (d : Desc) : Bool :=
  t.kind == 1 && (w.step? t.id).elim false (fun s => !s.marked) && ((d.pen && !d.pgl) || d.opc == 0x01)

/-- Remote data delivered for operations is forgotten once no operation waits for any (R161). -/
def World.clearGiven (w : World) : World :=
  if w.sched.tasks.any (fun t => t.stgs.any (fun s => s.phase == .granted)) then w else { w with mem := { w.mem with given := [] } }

/-- The last stages of R114: the totals, the report, and the next descriptor or the end of the stream. -/
def World.closeOp (w : World) (t : Task) (g : Nat) (st : Stage) (d : Desc) (res : OpRes) : World :=
  let bnd := w.isBoundary t d && goesOn res.status
  let hold := bnd && (w.step? t.id).elim false (fun s => s.abandon.isSome)
  let w := (w.addTotals res).writeReport t g st.index d.rpt res
  let past := d.opc == 0x01 && goesOn res.status
  let len := if d.px ∧ st.desc.length = 128 then 128 else 64
  let w := w.updTask t.id (fun t => { t with worst := if res.status / 256 = 3 then max t.worst res.status else t.worst })
  let w := w.updStage t.id g (fun s => { s with
    phase := if past then .ended else .ready
    pc := if past then s.pc else if d.opc = 0x02 && goesOn res.status then d.addr 0 % 2 ^ 40 else s.pc + len
    index := s.index + 1
    slots := []
    pts := []
    tiles := []
    cnt := {}
    preempted := false
    boundary := hold })
  let w := w.clearGiven.settle t.id
  match w.task? t.id with
  | none => w
  | some t' =>
    if !goesOn res.status then w.endTask t' res.status
    else if t'.stgs.all (·.phase.past) then w.endTask t' (w.endStatus t')
    else w

/-- Whether closing an operation ends the task, so that the completion's own release applies (R159). -/
def endsTask (t : Task) (g : Nat) (d : Desc) (res : OpRes) : Bool :=
  !goesOn res.status || (d.opc == 0x01 && t.othersOver g)

/-- The post of an operation (R103, R138, R140, R214). The second part is whether the home engine must answer first. -/
def World.postOp (w : World) (t : Task) (g : Nat) (r : Run) (res : OpRes) : World × OpRes × Bool :=
  let n := r.d.psem
  let refused := { res with status := 0x0809 }
  let core := (t.stageCores g).headD 0
  if !r.d.pen then (w, res, false)
  else if r.d.opc = 0x65 && !r.d.pgl then
    match (r.o 3).place with
    | some (.far l, a) =>
      match w.nodeOf l with
      | none => (w, res, false)
      | some node =>
        let (w, tag) := w.takeTag
        let (w, m) := w.messageBytes mPost node tag (farAddr l a) ([byteOf n, byteOf t.id.queue] ++ leBytes 2 t.slot ++ [byteOf core]) false
        (w.request node m, res, true)
    | _ =>
      let (w, ok) := w.postSem false n 0xFF (some t.id)
      (w, if ok then res else refused, false)
  else if r.d.pgl then
    let w := w.updTask t.id (fun t => { t with job := true, owns := t.owns.filter (· != n) })
    if w.semHere then
      let (w, ok) := w.postSem true n w.link.logical (some t.id)
      (w, if ok then res else refused, false)
    else
      match w.nodeOf w.sched.semHome with
      | none => (w.jobFault 8 w.node srcMgmt 0, { res with status := 0x0510 }, false)
      | some _ => ((w.semMsg w.sched.semHome 1 n t.id.queue t.slot core t.rank).returnRank t.id true n, res, true)
  else
    let (w, ok) := w.postSem false n 0xFF (some t.id)
    (w, if ok then res else refused, false)

/-- Completes the operation of a stage (R114 stages 7 to 10). An opcode that Table 5.11 lacks, and a fetch outside the
usable map, are refused here (R115, R146). -/
def World.completeOp (w : World) (q s g : Nat) : World :=
  let id : TaskId := ⟨q, s⟩
  match w.task? id with
  | none => w
  | some t =>
    match t.stgs[g]? with
    | none => w
    | some st =>
      match st.phase with
      | .executed res =>
        let r := w.runOf t g st
        if !w.coresRun then w
        else if !(t.stageCores g).any t.on && goesOn res.status then w
        else if w.unacked id && (r.d.release || endsTask t g r.d res) then w
        else if res.refused || !goesOn res.status then w.closeOp t g st r.d res
        else
          let (w, res, wait) := (w.applyMarks r).postOp t g r res
          if wait then w.updStage id g (fun s => { s with phase := .posting res }) else w.closeOp t g st r.d res
      | .ready =>
        if !w.canRun t g st then w
        else
          match w.fetchDesc st.pc with
          | none => w.closeOp t g st ⟨0⟩ { OpRes.plain 0x0807 0 with refused := true }
          | some bs =>
            let d := Desc.ofBytes bs
            if (opInfo d.opc).isSome then w
            else match w.poisoned [⟨.here, st.pc, bs.length⟩] with
              | some cause => w.poisonStop t g cause d.tag
              | none => (w.updStage id g (fun s => { s with desc := bs })).closeOp t g { st with desc := bs } d { OpRes.plain 0x0806 d.tag with refused := true }
      | _ => w

/-- The home engine has answered a post: the operation completes (R103). -/
def World.posted (w : World) (id : TaskId) (g : Nat) (ok : Bool) : World :=
  match w.task? id with
  | none => w
  | some t =>
    match t.stgs[g]? with
    | some st =>
      match st.phase with
      | .posting res => w.closeOp t g st (Desc.ofBytes st.desc) (if ok then res else { res with status := 0x0809 })
      | _ => w
    | none => w

end Sys2Proof.Machine
end

