-- ==== Sys2Proof/Machine/OpMove.lean ====
section
/-! DEFINITION. Control and movement operations: NOP to PREFETCH of Table 5.11 (R100, R106, R115, R118, R163). -/

namespace Sys2Proof.Machine

/-- An operation's row: the operation of stage `g` of task `q`, `s` starts, or goes on after its wait or at a pre-emption point
(R114), to the points `pts` or to its end. -/
def State.operate (st : State) (q s g : Nat) (pts : List Nat) (opc : Nat) (mods : Nat → Bool) (extra : World → Run → List Fail)
    (reads : World → Run → List (List Region)) (run : World → Run → World × Done) : Host.Outcome State Fault Refusal :=
  .next (st.onW (fun w => w.operate q s g pts opc mods extra reads run))

/-- An effect that does nothing (R115: NOP, and DROP, whose mark acts at completion). -/
def runNothing (w : World) (r : Run) : World × Done := (w, some r.ok)

/-- Moves an operand's bytes unchanged, those of the part that runs (R118). -/
def runBytes (w : World) (r : Run) : World × Done :=
  let (i, j) := r.bytesIn (r.o 0).ext
  match (r.o 3).place with
  | some (l, a) => (w.put r l (a + i) (slice (w.opdBytes (r.cores.headD 0) (r.o 0)) i (j - i)) (fun _ => 0), some r.ok)
  | none => (w, some r.ok)

/-- TSTAMP: the timestamp of R8 at execution. -/
def runTstamp (w : World) (r : Run) : World × Done :=
  match (r.o 3).place with
  | some (l, a) => (w.put r l a (leBytes 8 w.now) (fun _ => 0), some r.ok)
  | none => (w, some r.ok)

/-- FILL: V1 converted to every element of D. -/
def runFill (w : World) (r : Run) : World × Done :=
  let o := r.o 3
  let (w, c) := w.writeConv r o (List.replicate o.rows (List.replicate o.els (r.d.parF 0)))
  (w, some (r.counted c))

/-- The bytes of one row of an operand as one core reads them. -/
def World.rowBytesAt (w : World) (core : Nat) (o : Opd) (i : Nat) : Bytes :=
  match o.place with
  | some (l, a) => w.readAt core l (a + i * pitch o.fmt o.els) (rowBytes o.fmt o.els)
  | none => zeros (rowBytes o.fmt o.els)

/-- Writes one row of a tensor, and zeros up to the next row's start (R109). -/
def World.putRow (w : World) (r : Run) (o : Opd) (core i : Nat) (bs : Bytes) : World :=
  match o.place with
  | some (l, a) =>
    let pad := if i + 1 < o.rows then pitch o.fmt o.els - bs.length else 0
    w.put r l (a + i * pitch o.fmt o.els) (bs ++ zeros pad) (fun _ => core)
  | none => w

/-- Index `i` of the index operand B, as the core of row `i` reads it. -/
def World.indexAt (w : World) (r : Run) (i : Nat) : Int :=
  match (r.o 1).place with
  | some (l, a) => toSigned 32 (leVal (w.readAt (r.cores.getD (rowCore r.cores.length i) 0) l (a + 4 * i) 4))
  | none => 0

/-- Whether an index names one of N rows (R118). -/
def indexOk (n : Nat) (i : Int) : Bool := decide (0 ≤ i) && decide (i < n)

/-- GATHER: row i of D from row B[i] of A; an index out of range gives zeros and counts (R118). -/
def runGather (w : World) (r : Run) : World × Done :=
  let a := r.o 0
  let ix := ((List.range r.d.m).filter (r.rowIn (rowBytes a.fmt a.els))).map (fun i => (w.indexAt r i, i))
  let w' := ix.foldl (fun w' (x, i) =>
    let c := rowCore r.cores.length i
    let bs := if indexOk r.d.n x then w.rowBytesAt (r.cores.getD c 0) a x.toNat else zeros (rowBytes a.fmt a.els)
    w'.putRow r (r.o 3) c i bs) w
  (w', some (r.counted { sat := ix.countP (fun x => !indexOk r.d.n x.1) }))

/-- What GATHER reads: the indices, then the rows of A that they name. -/
def gatherReads (w : World) (r : Run) : List (List Region) :=
  let a := r.o 0
  let rows := (List.range r.d.m).flatMap (fun i =>
    let x := w.indexAt r i
    match a.place with
    | some (l, ad) => if indexOk r.d.n x then [(⟨l, ad + x.toNat * pitch a.fmt a.els, rowBytes a.fmt a.els⟩ : Region)] else []
    | none => [])
  [(r.o 1).region?.toList, rows]

/-- SCATTER: row i of A to row B[i] of D in ascending i; an index out of range is skipped and counts (R118). -/
def runScatter (w : World) (r : Run) : World × Done :=
  let a := r.o 0
  let ix := ((List.range r.d.m).filter (r.rowIn (rowBytes a.fmt a.els))).map (fun i => (w.indexAt r i, i))
  let w' := ix.foldl (fun w' (x, i) =>
    let c := rowCore r.cores.length i
    if indexOk r.d.n x then w'.putRow r (r.o 3) c x.toNat (w.rowBytesAt (r.cores.getD c 0) a i) else w') w
  (w', some (r.counted { sat := ix.countP (fun x => !indexOk r.d.n x.1) }))

/-- TRANSPOSE: element codes moved unchanged from M × K to K × M (R118). -/
def runTranspose (w : World) (r : Run) : World × Done :=
  let a := r.o 0
  let o := r.o 3
  let bits := elBits a.fmt.code
  let w' := ((List.range o.rows).filter (r.rowIn (rowBytes o.fmt o.els))).foldl (fun w' j =>
    let c := rowCore r.cores.length j
    let col := (List.range a.rows).map (fun i => (unpack bits (w.rowBytesAt (r.cores.getD c 0) a i)).getD j 0)
    w'.putRow r o c j (pack bits col)) w
  (w', some r.ok)

/-- What PREFETCH asks other engines for; it consumes nothing (R163). -/
def prefetchReads (_ : World) (r : Run) : List (List Region) :=
  [(r.o 0).region?.toList.filter (fun x => match x.loc with | .far _ => true | _ => false)]

/-- PREFETCH: the sectors of A become valid in the slices (R148, R163). -/
def runPrefetch (w : World) (r : Run) : World × Done :=
  match (r.o 0).place with
  | some (.here, a) =>
    let (i, j) := r.bytesIn (r.o 0).ext
    ({ w with mem := (linesOf (a + i) (j - i)).foldl (fun m la => m.touch la (touchMask la (a + i) (j - i)) 0) w.mem }, some r.ok)
  | _ => (w, some r.ok)

/-! The meanings. -/

/-- NOP (R115). -/
def execNopOp (q s g : Nat) (st : State) : Host.Outcome State Fault Refusal :=
  st.operate q s g [] 0x00 anyMod noExtra wholeReads runNothing

/-- JUMP: the stream continues at A (R100); the completion moves the stage there. -/
def execJumpOp (q s g : Nat) (st : State) : Host.Outcome State Fault Refusal :=
  st.operate q s g [] 0x02 anyMod noExtra wholeReads runNothing

/-- TSTAMP (R8, R115). -/
def execTstamp (q s g : Nat) (st : State) : Host.Outcome State Fault Refusal :=
  st.operate q s g [] 0x03 anyMod noExtra wholeReads runTstamp

/-- DROP: only the dead-block mark of A, at completion (R106). -/
def execDropOp (q s g : Nat) (st : State) : Host.Outcome State Fault Refusal :=
  st.operate q s g [] 0x04 anyMod noExtra wholeReads runNothing

/-- COPY (R118). -/
def execCopyOp (q s : Nat) (r : StageRun) (st : State) : Host.Outcome State Fault Refusal :=
  st.operate q s r.stage r.upto 0x10 anyMod noExtra wholeReads runBytes

/-- FILL (R115). -/
def execFillOp (q s : Nat) (r : StageRun) (st : State) : Host.Outcome State Fault Refusal :=
  st.operate q s r.stage r.upto 0x11 anyMod noExtra wholeReads runFill

/-- LOADS (R118). -/
def execLoads (q s : Nat) (r : StageRun) (st : State) : Host.Outcome State Fault Refusal :=
  st.operate q s r.stage r.upto 0x12 anyMod noExtra wholeReads runBytes

/-- STORES (R118). -/
def execStores (q s : Nat) (r : StageRun) (st : State) : Host.Outcome State Fault Refusal :=
  st.operate q s r.stage r.upto 0x13 anyMod noExtra wholeReads runBytes

/-- GATHER (R118). -/
def execGather (q s : Nat) (r : StageRun) (st : State) : Host.Outcome State Fault Refusal :=
  st.operate q s r.stage r.upto 0x14 anyMod noExtra gatherReads runGather

/-- SCATTER (R118). -/
def execScatter (q s : Nat) (r : StageRun) (st : State) : Host.Outcome State Fault Refusal :=
  st.operate q s r.stage r.upto 0x15 anyMod noExtra wholeReads runScatter

/-- TRANSPOSE (R118). -/
def execTranspose (q s : Nat) (r : StageRun) (st : State) : Host.Outcome State Fault Refusal :=
  st.operate q s r.stage r.upto 0x16 anyMod noExtra wholeReads runTranspose

/-- PREFETCH (R115, R163). -/
def execPrefetch (q s : Nat) (r : StageRun) (st : State) : Host.Outcome State Fault Refusal :=
  st.operate q s r.stage r.upto 0x17 anyMod noExtra prefetchReads runPrefetch

end Sys2Proof.Machine
end

