-- ==== Sys2Proof/Machine/OpMatrix.lean ====
section
/-! DEFINITION. Matrix operations, reductions and CONVERT (R54 to R94, R107, R112; Table 5.11). -/

namespace Sys2Proof.Machine

/-! Scale slots as operations change them (R79, R184). -/

/-- Records how a slot stood before a step first touches it (R184). -/
def World.touchSlot (w : World) (id : TaskId) (n : Nat) : World :=
  w.updStep id (fun s => if s.slots.any (·.1 == n) then s else { s with slots := s.slots ++ [(n, w.num.slots.get {} n)] })

/-- The larger of two exponents, where empty is the smallest (R79). -/
def maxExp (a b : Option Int) : Option Int :=
  match a, b with
  | none, b => b
  | a, none => a
  | some x, some y => some (max x y)

/-- Records an observation in a slot (R79). -/
def World.observeSlot (w : World) (id : TaskId) (n : Nat) (ob : Obsv) : World :=
  let w := (w.touchSlot id n).updStep id (fun s => { s with observed := if s.observed.contains n then s.observed else s.observed ++ [n] })
  { w with num := { w.num with slots := w.num.slots.upd {} n (fun s => { s with
      pending := maxExp s.pending ob.exp
      nonfin := if ob.nonfin then sat32 s.nonfin 1 else s.nonfin }) } }

/-! Settings. -/

/-- Elements per group (Table 3.1, 0x3300:07). -/
def Run.group (r : Run) : Nat :=
  let g := if r.d.g = 0 then r.e.dflt 4 else r.d.g - 1
  if g = 0 then 4 else if g = 1 then 8 else 16

/-- Whether a multiplier operand is F32 (R56, R60): A, or B where there is one. -/
def Run.cut (r : Run) : Bool := [r.o 0, r.o 1].any (fun o => o.shape.isTensor && o.fmt.code == cF32)

/-- The arithmetic settings of a dot product (Table 3.1). -/
def Run.dotCfg (r : Run) : DotCfg :=
  { acc := r.d.acc, g := r.group, replay := r.d.accov == 2 || (r.d.accov == 0 && r.e.dflt 3 == 1),
    spl := match r.d.spl with | 0 => 0 | 1 => 64 | 2 => 256 | _ => 1024, p := r.d.psel + 1, cut := r.cut }

/-- The multiplier operands of a dot product: the one operand of a REDUCE (R60). -/
def Run.mulOps (r : Run) : List Opd := if r.d.opc = 0x23 then [r.o 0] else [r.o 0, r.o 1]

/-- The passes that the products of a group take (R56, Table 3.3): SUMSQ multiplies its operand by itself, and the 1 of SUM is one
piece. -/
def Run.passes (r : Run) : Nat :=
  let n := fun (i : Nat) => if (r.o i).fmt.code = cI16 then 2 else 1
  if r.cut then r.d.psel + 1
  else if r.d.opc = 0x23 then (if r.d.mod = 1 then 2 * n 0 - 1 else n 0)
  else n 0 + n 1 - 1

/-- The products that a lane forms in a cycle, by the wider operand's bits (Table 3.4). -/
def lanesRate (bits : Nat) (acc : Code) : Nat :=
  if 16 ≤ bits then (if acc = cF16 then 2 else 1) else if bits = 8 then (if acc = cF16 then 4 else 2) else 4

/-- The multiplier cycles of each group of one 16×16 unit (R60, R68); a group with a substituted element runs at the 16-bit row
(R90). `listed` holds the reduction indices that a side list names. -/
def Run.groupCosts (r : Run) (listed : List Nat) : List Nat :=
  let bits := (r.mulOps.map (fun o => min 16 (elBits o.fmt.code))).foldl max 4
  (List.range (cdiv r.d.k r.group)).map (fun i =>
    let n := min r.group (r.d.k - i * r.group)
    let wide := listed.any (fun c => decide (i * r.group ≤ c) && decide (c < i * r.group + n))
    r.passes * cdiv n (lanesRate (if wide then 16 else bits) r.d.acc))

/-- A vector of the parameter block as one core reads it: `n` four-byte codes, read as F32 or I32. -/
def World.vectorAt (w : World) (r : Run) (core off n : Nat) (int : Bool) : List XV :=
  match r.e.resolve (r.d.par off 6) with
  | some (l, a) =>
    let bs := w.readAt core l a (4 * n)
    (List.range n).map (fun i => decEl (if int then cI32 else cF32) 0 (leAt bs (4 * i) 4))
  | none => []

/-- The output-stage settings (Table 3.9) on one core of the stage, which reads staged vectors in its own staging SRAM (R108). -/
def World.ostCfg (w : World) (r : Run) (core : Nat) (int : Bool) : OstCfg :=
  let n := (r.o 3).els
  { bias := if r.d.bias then some (w.vectorAt r core 0 n int) else none
    scale := match r.d.scl with | 0 => none | 1 => some (List.replicate n (r.d.parF 12)) | _ => some (w.vectorAt r core 6 n false)
    act := r.d.act, lo := r.d.parF 16, hi := r.d.parF 20, rotc := if isMat r.d.opc then rotcLog r.d.rotc else 0 }

/-- Steps 1 to 3 of R72 over rows of accumulated values; `core i j` is the core number that runs element (i, j). -/
def World.ostRows (w : World) (r : Run) (int : Bool) (core : Nat → Nat → Nat) (rows : List (List AccVal)) : List (List XV) :=
  let cfgs := (if r.cores.isEmpty then [0] else r.cores).map (fun c => w.ostCfg r c int)
  rows.zipIdx.map (fun (row, i) => row.zipIdx.map (fun (v, j) => ostEl (cfgs.getD (core i j) {}) j v))

/-- The settings under which D is written (Table 4.1). -/
def World.outCfg (w : World) (r : Run) : OutCfg :=
  let o := r.o 3
  { fmt := o.fmt, k := o.els, satMode := r.satMode, ftz := r.ftz, rot := r.d.rot 3
    obs := hasOst r.d.opc && o.fmt.code == cF16S && !r.d.obs 3
    outl := r.d.outl 3
    statIdx := if r.d.outl 3 = 1 then (w.sideList r (r.cores.headD 0) o).idx else []
    outT := r.e.dflt 9, wdn := cappedWdn r.e r.d, k4 := r.e.dflt 6, k8 := r.e.dflt 7, k16 := r.e.dflt 8 }

/-! Writing an output. -/

/-- Writes a run of bytes at a global address. -/
def World.putAt (w : World) (r : Run) (ga off : Nat) (bs : Bytes) (owner : Nat → Nat) : World :=
  match r.e.resolve ga with
  | some (l, a) => w.put r l (a + off) bs owner
  | none => w

/-- Writes one attempt at an output: the first at D, a widened one in the alternate region (R87, R112). -/
def World.putAttempt (w : World) (r : Run) (first : Bool) (a : OutAttempt) (owner : ElFmt → Nat → Nat) : World :=
  let o := r.o 3
  if first then
    let w := match o.place with
      | some (l, ad) => w.put r l ad a.main (owner a.fmt)
      | none => w
    match a.side with
    | some bs => w.putAt r (r.d.par 54 6) 0 bs (fun _ => 0)
    | none => w
  else
    let w := w.putAt r (r.d.par 24 6) 0 a.main (owner a.fmt)
    match a.side with
    | some bs => w.putAt r (r.d.par 24 6) (alignUp (extent a.fmt o.rows o.els) 32) bs (fun _ => 0)
    | none => w

/-- Writes an output through R77, with its tag, its slot observation and its totals (R79, R86 to R88, R95). DESIGN CHOICE (log entry
79): a widened re-run takes the t3 values of the first attempt, also where C or A is identical to D, whose place the first
attempt has written by then. -/
def World.writeOutput (w : World) (r : Run) (t3 : List (List XV)) (flushed : Nat) (tot : DotTot) (owner : ElFmt → Nat → Nat) : World × Done :=
  let c := w.outCfg r
  let res := writeOut c t3
  let w := (res.attempts.zipIdx).foldl (fun w (a, i) => w.putAttempt r (i == 0) a owner) w
  let w := if c.wdn = 0 then w else w.putAt r (r.d.par 36 6) 0 [byteOf (res.final.fmt.code + 16 * res.steps)] (fun _ => 0)
  let w := match res.obsv with
    | some ob => w.observeSlot r.t.id (r.o 3).fmt.slot ob
    | none => w
  let w := { w with num := { w.num with
    reruns := sat32 w.num.reruns res.steps
    confWiden := if res.final.exceeded then sat32 w.num.confWiden 1 else w.num.confWiden
    confReplay := sat32 w.num.confReplay tot.ovTiles } }
  let f := res.final
  (w, some { r.counted { sat := f.cnt.sat, flush := f.cnt.flush + flushed } with
    sticky := res.sticky || decide (flushed ≠ 0), status := tot.status, ovf := tot.ovf, replays := tot.replays, promos := tot.promos
    widened := decide (res.steps ≠ 0), observed := res.obsv.isSome, code := f.fmt.code })

/-! MATMUL, MATMULT and CONV1D. -/

/-- The tile of an element, and the core number it is dealt to (R131). -/
def tileCore (r : Run) (i j : Nat) : Nat :=
  let (th, tw) := tileShape r.d.shp
  (i / th * cdiv (r.o 3).els tw + j / tw) % max 1 r.cores.length

/-- The core number that writes a byte of a tiled output. -/
def tileOwner (r : Run) (f : ElFmt) (off : Nat) : Nat :=
  let o := r.o 3
  let so := scaleOff f o.rows o.els
  if isX f.code && decide (so ≤ off) then
    let q := off - so
    tileCore r (q / max 1 (scaleRow f o.els)) (q % max 1 (scaleRow f o.els) * f.blk)
  else
    let p := max 1 (pitch f o.els)
    tileCore r (off / p) (min (off % p * 8 / elBits f.code) (o.els - 1))

/-- The element pairs of output (i, j) (Table 5.11). -/
def lanePairs (opc k i j : Nat) (a b : List (List El)) : List (El × El) :=
  let z : El := ⟨0, .zero false, false⟩
  if opc = 0x20 then (a.getD i []).zip (b.getD j [])
  else if opc = 0x21 then (a.getD i []).zip (b.map (fun r => r.getD j z))
  else (List.range k).map (fun x => ((a.getD (i + x) []).getD j z, (b.getD j []).getD x z))

/-- How many elements read as zero under FTZ where each reader of an operand has a copy of it: an element that any of them reads as
zero counts once (R44, R73). -/
def flushAny (ts : List (List (List El))) : Nat :=
  match ts with
  | [] => 0
  | t :: rest => (t.zipIdx.map (fun (row, i) => (row.zipIdx.countP (fun (e, j) =>
      e.flushed || rest.any (fun u => ((u.getD i [])[j]?).any (·.flushed)))))).sum

/-- A dot product's tiles in ascending index, each with its place in the result, and the rest that its run needs: which core number
runs output (i, j), the flushed inputs, and the reduction indices that side lists name. -/
structure DotWork where
  tiles : List (List (List Lane))
  flushed : Nat
  listed : List Nat

/-- The copies of an operand that the core numbers below `n` read. -/
def readers {α : Type} (ts : List (List α)) (n : Nat) : List (List α) := if ts.length ≤ 1 then ts else ts.take n

/-- The reduction indices that the side lists of A and B name, as the first core reads them. -/
def World.listed (w : World) (r : Run) : List Nat :=
  ((r.os.take 2).filter (readsSide r.d)).flatMap (fun o => (w.sideList r (r.cores.headD 0) o).idx)

/-- A matrix operation's tiles (R56, R67, R131). -/
def World.matWork (w : World) (r : Run) : DotWork :=
  let as := w.tensors r 0 r.ftz
  let bs := w.tensors r 1 r.ftz
  let cs := if r.d.cin then w.tensors r 2 false else []
  let o := r.o 3
  let lane := fun (i j : Nat) =>
    let c := tileCore r i j
    { gs := chunks r.group (lanePairs r.d.opc r.d.k i j (coreCopy as c) (coreCopy bs c))
      c0 := if r.d.cin then some ((((coreCopy cs c).getD i []).map (·.x)).getD j (.zero false)) else none : Lane }
  let boxes := tileBoxes r.d.shp o.rows o.els
  { tiles := boxes.map (fun b => b.lanes lane)
    flushed := flushAny (readers as boxes.length) + flushAny (readers bs boxes.length)
    listed := w.listed r }

/-- The tiles dealt to core number `c` (R131). -/
def dealt {α : Type} (n c : Nat) (l : List α) : List α := (l.zipIdx.filter (fun (_, i) => i % max 1 n == c)).map (·.1)

/-! The spill area (R65, R107). -/

/-- The tiles in progress (R67, R107). -/
def Run.tip (r : Run) : Nat := if r.d.tip = 0 then tileMax r.d.shp r.d.acc else r.d.tip

/-- Where the spill entries of a core's `k`-th tile begin in its staging SRAM (R107): the model gives a tile the place of its
number modulo the tiles in progress (log entry 80). -/
def Run.spillAt (r : Run) (k : Nat) : Nat :=
  let (th, tw) := tileShape r.d.shp
  2048 * r.d.spo + k % max 1 r.tip * (th * tw * 8)

/-- Writes the spill entries of a core's `k`-th tile, unit by unit (R65, Table 3.6). -/
def World.putSpill (w : World) (r : Run) (core k : Nat) (accs : List (List EAcc)) : World :=
  accs.zipIdx.foldl (fun w (u, i) => w.storeStaging core (r.spillAt k + 2048 * i) (u.flatMap EAcc.entry)) w

/-- The elements of a core's `k`-th tile with their spill entries read back from staging, where they stayed (R69, R134). -/
def World.getSpill (w : World) (r : Run) (core k : Nat) (accs : List (List EAcc)) : List (List EAcc) :=
  accs.zipIdx.map (fun (u, i) => u.zipIdx.map (fun (e, j) => e.withEntry (w.loadStaging core (r.spillAt k + 2048 * i + 8 * j) 8)))

/-- A core's share as it goes on: the spill entries of its tile in progress are those of staging (R69). -/
def World.resumeTiles (w : World) (r : Run) (core : Nat) (ct : CoreTiles) : CoreTiles :=
  if r.d.spl = 0 then ct
  else { ct with cur := ct.cur.map (fun t => { t with accs := w.getSpill r core ct.done.length t.accs }) }

/-- Writes the spill entries of the tiles that a core has run since a share's state `old`. -/
def World.spillTiles (w : World) (r : Run) (core : Nat) (old new : CoreTiles) : World :=
  if r.d.spl = 0 then w
  else
    let w := (new.done.drop old.done.length).zipIdx.foldl (fun w (t, i) => w.putSpill r core (old.done.length + i) t.accs) w
    match new.cur with
    | some t => w.putSpill r core new.done.length t.accs
    | none => w

/-! The course of a dot product. -/

/-- The share of each core after the part that runs (R68, R69, R131). -/
def World.runShares (w : World) (r : Run) (k : DotWork) : List (CoreTiles × CoreTiles) :=
  let costs := r.groupCosts k.listed
  let n := r.cores.length
  r.cores.zipIdx.map (fun (core, c) =>
    let tiles := dealt n c k.tiles
    let old := w.resumeTiles r core (r.tiles.getD c {})
    (old, CoreTiles.run r.dotCfg { cost := costs, limit := w.pt.issue } tiles (r.part.bind (fun p => p.goal.getD c none))
      (coreFuel costs.length tiles) old))

/-- The results of the tiles in ascending index, from the shares of the cores. -/
def gatherTiles (count : Nat) (shares : List CoreTiles) : List TileRes :=
  (List.range count).filterMap (fun t => ((shares.getD (t % max 1 shares.length) {}).done)[t / max 1 shares.length]?)

/-- Runs a dot product: the whole at once, or a part, which stands at a point or finishes (R62, R68, R69). `finish` writes the
results of the tiles. Spill entries go to staging (R65). -/
def World.runDot (w : World) (r : Run) (k : DotWork) (finish : World → List TileRes → World × Done) : World × Done :=
  if r.part.isNone && r.d.spl = 0 then finish w (k.tiles.map (runTile r.dotCfg (cdiv r.d.k r.group)))
  else
    let ss := w.runShares r k
    let w := (r.cores.zip ss).foldl (fun w (core, s) => w.spillTiles r core s.1 s.2) w
    let shares := ss.map (·.2)
    if (List.range shares.length).all (fun c => (shares.getD c {}).over (dealt r.cores.length c k.tiles)) then
      finish w (gatherTiles k.tiles.length shares)
    else ((w.pause r (shares.map (·.pts)) {}).updStage r.t.id r.g (fun s => { s with tiles := shares }), none)

/-- A matrix operation (R56 to R67, R72, R77). -/
def runMat (w : World) (r : Run) : World × Done :=
  let k := w.matWork r
  let o := r.o 3
  w.runDot r k (fun w ts =>
    let t3 := w.ostRows r (r.d.acc == cI32) (tileCore r) (tileRows r.d.shp o.rows o.els ts)
    w.writeOutput r t3 k.flushed (dotTotal ts) (tileOwner r))

/-! REDUCE. -/

/-- Rows of A for the cores that reduce them: `core i` is the core number of output `i`. -/
def World.rowsFor (w : World) (r : Run) (core : Nat → Nat) : List (List El) :=
  let ts := w.tensors r 0 r.ftz
  (List.range r.d.m).map (fun i => (coreCopy ts (core i)).getD i [])

/-- The core number that runs output `i` of a REDUCE of kind SUM or SUMSQ (R107, R131). -/
def reduceCore (r : Run) (i : Nat) : Nat :=
  let (th, tw) := tileShape r.d.shp
  i / (th * tw) % max 1 r.cores.length

/-- The core number that writes a byte of the one row that a REDUCE writes. -/
def reduceOwner (r : Run) (core : Nat → Nat) (f : ElFmt) (off : Nat) : Nat :=
  let o := r.o 3
  let so := scaleOff f 1 o.els
  core (min (if isX f.code && decide (so ≤ off) then (off - so) * f.blk else off * 8 / elBits f.code) (o.els - 1))

/-- The tiles of a REDUCE of kind SUM or SUMSQ: dot products of the rows with 1 or with themselves (R70, R107). -/
def World.reduceWork (w : World) (r : Run) (squares : Bool) : DotWork :=
  let rows := w.rowsFor r (reduceCore r)
  let cs := if r.d.cin then w.tensors r 2 false else []
  { tiles := runLanes r.d.shp r.d.m (fun i =>
      { gs := chunks r.group ((rows.getD i []).map (fun e => (e, if squares then e else elOne)))
        c0 := if r.d.cin then some ((((coreCopy cs (reduceCore r i)).headD []).map (·.x)).getD i (.zero false)) else none : Lane })
    flushed := flushCount rows
    listed := w.listed r }

/-- REDUCE of kind SUM or SUMSQ: dot products with 1 or with itself, through the output stage (R70, R107). -/
def runReduceDot (squares : Bool) (w : World) (r : Run) : World × Done :=
  let k := w.reduceWork r squares
  w.runDot r k (fun w ts =>
    let t3 := w.ostRows r (r.d.acc == cI32) (fun _ j => reduceCore r j) [ts.flatMap (fun t => t.vals.flatten)]
    w.writeOutput r t3 k.flushed (dotTotal ts) (reduceOwner r (reduceCore r)))

/-- REDUCE of the exact kinds: one value from each row, converted to D (R70, R76). -/
def runReduceExact (f : List XV → XV) (w : World) (r : Run) : World × Done :=
  let core := rowCore r.cores.length
  let rows := w.rowsFor r core
  w.writeOutput r [(rowVals rows).map f] (flushCount rows) {} (reduceOwner r core)

/-! CONVERT and OBSERVE. -/

/-- CONVERT: each decoded element through the output stage (R72). -/
def runConvert (w : World) (r : Run) : World × Done :=
  let rows := w.rowsOf r 0 r.ftz
  let int := isIntCode (r.o 0).fmt.code
  let t3 := w.ostRows r int (fun i _ => rowCore r.cores.length i) (rows.map (fun row => row.map (fun e => { v := e.x, int := int })))
  w.writeOutput r t3 (flushCount rows) {} (fun f => rowOwner r.cores.length f (r.o 3).rows (r.o 3).els)

/-- OBSERVE: A's largest exponent into D's slot (R79); the subnormals that FTZ reads as zero count as in any operation (R44). -/
def runObserve (w : World) (r : Run) : World × Done :=
  let rows := w.rowsOf r 0 r.ftz
  let w := w.observeSlot r.t.id (r.o 3).fmt.slot (observe (rowVals rows).flatten)
  (w, some { r.counted { flush := flushCount rows } with observed := true })

/-! The meanings. -/

/-- MATMUL (R56). -/
def execMatmul (q s : Nat) (r : StageRun) (st : State) : Host.Outcome State Fault Refusal :=
  st.operate q s r.stage r.upto 0x20 anyMod noExtra wholeReads runMat

/-- MATMULT (R56). -/
def execMatmult (q s : Nat) (r : StageRun) (st : State) : Host.Outcome State Fault Refusal :=
  st.operate q s r.stage r.upto 0x21 anyMod noExtra wholeReads runMat

/-- CONV1D (R56). -/
def execConv1d (q s : Nat) (r : StageRun) (st : State) : Host.Outcome State Fault Refusal :=
  st.operate q s r.stage r.upto 0x22 anyMod noExtra wholeReads runMat

/-- REDUCE of kind SUM (R70). -/
def execReduceSum (q s : Nat) (r : StageRun) (st : State) : Host.Outcome State Fault Refusal :=
  st.operate q s r.stage r.upto 0x23 (modIs 7 0) noExtra wholeReads (runReduceDot false)

/-- REDUCE of kind SUMSQ (R70). -/
def execReduceSumsq (q s : Nat) (r : StageRun) (st : State) : Host.Outcome State Fault Refusal :=
  st.operate q s r.stage r.upto 0x23 (modIs 7 1) noExtra wholeReads (runReduceDot true)

/-- REDUCE of kind MAX (R70). -/
def execReduceMax (q s : Nat) (r : StageRun) (st : State) : Host.Outcome State Fault Refusal :=
  st.operate q s r.stage r.upto 0x23 (modIs 7 2) noExtra wholeReads (runReduceExact redMax)

/-- REDUCE of kind MIN (R70). -/
def execReduceMin (q s : Nat) (r : StageRun) (st : State) : Host.Outcome State Fault Refusal :=
  st.operate q s r.stage r.upto 0x23 (modIs 7 3) noExtra wholeReads (runReduceExact redMin)

/-- REDUCE of kind AMAX (R70). -/
def execReduceAmax (q s : Nat) (r : StageRun) (st : State) : Host.Outcome State Fault Refusal :=
  st.operate q s r.stage r.upto 0x23 (modIs 7 4) noExtra wholeReads (runReduceExact redAmax)

/-- REDUCE of kind ARGMAX (R70, R76). -/
def execReduceArgmax (q s : Nat) (r : StageRun) (st : State) : Host.Outcome State Fault Refusal :=
  st.operate q s r.stage r.upto 0x23 (modIs 7 5) noExtra wholeReads (runReduceExact (fun xs => XV.ofInt (redArg true xs)))

/-- REDUCE of kind ARGMIN (R70, R76). -/
def execReduceArgmin (q s : Nat) (r : StageRun) (st : State) : Host.Outcome State Fault Refusal :=
  st.operate q s r.stage r.upto 0x23 (modIs 7 6) noExtra wholeReads (runReduceExact (fun xs => XV.ofInt (redArg false xs)))

/-- CONVERT (R72). -/
def execConvert (q s : Nat) (r : StageRun) (st : State) : Host.Outcome State Fault Refusal :=
  st.operate q s r.stage r.upto 0x40 anyMod noExtra wholeReads runConvert

/-- OBSERVE (R79). -/
def execObserve (q s : Nat) (r : StageRun) (st : State) : Host.Outcome State Fault Refusal :=
  st.operate q s r.stage r.upto 0x42 anyMod noExtra wholeReads runObserve

end Sys2Proof.Machine
end

