-- ==== Sys2Proof/Machine/Trans.lean ====
section
/-! DEFINITION. Functions rounded correctly to F32 (R116, R117, R186, R188, R196; 05_operations.md,
08_training_machinery.md), by integer arithmetic with error bounds: a result stands when both ends of its interval
round to one F32 value. A finer precision follows where they do not; should the last one not decide, its midpoint
is rounded (log entry 12). -/

namespace Sys2Proof.Machine

/-- The integer square root, by digits. `fuel` bounds the digits. -/
def isqrtAux : Nat → Nat → Nat
  | 0, _ => 0
  | f + 1, n =>
    if n = 0 then 0
    else
      let r := 2 * isqrtAux f (n / 4)
      if (r + 1) * (r + 1) ≤ n then r + 1 else r

def isqrt (n : Nat) : Nat := isqrtAux (n.log2 + 1) n

/-- The square root of `n × 2^e / d`, to 200 bits with a sticky last bit: enough to round it once to any code. -/
def sqrtSticky (n d : Nat) (e : Int) : XV :=
  let k : Int := 200 + ((e.natAbs + n.log2 + d.log2 : Nat) : Int)
  let num := n * 2 ^ (e + 2 * k).toNat
  let q := num / d
  let r := isqrt q
  let exact := decide (num % d = 0) && r * r == q
  .fin false (2 * r + (if exact then 0 else 1)) 1 (-k - 1)

/-- The square root as an exact or sticky value; NaN below −0, and −0 of −0 (R116). -/
def sqrtX : XV → XV
  | .nan => .nan
  | .inf s => if s then .nan else .inf false
  | .fin s n d e => if n = 0 then .fin s 0 1 0 else if s then .nan else sqrtSticky n d e

/-- The reciprocal square root as an exact or sticky value (R116). -/
def rsqrtX : XV → XV
  | .nan => .nan
  | .inf s => if s then .nan else .zero false
  | .fin s n d e => if n = 0 then .inf s else if s then .nan else sqrtSticky d n (-e)

/-- A fixed-point interval: the value lies within `err` of `m`, in units of `2^-P`. -/
structure Ap where
  m : Int
  err : Nat
  deriving DecidableEq, Repr

def Ap.add (a b : Ap) : Ap := ⟨a.m + b.m, a.err + b.err⟩
def Ap.sub (a b : Ap) : Ap := ⟨a.m - b.m, a.err + b.err⟩
def Ap.muln (a : Ap) (k : Int) : Ap := ⟨a.m * k, a.err * k.natAbs⟩
def Ap.divn (a : Ap) (k : Nat) : Ap := ⟨a.m / (k : Int), a.err / k + 2⟩
def Ap.mul (p : Nat) (a b : Ap) : Ap :=
  ⟨a.m * b.m / (2 ^ p : Nat), (a.m.natAbs * b.err + b.m.natAbs * a.err + a.err * b.err) / 2 ^ p + 2⟩
def Ap.div (p : Nat) (a b : Ap) : Ap :=
  let m := a.m * (2 ^ p : Nat) / b.m
  ⟨m, (a.err * 2 ^ p + (m.natAbs + 1) * b.err) / (b.m.natAbs - b.err) + 2⟩
def Ap.one (p : Nat) : Ap := ⟨(2 ^ p : Nat), 0⟩
def Ap.half (p : Nat) : Ap := ⟨(2 ^ (p - 1) : Nat), 0⟩

/-- A finite exact value as a fixed-point interval. -/
def Ap.ofXV (p : Nat) : XV → Ap
  | .fin s n d e =>
    let q := if 0 ≤ e + p then n * 2 ^ (e + p).toNat / d else n / (d * 2 ^ (-(e + p)).toNat)
    ⟨if s then -(q : Int) else q, 1⟩
  | _ => ⟨0, 0⟩

/-- `Σ z^(2i+1)/(2i+1)`, or with alternating signs: atanh or atan of a small argument. -/
def oddSeries (p : Nat) (alt : Bool) (z2 : Ap) : Nat → Nat → Ap → Ap → Ap
  | 0, _, _, s => ⟨s.m, s.err + 4⟩
  | f + 1, i, t, s =>
    if t.m.natAbs ≤ t.err then ⟨s.m, s.err + 4 * t.err + 4⟩
    else
      let u := t.divn (2 * i + 1)
      let s' := if alt && i % 2 == 1 then s.sub u else s.add u
      oddSeries p alt z2 f (i + 1) (t.mul p z2) s'

def atanhAp (p : Nat) (z : Ap) : Ap := oddSeries p false (z.mul p z) (p + 8) 0 z ⟨0, 0⟩
def atanInv (p k : Nat) : Ap :=
  let z := (Ap.one p).divn k
  oddSeries p true (z.mul p z) (p + 8) 0 z ⟨0, 0⟩

def ln2Ap (p : Nat) : Ap := (atanhAp p ((Ap.one p).divn 3)).muln 2
def piAp (p : Nat) : Ap := ((atanInv p 5).muln 16).sub ((atanInv p 239).muln 4)

/-- `Σ r^i / i!`. -/
def expSeries (p : Nat) (r : Ap) : Nat → Nat → Ap → Ap → Ap
  | 0, _, _, s => ⟨s.m, s.err + 4⟩
  | f + 1, i, t, s =>
    if t.m.natAbs ≤ t.err then ⟨s.m, s.err + 4 * t.err + 4⟩
    else expSeries p r f (i + 1) ((t.mul p r).divn (i + 1)) (s.add t)

/-- `exp x` as an interval times a power of two, for `|x| ≤ 200`. -/
def expAp (p : Nat) (x : XV) : Ap × Int :=
  let a := Ap.ofXV p x
  let l := ln2Ap p
  let k := a.m / l.m
  let r := a.sub (l.muln k)
  (expSeries p r (p + 8) 0 (Ap.one p) ⟨0, 0⟩, k)

/-- The same as a fixed-point interval, for exponents that are not large. -/
def expFix (p : Nat) (x : XV) : Ap :=
  let (a, k) := expAp p x
  if 0 ≤ k then ⟨a.m * (2 ^ k.toNat : Nat), a.err * 2 ^ k.toNat⟩
  else ⟨a.m / (2 ^ (-k).toNat : Nat), a.err / 2 ^ (-k).toNat + 2⟩

/-- `ln x` for a finite `x > 0`. -/
def lnAp (p : Nat) (n d : Nat) (e : Int) : Ap :=
  let k := ilog2Div n d + e
  let m := Ap.ofXV p (.fin false n d (e - k))
  ((ln2Ap p).muln k).add ((atanhAp p ((m.sub (Ap.one p)).div p (m.add (Ap.one p)))).muln 2)

/-- Sine or cosine of a small angle, by series: the terms with index parity `par`. -/
def trigSeries (p : Nat) (x2 : Ap) : Nat → Nat → Ap → Ap → Ap
  | 0, _, _, s => ⟨s.m, s.err + 4⟩
  | f + 1, i, t, s =>
    if t.m.natAbs ≤ t.err then ⟨s.m, s.err + 4 * t.err + 4⟩
    else trigSeries p x2 f (i + 2) (((t.mul p x2).muln (-1)).divn ((i + 1) * (i + 2))) (s.add t)

def sinAp (p : Nat) (x : Ap) : Ap := trigSeries p (x.mul p x) (p + 8) 1 x ⟨0, 0⟩
def cosAp (p : Nat) (x : Ap) : Ap := trigSeries p (x.mul p x) (p + 8) 0 (Ap.one p) ⟨0, 0⟩

/-- `φ(x) Σ x^(2n+1)/(2n+1)!!`, which is `Φ(x) − ½` for `x ≥ 0`. -/
def phiSeries (p : Nat) (x2 : Ap) : Nat → Nat → Ap → Ap → Ap
  | 0, _, _, s => ⟨s.m, s.err + 4⟩
  | f + 1, i, t, s =>
    if t.m.natAbs ≤ t.err then ⟨s.m, s.err + 4 * t.err + 4⟩
    else phiSeries p x2 f (i + 1) ((t.mul p x2).divn (2 * i + 3)) (s.add t)

def phiAp (p : Nat) (x : XV) : Ap :=
  let a := Ap.ofXV p x.abs
  let g := expFix p ((x.mul x).scale (-1)).negate
  let tw := (piAp p).muln 2
  let rt : Ap := ⟨isqrt ((tw.m * (2 ^ p : Nat)).toNat), tw.err + 4⟩
  ((g.mul p (phiSeries p (a.mul p a) (4 * p) 0 a ⟨0, 0⟩))).div p rt

/-- Rounds an interval times `2^k` to F32 where both its ends agree. -/
def apF32 (p : Nat) (k : Int) (a : Ap) : Option XV :=
  let v (m : Int) : XV := toF32 (.fin (decide (m < 0)) m.natAbs 1 (k - p))
  let lo := v (a.m - a.err)
  if lo = v (a.m + a.err) then some lo else none

/-- The two precisions tried, and the midpoint of the finer where neither decides. -/
def roundFn (f : Nat → Ap × Int) : XV :=
  let go (p : Nat) : Option XV := let (a, k) := f p; apF32 p k a
  match go 640 with
  | some v => v
  | none => match go 1400 with
    | some v => v
    | none =>
      let (a, k) := f 1400
      toF32 (.fin (decide (a.m < 0)) a.m.natAbs 1 (k - 1400))

/-- A bound on a finite value. -/
def XV.geI (x : XV) (i : Int) : Bool := XV.le (XV.ofInt i) x

/-- `exp`, rounded to F32. -/
def expF32 (x : XV) : XV :=
  match x with
  | .nan => .nan
  | .inf s => if s then .zero false else .inf false
  | x =>
    if x.isZero then toF32 (XV.ofInt 1)
    else if x.geI 200 then .inf false
    else if x.negate.geI 200 then .zero false
    else roundFn (fun p => expAp p x)

/-- `ln`, rounded to F32, of a value above 0. -/
def lnF32 (x : XV) : XV :=
  match x with
  | .fin _ n d e => if XV.eqv x (XV.ofInt 1) then .zero false else roundFn (fun p => (lnAp p n d e, 0))
  | x => x

/-- `cos 2πt` and `sin 2πt` for `t = num × 2^-24` in [0, 1), rounded to F32, exact at the quadrants. -/
def trigTurn (cosine : Bool) (num : Nat) : XV :=
  let q := num / 2 ^ 22
  let r := num % 2 ^ 22
  let ix : Nat := if cosine then (q + 1) % 4 else q % 4
  -- ix = 0: sin θ, 1: cos θ, 2: −sin θ, 3: −cos θ, with θ = 2π r 2^-24
  if r = 0 then (match ix with | 0 | 2 => .zero false | 1 => toF32 (XV.ofInt 1) | _ => toF32 (XV.ofInt (-1)))
  else roundFn (fun p =>
    let th : Ap := ((piAp p).muln (2 * r)).divn (2 ^ 24)
    let v := if ix % 2 = 0 then sinAp p th else cosAp p th
    (if 2 ≤ ix then v.muln (-1) else v, 0))

def tanhF32 (x : XV) : XV :=
  match x with
  | .nan => .nan
  | .inf s => toF32 (XV.ofInt (if s then -1 else 1))
  | x =>
    if x.isZero then x
    else if x.abs.geI 64 then toF32 (XV.ofInt (if x.neg? then -1 else 1))
    else roundFn (fun p =>
      let e := expFix p (x.abs.scale 1).negate
      let v := ((Ap.one p).sub e).div p ((Ap.one p).add e)
      (if x.neg? then v.muln (-1) else v, 0))

/-- The sigmoid of `|x| ≤ 200` as an interval. -/
def sigAp (p : Nat) (x : XV) : Ap :=
  let e := expFix p x.abs.negate
  if x.neg? then e.div p ((Ap.one p).add e) else (Ap.one p).div p ((Ap.one p).add e)

def sigmoidF32 (x : XV) : XV :=
  match x with
  | .nan => .nan
  | .inf s => if s then .zero false else toF32 (XV.ofInt 1)
  | x =>
    if x.isZero then toF32 (.fin false 1 1 (-1))
    else if x.geI 200 then toF32 (XV.ofInt 1)
    else if x.negate.geI 200 then .zero false
    else roundFn (fun p => (sigAp p x, 0))

def siluF32 (x : XV) : XV :=
  match x with
  | .nan => .nan
  | .inf s => if s then .zero true else .inf false
  | x =>
    if x.isZero then toF32 x
    else if x.geI 200 then toF32 x
    else if x.negate.geI 200 then .zero true
    else roundFn (fun p => ((Ap.ofXV p x).mul p (sigAp p x), 0))

def geluF32 (x : XV) : XV :=
  match x with
  | .nan => .nan
  | .inf s => if s then .zero true else .inf false
  | x =>
    if x.isZero then toF32 x
    else if x.geI 20 then toF32 x
    else if x.negate.geI 20 then .zero true
    else roundFn (fun p =>
      let s := phiAp p x
      ((Ap.ofXV p x).mul p (if x.neg? then (Ap.half p).sub s else (Ap.half p).add s), 0))

/-! ## Random numbers (R187, R188) -/

/-- One round of Philox4x32. -/
def philoxRound (c : Nat × Nat × Nat × Nat) (k0 k1 : Nat) : Nat × Nat × Nat × Nat :=
  let (c0, c1, c2, c3) := c
  let p0 := 0xD2511F53 * c0
  let p1 := 0xCD9E8D57 * c2
  ((p1 / 2 ^ 32) ^^^ c1 ^^^ k0, p1 % 2 ^ 32, (p0 / 2 ^ 32) ^^^ c3 ^^^ k1, p0 % 2 ^ 32)

def philoxAux : Nat → (Nat × Nat × Nat × Nat) → Nat → Nat → Nat × Nat × Nat × Nat
  | 0, c, _, _ => c
  | f + 1, c, k0, k1 =>
    philoxAux f (philoxRound c k0 k1) ((k0 + 0x9E3779B9) % 2 ^ 32) ((k1 + 0xBB67AE85) % 2 ^ 32)

/-- Philox4x32-10. -/
def philox (c : Nat × Nat × Nat × Nat) (key : Nat) : Nat × Nat × Nat × Nat :=
  philoxAux 10 c (key % 2 ^ 32) (key / 2 ^ 32 % 2 ^ 32)

/-- The key, tensor ID and step value of a draw (R187). -/
structure RngId where
  key : Nat
  tensor : Nat
  step : Nat
  deriving DecidableEq, Repr

/-- The word w(e) of an element index (R187). -/
def rngWord (r : RngId) (e : Nat) : Nat :=
  let q := e / 4
  let (o0, o1, o2, o3) := philox (q % 2 ^ 32, q / 2 ^ 32, r.tensor, r.step) r.key
  match e % 4 with
  | 0 => o0
  | 1 => o1
  | 2 => o2
  | _ => o3

/-- Product and sum rounded to F32. -/
def mulF (a b : XV) : XV := toF32 (a.mul b)
def addF (a b : XV) : XV := toF32 (a.add b)
def subF (a b : XV) : XV := toF32 (a.sub b)
def divF (a b : XV) : XV := toF32 (a.div b)
def sqrtF (a : XV) : XV := toF32 (sqrtX a)

/-- The Gaussian deviate z(e) (R188). -/
def gauss (r : RngId) (e : Nat) : XV :=
  let p := e / 2
  let u0 := rngWord r (2 * p)
  let u1 := rngWord r (2 * p + 1)
  let x1 : XV := .fin false (u0 / 256 + 1) 1 (-24)
  let rad := sqrtF (toF32 ((lnF32 x1).scale 1).negate)
  mulF rad (trigTurn (e % 2 == 0) (u1 / 256))

end Sys2Proof.Machine
end

