-- ==== Sys2Proof/Machine/OpVector.lean ====
section
/-! DEFINITION. Vector operations (R116, R117; Table 5.11). -/

namespace Sys2Proof.Machine

/-- The rows of operand `i` that go with the M rows of D: a one-row operand gives its row to each (R116). -/
def World.rowsLike (w : World) (r : Run) (i : Nat) : List (List El) :=
  let ts := w.tensors r i r.ftz
  (List.range r.d.m).map (fun k => (coreCopy ts (rowCore r.cores.length k)).getD (if (r.o i).rows = 1 then 0 else k) [])

/-- The subnormals that the rows of the part that runs take as zero from operand `i`, each element counted once (R44): a one-row
operand's with the operation's last row. -/
def World.flushedIn (w : World) (r : Run) (i : Nat) : Nat :=
  if (r.o i).rows = r.d.m then flushCount (((w.rowsLike r i).zipIdx.filter (fun (_, k) => r.rowIn (r.o 3).els k)).map (·.1))
  else if r.toEnd then flushAny ((w.tensors r i r.ftz).take (cdiv r.d.m 16)) else 0

/-- Writes rows of exact values to D and answers the operation's counts. -/
def World.finishRows (w : World) (r : Run) (flushed : Nat) (rows : List (List XV)) : World × Done :=
  let (w, c) := w.writeConv r (r.o 3) rows
  (w, some (r.counted { c with flush := c.flush + flushed }))

/-- An elementwise operation of one operand. -/
def runMap (f : XV → XV) (w : World) (r : Run) : World × Done :=
  w.finishRows r (w.flushedIn r 0) ((rowVals (w.rowsLike r 0)).map (fun row => row.map f))

/-- An elementwise operation of two operands. -/
def runMap2 (f : XV → XV → XV) (w : World) (r : Run) : World × Done :=
  let a := rowVals (w.rowsLike r 0)
  let b := rowVals (w.rowsLike r 1)
  w.finishRows r (w.flushedIn r 0 + w.flushedIn r 1) (List.zipWith (List.zipWith f) a b)

/-- Three rows combined element by element. -/
def zip3 (f : XV → XV → XV → XV) (a b c : List XV) : List XV := List.zipWith (fun g z => g z) (List.zipWith f a b) c

/-- An elementwise operation of three operands. -/
def runMap3 (f : XV → XV → XV → XV) (w : World) (r : Run) : World × Done :=
  let a := rowVals (w.rowsLike r 0)
  let b := rowVals (w.rowsLike r 1)
  let c := rowVals (w.rowsLike r 2)
  let rows := List.zipWith (fun (g : List XV → List XV) z => g z) (List.zipWith (fun x y => zip3 f x y) a b) c
  w.finishRows r (w.flushedIn r 0 + w.flushedIn r 1 + w.flushedIn r 2) rows

/-- ReLU, rounded to F32 (R116). -/
def reluF32 (x : XV) : XV := toF32 (XV.max x (.zero false))

/-- The reciprocal, rounded to F32 (R116). -/
def recipF32 (x : XV) : XV := toF32 (XV.div (XV.ofInt 1) x)

/-- The square root, rounded to F32 (R116). -/
def sqrtF32 (x : XV) : XV := toF32 (sqrtX x)

/-- The reciprocal square root, rounded to F32 (R116). -/
def rsqrtF32 (x : XV) : XV := toF32 (rsqrtX x)

/-- VSELECT's choice: a NaN in C counts as non-zero (R116). -/
def selectX (a b c : XV) : XV := if c.isZero then b else a

/-- One row of SOFTMAX (R117). -/
def softmaxRow (row : List El) : List XV :=
  let m := redMax (row.map (·.x))
  let es := row.map (fun e => expF32 (e.x.sub m))
  let s := isum (es.map el32)
  es.map (fun e => e.div s)

/-- SOFTMAX (R117). -/
def runSoftmax (w : World) (r : Run) : World × Done :=
  w.finishRows r (w.flushedIn r 0) ((w.rowsLike r 0).map softmaxRow)

/-- One row of NORM with its mean taken out (R117 steps 2 to 5). -/
def normRow (k : Nat) (eps mu : XV) (xs gain bias : List XV) : List XV :=
  let ds := xs.map (fun x => subF x mu)
  let v := divF (isumsq (ds.map el32)) (XV.ofInt k)
  let r := rsqrtF32 (addF v eps)
  zip3 (fun d g b => ((d.mul r).mul g).add b) ds gain bias

/-- NORM of MOD 0 (R117). -/
def runLayerNorm (w : World) (r : Run) : World × Done :=
  let a := w.rowsLike r 0
  let g := rowVals (w.rowsLike r 1)
  let b := rowVals (w.rowsLike r 2)
  let rows := a.zipIdx.map (fun (row, i) =>
    normRow r.d.k (r.d.parF 0) (divF (isum row) (XV.ofInt r.d.k)) (row.map (·.x)) (g.getD i []) (b.getD i []))
  w.finishRows r (w.flushedIn r 0 + w.flushedIn r 1 + w.flushedIn r 2) rows

/-- NORM of MOD 1: the mean is 0, and each output is d × r × g (R117). -/
def runRmsNorm (w : World) (r : Run) : World × Done :=
  let a := w.rowsLike r 0
  let g := rowVals (w.rowsLike r 1)
  let rows := a.zipIdx.map (fun (row, i) =>
    normRow r.d.k (r.d.parF 0) (.zero false) (row.map (·.x)) (g.getD i []) (List.replicate r.d.k (.zero false)))
  w.finishRows r (w.flushedIn r 0 + w.flushedIn r 1) rows

/-- VSCALE: A × 2ⁿ (R116). -/
def runVscale (w : World) (r : Run) : World × Done := runMap (XV.scale (toSigned 32 (r.d.par 8 4))) w r

/-! The meanings. -/

/-- VADD (R116). -/
def execVadd (q s : Nat) (r : StageRun) (st : State) : Host.Outcome State Fault Refusal :=
  st.operate q s r.stage r.upto 0x30 anyMod noExtra wholeReads (runMap2 XV.add)

/-- VMUL (R116). -/
def execVmul (q s : Nat) (r : StageRun) (st : State) : Host.Outcome State Fault Refusal :=
  st.operate q s r.stage r.upto 0x31 anyMod noExtra wholeReads (runMap2 XV.mul)

/-- VFMA (R116). -/
def execVfma (q s : Nat) (r : StageRun) (st : State) : Host.Outcome State Fault Refusal :=
  st.operate q s r.stage r.upto 0x32 anyMod noExtra wholeReads (runMap3 (fun a b c => (a.mul b).add c))

/-- VMINMAX with MOD 0 (R41, R116). -/
def execVmax (q s : Nat) (r : StageRun) (st : State) : Host.Outcome State Fault Refusal :=
  st.operate q s r.stage r.upto 0x33 (modIs 2 0) noExtra wholeReads (runMap2 XV.max)

/-- VMINMAX with MOD 1 (R41, R116). -/
def execVmin (q s : Nat) (r : StageRun) (st : State) : Host.Outcome State Fault Refusal :=
  st.operate q s r.stage r.upto 0x33 (modIs 2 1) noExtra wholeReads (runMap2 XV.min)

/-- VFUNC with MOD 0 (R116). -/
def execVfuncRelu (q s : Nat) (r : StageRun) (st : State) : Host.Outcome State Fault Refusal :=
  st.operate q s r.stage r.upto 0x34 (modIs 11 0) noExtra wholeReads (runMap reluF32)

/-- VFUNC with MOD 1 (R116). -/
def execVfuncGelu (q s : Nat) (r : StageRun) (st : State) : Host.Outcome State Fault Refusal :=
  st.operate q s r.stage r.upto 0x34 (modIs 11 1) noExtra wholeReads (runMap geluF32)

/-- VFUNC with MOD 2 (R116). -/
def execVfuncSilu (q s : Nat) (r : StageRun) (st : State) : Host.Outcome State Fault Refusal :=
  st.operate q s r.stage r.upto 0x34 (modIs 11 2) noExtra wholeReads (runMap siluF32)

/-- VFUNC with MOD 3 (R116). -/
def execVfuncTanh (q s : Nat) (r : StageRun) (st : State) : Host.Outcome State Fault Refusal :=
  st.operate q s r.stage r.upto 0x34 (modIs 11 3) noExtra wholeReads (runMap tanhF32)

/-- VFUNC with MOD 4 (R116). -/
def execVfuncSigmoid (q s : Nat) (r : StageRun) (st : State) : Host.Outcome State Fault Refusal :=
  st.operate q s r.stage r.upto 0x34 (modIs 11 4) noExtra wholeReads (runMap sigmoidF32)

/-- VFUNC with MOD 5 (R116). -/
def execVfuncExp (q s : Nat) (r : StageRun) (st : State) : Host.Outcome State Fault Refusal :=
  st.operate q s r.stage r.upto 0x34 (modIs 11 5) noExtra wholeReads (runMap expF32)

/-- VFUNC with MOD 6 (R116). -/
def execVfuncReciprocal (q s : Nat) (r : StageRun) (st : State) : Host.Outcome State Fault Refusal :=
  st.operate q s r.stage r.upto 0x34 (modIs 11 6) noExtra wholeReads (runMap recipF32)

/-- VFUNC with MOD 7 (R116). -/
def execVfuncRsqrt (q s : Nat) (r : StageRun) (st : State) : Host.Outcome State Fault Refusal :=
  st.operate q s r.stage r.upto 0x34 (modIs 11 7) noExtra wholeReads (runMap rsqrtF32)

/-- VFUNC with MOD 8 (R116). -/
def execVfuncSqrt (q s : Nat) (r : StageRun) (st : State) : Host.Outcome State Fault Refusal :=
  st.operate q s r.stage r.upto 0x34 (modIs 11 8) noExtra wholeReads (runMap sqrtF32)

/-- VFUNC with MOD 9: only the sign of the code changes (R116). -/
def execVfuncAbs (q s : Nat) (r : StageRun) (st : State) : Host.Outcome State Fault Refusal :=
  st.operate q s r.stage r.upto 0x34 (modIs 11 9) noExtra wholeReads (runMap XV.abs)

/-- VFUNC with MOD 10: only the sign of the code changes (R116). -/
def execVfuncNegation (q s : Nat) (r : StageRun) (st : State) : Host.Outcome State Fault Refusal :=
  st.operate q s r.stage r.upto 0x34 (modIs 11 10) noExtra wholeReads (runMap XV.negate)

/-- SOFTMAX (R117). -/
def execSoftmax (q s : Nat) (r : StageRun) (st : State) : Host.Outcome State Fault Refusal :=
  st.operate q s r.stage r.upto 0x35 anyMod noExtra wholeReads runSoftmax

/-- NORM with MOD 0 (R117). -/
def execLayerNorm (q s : Nat) (r : StageRun) (st : State) : Host.Outcome State Fault Refusal :=
  st.operate q s r.stage r.upto 0x36 (modIs 2 0) noExtra wholeReads runLayerNorm

/-- NORM with MOD 1 (R117). -/
def execRmsNorm (q s : Nat) (r : StageRun) (st : State) : Host.Outcome State Fault Refusal :=
  st.operate q s r.stage r.upto 0x36 (modIs 2 1) noExtra wholeReads runRmsNorm

/-- VSCALE (R116). -/
def execVscale (q s : Nat) (r : StageRun) (st : State) : Host.Outcome State Fault Refusal :=
  st.operate q s r.stage r.upto 0x37 anyMod noExtra wholeReads runVscale

/-- VSELECT (R116). -/
def execVselect (q s : Nat) (r : StageRun) (st : State) : Host.Outcome State Fault Refusal :=
  st.operate q s r.stage r.upto 0x38 anyMod noExtra wholeReads (runMap3 selectX)

end Sys2Proof.Machine
end

