-- ==== Sys2Proof/Machine/OpRng.lean ====
section
/-! DEFINITION. Random-number operations (R187, R188; Tables 5.9, 5.11). -/

namespace Sys2Proof.Machine

/-- An operation's row whose rule also reads the tenant table. -/
def State.operateV (st : State) (q s g : Nat) (pts : List Nat) (opc : Nat) (mods : Nat → Bool) (extra : Vault → World → Run → List Fail)
    (reads : Vault → World → Run → List (List Region)) (run : Vault → World → Run → World × Done) : Host.Outcome State Fault Refusal :=
  .next (st.onRW (fun v w => w.operate q s g pts opc mods (extra v) (reads v) (run v)))

/-- The tenant record of a task's tenant. -/
def Vault.tenantOf (v : Vault) (t : Task) : Tenant := v.tenants.get {} (t.tenant.getD 0)

/-- The tenant-derived key of a task; 0 where it names no tenant (R188, R376). -/
def World.taskKey (w : World) (v : Vault) (t : Task) : Nat :=
  match t.tenant with
  | some n => w.noiseKey n (v.tenantOf t).secret
  | none => 0

/-- The first element index of the parameter block. -/
def Run.first (r : Run) : Nat := r.d.par 32 8

/-- What an RNG operation draws under: its key, tensor ID and step (R187, R188). -/
def World.rngId (w : World) (v : Vault) (r : Run) : RngId :=
  { key := if r.d.par 16 8 = 0 then w.taskKey v r.t else r.d.par 16 8, tensor := r.d.par 24 4, step := r.d.par 28 4 }

/-- Counts drawn words (R188). -/
def World.drew (w : World) (n : Nat) : World := { w with train := { w.train with rngWords := add64 w.train.rngWords n } }

/-- The last element index must fit 64 bits (R187). -/
def rngExtra (_ : Vault) (_ : World) (r : Run) : List Fail := failIf (decide (0 < r.d.k) && decide (2 ^ 64 < r.first + r.d.k)) (512 + 8 * 32) 0x0808

/-- As `rngExtra`, with the keep probability of DROPOUT (R188). -/
def dropoutExtra (v : Vault) (w : World) (r : Run) : List Fail :=
  failIf (!(XV.lt (.zero false) (r.d.parF 0) && XV.le (r.d.parF 0) (XV.ofInt 1))) 512 0x0802 ++ rngExtra v w r

/-- `(w >> 8) × 2^-24` (R188). -/
def unit24 (w : Nat) : XV := .fin false (w / 256) 1 (-24)

/-- RNGBITS: the words as bits (R188). -/
def runRngbits (v : Vault) (w : World) (r : Run) : World × Done :=
  let id := w.rngId v r
  let bs := (List.range r.d.k).flatMap (fun i => leBytes 4 (rngWord id (r.first + i)))
  let w := match (r.o 3).place with
    | some (l, a) => w.put r l a bs (fun _ => 0)
    | none => w
  (w.drew r.d.k, some r.ok)

/-- RNGUNI: V1 + (V2 − V1) × x, rounded once (R188). -/
def runRnguni (v : Vault) (w : World) (r : Run) : World × Done :=
  let id := w.rngId v r
  let span := (r.d.parF 4).sub (r.d.parF 0)
  let xs := (List.range r.d.k).map (fun i => (r.d.parF 0).add (span.mul (unit24 (rngWord id (r.first + i)))))
  (w.drew r.d.k).finishRows r 0 [xs]

/-- RNGGAUSS: V1 + V2 × z(e), rounded once (R188). -/
def runRnggauss (v : Vault) (w : World) (r : Run) : World × Done :=
  let id := w.rngId v r
  let xs := (List.range r.d.k).map (fun i => (r.d.parF 0).add ((r.d.parF 4).mul (gauss id (r.first + i))))
  (w.drew (2 * r.d.k)).finishRows r 0 [xs]

/-- DROPOUT: A ÷ V1 where kept, +0 elsewhere (R188). -/
def runDropout (v : Vault) (w : World) (r : Run) : World × Done :=
  let id := w.rngId v r
  let row := (w.rowsOf r 0 r.ftz).headD []
  let xs := row.zipIdx.map (fun (e, i) =>
    if XV.lt (unit24 (rngWord id (r.first + i))) (r.d.parF 0) then e.x.div (r.d.parF 0) else .zero false)
  (w.drew r.d.k).finishRows r (flushCount [row]) [xs]

/-- The reads of an operation that reads whole operands and no tenant table. -/
def wholeReadsV (_ : Vault) : World → Run → List (List Region) := wholeReads

/-- RNGBITS (R188). -/
def execRngbits (q s : Nat) (r : StageRun) (st : State) : Host.Outcome State Fault Refusal :=
  st.operateV q s r.stage r.upto 0x70 anyMod rngExtra wholeReadsV runRngbits

/-- RNGUNI (R188). -/
def execRnguni (q s : Nat) (r : StageRun) (st : State) : Host.Outcome State Fault Refusal :=
  st.operateV q s r.stage r.upto 0x71 anyMod rngExtra wholeReadsV runRnguni

/-- RNGGAUSS (R188). -/
def execRnggauss (q s : Nat) (r : StageRun) (st : State) : Host.Outcome State Fault Refusal :=
  st.operateV q s r.stage r.upto 0x72 anyMod rngExtra wholeReadsV runRnggauss

/-- DROPOUT (R188). -/
def execDropout (q s : Nat) (r : StageRun) (st : State) : Host.Outcome State Fault Refusal :=
  st.operateV q s r.stage r.upto 0x73 anyMod dropoutExtra wholeReadsV runDropout

end Sys2Proof.Machine
end

