-- ==== Sys2Proof/Machine/OpTrain.lean ====
section
/-! DEFINITION. Operations of a step: ACTSAVE to CKPT, with the act of a commit (R20, R180 to R200, R388;
08_training_machinery.md). -/

namespace Sys2Proof.Machine

/-! Saved activations (R180 to R182). -/

/-- The sparse bitmap of a block: bit i where code i is not 0 (Table 8.2). -/
def bitmapOf (cs : List Nat) : Nat := cs.zipIdx.foldl (fun b (c, i) => if c = 0 then b else b + 2 ^ i) 0

/-- The distinct high bytes of the non-zero codes, in order of first appearance. -/
def highTable (cs : List Nat) : List Nat :=
  cs.foldl (fun t c => if c = 0 ∨ t.contains (c / 256) then t else t ++ [c / 256]) []

/-- A block of 64 codes in the mode with the fewest bytes, ties to the lower mode (R180). -/
def encodeBlock (cs : List Nat) : Bytes :=
  let nz := cs.filter (· ≠ 0)
  let n := nz.length
  let tab := highTable cs
  let sparse := 9 + 2 * n
  let dict := 25 + cdiv n 2 + n
  if n = 0 then [1#8]
  else if 129 ≤ sparse ∧ (129 ≤ dict ∨ 16 < tab.length) then 0#8 :: cs.flatMap (leBytes 2)
  else if sparse ≤ dict ∨ 16 < tab.length then 2#8 :: leBytes 8 (bitmapOf cs) ++ nz.flatMap (leBytes 2)
  else
    let ixs := nz.map (fun c => tab.findIdx (· == c / 256))
    let nib := (List.range (cdiv n 2)).map (fun i => byteOf (ixs.getD (2 * i) 0 + 16 * ixs.getD (2 * i + 1) 0))
    3#8 :: leBytes 8 (bitmapOf cs) ++ (tab ++ List.replicate (16 - tab.length) 0).map byteOf ++ nib ++ nz.map (fun c => byteOf (c % 256))

/-- One row in blocks of 64, the last padded with zero codes. -/
def encodeRow (codes : List Nat) : Bytes :=
  (chunks 64 codes).flatMap (fun c => encodeBlock (c ++ List.replicate (64 - c.length) 0))

/-- A saved stream (Table 8.3), with the offset of each group. -/
def encodeStream (k code s : Nat) (rows : List (List Nat)) : Bytes × List Nat :=
  let groups := (chunks 16 rows).map (fun g => let b := g.flatMap encodeRow; b ++ zeros (alignUp b.length 32 - b.length))
  let start := 32 + alignUp (8 * groups.length) 32
  let offs := (List.range groups.length).map (fun i => start + ((groups.take i).map List.length).sum)
  let body := groups.flatten
  let table := offs.flatMap (leBytes 8)
  (leBytes 4 rows.length ++ leBytes 4 k ++ [byteOf code, byteOf s] ++ zeros 6 ++ leBytes 8 (start + body.length) ++ zeros 8 ++
    table ++ zeros (start - 32 - table.length) ++ body, offs)

/-- The codes that a bitmap places in its last `n` of 64 positions (Table 8.2). -/
def spread (bitmap : Nat) : Nat → List Nat → List Nat
  | 0, _ => []
  | n + 1, cs =>
    if bitmap.testBit (63 - n) then cs.headD 0 :: spread bitmap n cs.tail else 0 :: spread bitmap n cs

/-- A block at an offset of a stream, with the offset after it; or the status it is refused with (R182). -/
def decodeBlock (bs : Bytes) (at_ : Nat) : Except Nat (List Nat × Nat) :=
  if bs.length ≤ at_ then .error 0x0807
  else
    let hd := leAt bs at_ 1
    let go := fun (len : Nat) (cs : List Nat) => if bs.length < at_ + len then .error 0x0807 else .ok (cs, at_ + len)
    if 4 ≤ hd then .error 0x0801
    else if hd = 0 then go 129 ((List.range 64).map (fun i => leAt bs (at_ + 1 + 2 * i) 2))
    else if hd = 1 then go 1 (List.replicate 64 0)
    else
      let map := leAt bs (at_ + 1) 8
      let n := popCount 64 map
      if hd = 2 then go (9 + 2 * n) (spread map 64 ((List.range n).map (fun i => leAt bs (at_ + 9 + 2 * i) 2)))
      else
        let low := at_ + 25 + cdiv n 2
        go (25 + cdiv n 2 + n) (spread map 64 ((List.range n).map (fun i =>
          let ix := leAt bs (at_ + 25 + i / 2) 1 / (if i % 2 = 0 then 1 else 16) % 16
          256 * leAt bs (at_ + 9 + ix) 1 + leAt bs (low + i) 1)))

/-- `n` blocks from an offset. -/
def decodeBlocks (bs : Bytes) : Nat → Nat → Except Nat (List Nat × Nat)
  | 0, at_ => .ok ([], at_)
  | n + 1, at_ =>
    match decodeBlock bs at_ with
    | .error e => .error e
    | .ok (cs, at') =>
      match decodeBlocks bs n at' with
      | .error e => .error e
      | .ok (rest, end_) => .ok (cs ++ rest, end_)

/-- The rows of a group from an offset. -/
def decodeRows (bs : Bytes) (k : Nat) : Nat → Nat → Except Nat (List (List Nat))
  | 0, _ => .ok []
  | n + 1, at_ =>
    match decodeBlocks bs (cdiv k 64) at_ with
    | .error e => .error e
    | .ok (cs, at') =>
      match decodeRows bs k n at' with
      | .error e => .error e
      | .ok rest => .ok (cs.take k :: rest)

/-- The groups of a stream, from group `i` on. -/
def decodeGroups (bs : Bytes) (m k : Nat) : Nat → Nat → Except Nat (List (List Nat))
  | 0, _ => .ok []
  | n + 1, i =>
    let off := leAt bs (32 + 8 * i) 8
    if bs.length < 40 + 8 * i ∨ bs.length < off then .error 0x0807
    else match decodeRows bs k (min 16 (m - 16 * i)) off with
      | .error e => .error e
      | .ok rows => match decodeGroups bs m k n (i + 1) with
        | .error e => .error e
        | .ok rest => .ok (rows ++ rest)

/-- The codes of a saved stream of M rows of K (R181, R182). -/
def decodeStream (bs : Bytes) (m k : Nat) : Except Nat (List (List Nat)) :=
  if !allZero (slice bs 10 6) || !allZero (slice bs 24 8) then .error 0x0801 else decodeGroups bs m k (cdiv m 16) 0

/-- ACTSAVE (R180, R181). -/
def runActsave (w : World) (r : Run) : World × Done :=
  let a := r.o 0
  let rows := (List.range r.d.m).map (fun i =>
    unpack 16 (w.rowBytesAt (r.cores.getD (rowCore r.cores.length i) 0) a i))
  let (bs, offs) := encodeStream r.d.k a.fmt.code (if a.fmt.code = cF16S then ofSigned 8 a.fmt.s else 0) rows
  let w := match (r.o 3).place with
    | some (l, ad) => w.put r l ad bs (fun off => (offs.countP (fun o => decide (o ≤ off)) - 1) % max 1 r.cores.length)
    | none => w
  (w, some { r.ok with code := a.fmt.code })

/-- The saved stream that ACTLOAD reads, as it stands. -/
def World.savedStream (w : World) (r : Run) : Bytes :=
  match (r.o 0).place with
  | some (l, a) => w.peek r.t r.g l a (r.o 0).ext
  | none => []

/-- What ACTLOAD checks of its stream (R182). -/
def actloadExtra (w : World) (r : Run) : List Fail :=
  match (r.o 0).place with
  | none => []
  | some (l, a) =>
    if !r.e.fits l a (r.o 0).ext || decide ((r.o 0).ext < 32) then failIf true (addrPos 0) 0x0807
    else
      let bs := w.savedStream r
      let o := r.o 3
      failIf (leAt bs 4 4 != r.d.k) 320 0x0808 ++ failIf (leAt bs 0 4 != r.d.m) 352 0x0808 ++
      failIf (leAt bs 8 1 != o.fmt.code || (o.fmt.code == cF16S && toSigned 8 (leAt bs 9 1) != o.fmt.s)) (fmtPos 3) 0x0802 ++
      (if leAt bs 4 4 ≠ r.d.k ∨ leAt bs 0 4 ≠ r.d.m then [] else
        match decodeStream bs r.d.m r.d.k with
        | .error st => [(addrPos 0, st)]
        | .ok _ => [])

/-- ACTLOAD (R182). -/
def runActload (w : World) (r : Run) : World × Done :=
  match decodeStream (w.savedStream r) r.d.m r.d.k with
  | .error st => (w, some { r.ok with status := st })
  | .ok rows =>
    (rows.zipIdx.foldl (fun w (row, i) => w.putRow r (r.o 3) (rowCore r.cores.length i) i (pack 16 row)) w, some r.ok)

/-! The norm, clipping and noise (R185 to R191). -/

/-- Adds a partial to the norm accumulator (R185). -/
def Step.addPartial (s : Step) : XV → Step
  | .nan => { s with accNan := true }
  | .inf _ => { s with accInf := true }
  | .fin _ n d e => { s with acc := s.acc + (if 0 ≤ e + 149 then n * 2 ^ (e + 149).toNat / d else n / (d * 2 ^ (-(e + 149)).toNat)) }

/-- GNORM: after the first CLIPNOISE it is refused (R186). -/
def gnormExtra (w : World) (r : Run) : List Fail := failIf ((w.step? r.t.id).elim false (fun s => s.frozen.isSome)) 0 0x080B

/-- GNORM: the SUMSQ of each chunk of 4,096, added exactly (R185). -/
def runGnorm (w : World) (r : Run) : World × Done :=
  let ts := w.tensors r 0 r.ftz
  let parts := (List.range (cdiv r.d.k 4096)).map (fun i =>
    (((coreCopy ts (rowCore r.cores.length i)).headD []).drop (4096 * i)).take 4096)
  let w := w.updStep r.t.id (fun s => parts.foldl (fun s els => s.addPartial (isumsq els)) s)
  (w, some { r.counted { sat := 0, flush := flushCount parts } with code := (r.o 0).fmt.code })

/-- The norm, clip norm and clip factor that the first CLIPNOISE freezes (R186). -/
def Step.freeze (s : Step) (clip : Nat) : Frozen :=
  let n2 : XV := if s.accNan then .nan else if s.accInf then .inf false else toF32 (.fin false s.acc 1 (-149))
  let norm := sqrtF32 n2
  let c := decodeF fmtF32 clip
  { norm := norm, clip := clip
    f := if !norm.isFin then .zero false else if XV.le norm c then XV.ofInt 1 else divF c norm }

/-- Whether a step takes the zero path (R186). -/
def Frozen.zero (f : Frozen) : Bool := !f.norm.isFin

/-- Whether two noise ranges of one tensor overlap; an empty one overlaps nothing (R190). -/
def rangesMeet (a b : Nat × Nat × Nat) : Bool :=
  a.1 == b.1 && decide (0 < a.2.2) && decide (0 < b.2.2) && decide (a.2.1 < b.2.1 + b.2.2) && decide (b.2.1 < a.2.1 + a.2.2)

/-- The noise range of a CLIPNOISE: tensor ID, first element and count. -/
def Run.noise (r : Run) : Nat × Nat × Nat := (r.d.par 24 4, r.first, r.d.k)

/-- CLIPNOISE's refusals (R187, R189, R190). DESIGN CHOICE (log entry 79): R15 puts the final stage's phases in an order, but no
rule refuses a CLIPNOISE or a collective after the step's first REEL, and the model executes it. -/
def clipnoiseExtra (v : Vault) (w : World) (r : Run) : List Fail :=
  let c := r.d.parF 48
  failIf ((w.step? r.t.id).elim false (fun s => decide (64 ≤ s.clips) || s.noise.any (rangesMeet r.noise))) (512 + 8 * 24) 0x080B ++
  rngExtra v w r ++ failIf (!(c.isFin && XV.lt (.zero false) c)) (512 + 8 * 48) 0x0802

/-- CLIPNOISE (R186, R189 to R191). -/
def runClipnoise (v : Vault) (w : World) (r : Run) : World × Done :=
  match w.step? r.t.id with
  | none => (w, some r.ok)
  | some s =>
    let clip := r.d.par 48 4
    if r.d.par 44 1 ≠ r.t.sigma ∨ r.d.par 45 1 ≠ r.t.q ∨ w.train.stepCtr = 0xFFFFFFFF ∨ s.frozen.any (fun f => decide (f.clip ≠ clip)) then
      (w, some { r.ok with status := 0x0207 })
    else
      let fz := s.frozen.getD (s.freeze clip)
      let id : RngId := { key := w.taskKey v r.t, tensor := r.d.par 24 4, step := w.noiseStep }
      let sd := mulF (.fin false (2 + r.t.sigma) 1 (-2)) (decodeF fmtF32 clip)
      let row := (w.rowsOf r 0 r.ftz).headD []
      let xs := row.zipIdx.map (fun (e, i) =>
        let c := if fz.zero then .zero false else mulF fz.f e.x
        c.add (mulF sd (gauss id (r.first + i))))
      let (w, res) := (w.drew (2 * r.d.k)).finishRows r (flushCount [row]) [xs]
      let ext := (r.o 3).place.toList.map (fun p => (locKey p.1 p.2, (r.o 3).ext))
      (w.updStep r.t.id (fun s => { s with
        frozen := some fz
        clips := s.clips + 1
        noise := s.noise ++ [r.noise]
        noised := s.noised ++ ext }), res)

/-! The reel (R194 to R197). -/

/-- N′ of a tenant (R194). -/
def Tenant.np' (t : Tenant) : Nat := alignUp t.np 64

/-- The bytes of one generation, before rounding. -/
def Tenant.genLen (t : Tenant) : Nat := 14 * t.np'

/-- The first address of a generation (R194). -/
def Tenant.genBase (t : Tenant) (g : Nat) : Nat := t.param + g * alignUp t.genLen 4096

/-- The address of value `j` of a generation: field 0 W, 1 w, 2 m, 3 v (Table 8.5). -/
def Tenant.fieldAddr (t : Tenant) (g fld j : Nat) : Nat :=
  t.genBase g + (if fld = 0 then 2 * j else (4 * fld - 2) * t.np' + 4 * j)

/-- The shadow generation. -/
def Tenant.shadow (t : Tenant) : Nat := 1 - t.live

/-- Whether serving tasks hold a generation of a tenant (R23). -/
def World.genHeld (w : World) (tenant gen : Nat) : Bool :=
  w.sched.tasks.any (fun t => t.ctx.isSome && t.tenant == some tenant && t.gen == some gen)

/-- The F32 fields of the reel that an optimiser writes: w, and its moments (R195). -/
def reelFields (opt : Nat) : List Nat := if opt < 2 then [1, 2, 3] else if opt = 2 then [1, 2] else [1]

/-- Whether a value lies in [0, 1). -/
def unitOk (x : XV) : Bool := XV.le (.zero false) x && XV.lt x (XV.ofInt 1)

/-- REEL's refusals (R191, R195). -/
def reelExtra (v : Vault) (w : World) (r : Run) : List Fail :=
  let t := v.tenantOf r.t
  let opt := r.d.par 0 1
  let p := fun off => 512 + 8 * off
  match w.step? r.t.id with
  | none => []
  | some s =>
    let inNoise := match (r.o 0).place with
      | some (l, a) => s.noised.any (fun x => decide (x.1 ≤ locKey l a) && decide (locKey l a + (r.o 0).ext ≤ x.1 + x.2))
      | none => false
    failIf (!inNoise) (addrPos 0) 0x080B ++
    failIf ((r.o 3).place != some (.here, t.fieldAddr t.shadow 0 s.reel)) (addrPos 3) 0x080B ++
    failIf (decide (t.np < s.reel + r.d.k)) 320 0x080B ++
    failIf (decide (3 < opt)) (p 0) 0x0802 ++ failIf (!(r.d.par 1 1 == cF16 || r.d.par 1 1 == cBF16)) (p 1) 0x0802 ++
    failIf (!(r.d.parF 4).isFin) (p 4) 0x0802 ++
    (if opt < 3 then failIf (!unitOk (r.d.parF 8)) (p 8) 0x0802 else []) ++
    (if opt < 2 then failIf (!unitOk (r.d.parF 12)) (p 12) 0x0802 ++
      failIf (!((r.d.parF 16).isFin && XV.lt (.zero false) (r.d.parF 16))) (p 16) 0x0802 else []) ++
    (if opt = 0 then [] else failIf (!(r.d.parF 20).isFin) (p 20) 0x0802)

/-- `x^n` as an interval, by squaring. -/
def powAp (p : Nat) : Nat → Ap → Nat → Ap
  | 0, _, _ => Ap.one p
  | f + 1, x, n =>
    if n = 0 then Ap.one p
    else
      let h := powAp p f (x.mul p x) (n / 2)
      if n % 2 = 1 then h.mul p x else h

/-- `1 − b^t`, the power exact and the difference rounded once (R196). -/
def oneMinusPow (b : XV) (t : Nat) : XV :=
  if b.isZero then XV.ofInt 1 else roundFn (fun p => ((Ap.one p).sub (powAp p 40 (Ap.ofXV p b) t), 0))

/-- What an optimiser works with (Table 5.9, R196). -/
structure Opt where
  kind : Nat
  lr : XV
  b1 : XV
  b2 : XV
  eps : XV
  wd : XV
  c1 : XV
  c2 : XV
  deriving DecidableEq, Repr

/-- The optimiser of a REEL, for step `t` of its tenant. -/
def Run.opt (r : Run) (t : Nat) : Opt :=
  let k := r.d.par 0 1
  { kind := k, lr := r.d.parF 4, b1 := r.d.parF 8, b2 := r.d.parF 12, eps := r.d.parF 16, wd := r.d.parF 20
    c1 := if k < 2 then oneMinusPow (r.d.parF 8) t else .zero false
    c2 := if k < 2 then oneMinusPow (r.d.parF 12) t else .zero false }

/-- One element: w′, m′ and v′, in the order of `reelFields` (R196). -/
def Opt.element (o : Opt) (g w m v : XV) : List XV :=
  let one := XV.ofInt 1
  if o.kind < 2 then
    let m' := addF (mulF o.b1 m) (mulF (subF one o.b1) g)
    let v' := addF (mulF o.b2 v) (mulF (subF one o.b2) (mulF g g))
    let u := divF (divF m' o.c1) (addF (sqrtF (divF v' o.c2)) o.eps)
    let u := if o.kind = 1 then addF u (mulF o.wd w) else u
    [subF w (mulF o.lr u), m', v']
  else
    let g' := addF g (mulF o.wd w)
    if o.kind = 2 then
      let m' := addF (mulF o.b1 m) g'
      [subF w (mulF o.lr m'), m']
    else [subF w (mulF o.lr g')]

/-- The code of a finite F32 value. -/
def f32Code (x : XV) : Nat := (convF fmtF32 false false false x).1

/-- The bytes of field `fld` of a tenant's values `j` to `j + k − 1`. -/
def World.fieldBytes (w : World) (t : Tenant) (g fld j k : Nat) : Bytes :=
  w.load (t.fieldAddr g fld j) ((if fld = 0 then 2 else 4) * k)

/-- The ranges of the live generation that REEL reads. -/
def reelReads (v : Vault) (w : World) (r : Run) : List (List Region) :=
  let t := v.tenantOf r.t
  let j := (w.step? r.t.id).elim 0 (·.reel)
  [r.reads ++ (0 :: reelFields (r.d.par 0 1)).map (fun f =>
    (⟨.here, t.fieldAddr t.live f j, (if f = 0 then 2 else 4) * r.d.k⟩ : Region))]

/-- REEL: waits while serving tasks hold the shadow generation, then updates it (R23, R195 to R197). -/
def runReel (v : Vault) (w : World) (r : Run) : World × Done :=
  let t := v.tenantOf r.t
  let k := r.d.k
  let j := (w.step? r.t.id).elim 0 (·.reel)
  if w.genHeld (r.t.tenant.getD 0) t.shadow then (w.updStage r.t.id r.g (fun s => { s with phase := .holders t.shadow }), none)
  else
    let o := r.opt (t.steps + 1)
    let fs := reelFields o.kind
    let wcode := r.d.par 1 1
    let gs := ((w.tensorAt r 0 (r.cores.headD 0) false).headD []).map (·.x)
    let liveW := w.fieldBytes t t.live 0 j k
    let live := [1, 2, 3].map (fun f => w.fieldBytes t t.live f j k)
    let val := fun (f i : Nat) => decodeF fmtF32 (leAt (live.getD (f - 1) []) (4 * i) 4)
    let els := gs.zipIdx.map (fun (g, i) => o.element g (val 1 i) (val 2 i) (val 3 i))
    let ok := fun (e : List XV) => e.all XV.isFin
    let outW := els.zipIdx.flatMap (fun (e, i) =>
      if ok e then leBytes 2 (convEl wcode 0 true false (e.headD .nan)).1 else slice liveW (2 * i) 2)
    let outF := fun (n f : Nat) => els.zipIdx.flatMap (fun (e, i) =>
      if ok e then leBytes 4 (f32Code (e.getD n .nan)) else slice (live.getD (f - 1) []) (4 * i) 4)
    let w := w.put r .here (t.fieldAddr t.shadow 0 j) outW (fun _ => 0)
    let w := fs.zipIdx.foldl (fun w (f, n) => w.put r .here (t.fieldAddr t.shadow f j) (outF n f) (fun _ => 0)) w
    let w := { w with train := { w.train with heldEls := sat32 w.train.heldEls (els.countP (fun e => !ok e)) } }
    (w.updStep r.t.id (fun s => { s with reel := s.reel + k }), some { r.ok with code := wcode })

/-! Commit (R20, R192, R193, R198, R201). -/

/-- The spend of a step's codes, in micro-units: ⌈2^(12+2j) / (k + 2)²⌉ (R192). -/
def spendOf (sigma q : Nat) : Nat := cdiv (2 ^ (12 + 2 * q)) ((sigma + 2) ^ 2)

/-- What the act of a commit changes in the tenant table: the live generation, the amount spent, the step count and the
last charged codes (R20, R198). -/
def Vault.commit (v : Vault) (tenant sigma q : Nat) : Vault :=
  { v with tenants := v.tenants.upd {} tenant (fun t => { t with
      live := t.shadow
      spent := t.spent + spendOf sigma q
      since := t.since + spendOf sigma q
      steps := sat32 t.steps 1
      codes := 128 + 16 * (q % 8) + sigma % 16 }) }

/-- Enters a metered cost into a program's history; a program with none starts one, which evicts the least recently
admitted (R201). -/
def histCommit (h : List (Nat × List Nat)) (prog cost : Nat) : List (Nat × List Nat) :=
  if h.any (fun e => e.1 == prog) then h.map (fun e => if e.1 == prog then (e.1, (cost :: e.2).take 8) else e)
  else ((prog, [cost]) :: h).take 16

/-- What the act of a commit changes elsewhere: the step counter, the metered cost, the norm and the clip factor, the zero path's
count, and that the new generation is no longer closed to serving tasks (R17, R19, R20, R191, R198). -/
def World.commit (w : World) (t : Task) (s : Step) : World :=
  let cost := satTo 32 (cdiv (w.meter.energy - s.energy0) 1000)
  let tr := w.train
  let w := { w with train := { tr with
    stepCtr := tr.stepCtr + 1
    lastCost := cost
    hist := histCommit tr.hist t.prog cost
    zeroPath := if s.frozen.any Frozen.zero then sat32 tr.zeroPath 1 else tr.zeroPath
    lastNorm := match s.frozen with | some f => (convF fmtF32 false false false f.norm).1 | none => tr.lastNorm
    lastClip := match s.frozen with | some f => f32Code f.f | none => tr.lastClip } }
  let w := { w with sched := { w.sched with tasks := w.sched.tasks.map (fun (u : Task) => if u.tenant = t.tenant then { u with shut := [] } else u) } }
  w.updStep t.id (fun s => { s with committed := true, abandon := none })

/-- COMMIT is refused while the REELs have not covered every value (R198). -/
def commitExtra (v : Vault) (w : World) (r : Run) : List Fail :=
  failIf ((w.step? r.t.id).elim true (fun s => decide (s.reel ≠ (v.tenantOf r.t).np))) 0 0x080B

/-- COMMIT: waits under R23, then performs the act, or in an ensemble sends ready-to-commit (R26, R198). -/
def runCommit (v : Vault) (w : World) (r : Run) : World × Done :=
  match w.step? r.t.id with
  | none => (w, some r.ok)
  | some s =>
    if w.genHeld s.tenant (v.tenantOf r.t).shadow then (w.updStage r.t.id r.g (fun s => { s with phase := .holders (v.tenantOf r.t).shadow }), none)
    else if w.multi then
      ((w.updStage r.t.id r.g (fun s => { s with phase := .collective })).castVote 1 s.tenant 0 r.t.id r.g 0, none)
    else (w.commit r.t s, some r.ok)

/-- The tenant and codes of the step that one state commits over another. -/
def World.newCommit (old new : World) : List (Nat × Nat × Nat) :=
  new.train.steps.filterMap (fun s =>
    if s.committed && (old.step? s.task).any (fun o => !o.committed) then
      (old.task? s.task).map (fun t => (s.tenant, t.sigma, t.q))
    else none)

/-- The act of the commits that `f` performs, in both parts of the state at once (R20). -/
def State.committing (st : State) (f : World → World) : State :=
  let w' := f st.w
  { st with w := w', vault := (st.w.newCommit w').foldl (fun v (c : Nat × Nat × Nat) => v.commit c.1 c.2.1 c.2.2) st.vault }

/-! CKPT (R388). -/

/-- The bytes of a tenant's checkpoint (Table 15.12). -/
def World.ckptBytes (w : World) (id : Nat) (t : Tenant) : Bytes :=
  leBytes 2 id ++ zeros 2 ++ leBytes 4 w.train.stepCtr ++ leBytes 4 t.np ++ leBytes 4 t.steps ++ leBytes 8 t.budget ++
    leBytes 8 t.spent ++ leBytes 8 t.since ++ [byteOf t.codes] ++ zeros 23 ++ slice t.secret 0 32 ++ zeros 32 ++
    w.load (t.genBase t.live) t.genLen

/-- Whether a checkpoint at an address fits the tenant's scratch area. -/
def Tenant.ckptFits (t : Tenant) (a : Nat) : Bool := decide (t.scr ≤ a) && decide (a + 128 + t.genLen ≤ t.scr + t.scrLen)

/-- CKPT stops with TENANT_ACCESS where its checkpoint would not lie in the scratch area of its task's tenant (R388). -/
def ckptExtra (v : Vault) (_ : World) (r : Run) : List Fail :=
  failIf (match r.t.tenant, (r.o 3).place with
    | some _, some (.here, a) => !(v.tenantOf r.t).ckptFits a
    | none, some (.here, _) => true
    | _, _ => false) (addrPos 3) 0x0701

/-- What CKPT reads: the live generation. -/
def ckptReads (v : Vault) (_ : World) (r : Run) : List (List Region) :=
  let t := v.tenantOf r.t
  [[(⟨.here, t.genBase t.live, t.genLen⟩ : Region)]]

/-- CKPT (R388): in a checkpoint task it also copies the scale slots, once. -/
def runCkpt (v : Vault) (w : World) (r : Run) : World × Done :=
  let id := r.t.tenant.getD 0
  let t := v.tenantOf r.t
  match (r.o 3).place with
  | some (l, a) =>
    let w := w.put r l a (w.ckptBytes id t) (fun _ => 0)
    let c : Ckpt := match w.job.ckNext with
      | some c => if c.task == r.t.id then c else { task := r.t.id, slots := w.num.slots, stepCtr := w.train.stepCtr }
      | none => { task := r.t.id, slots := w.num.slots, stepCtr := w.train.stepCtr }
    let w := if r.t.kind = 2 then { w with job := { w.job with ckNext := some { c with tenants := c.tenants ++ [(id, a, t.since)] } } } else w
    (w, some r.ok)
  | none => (w, some r.ok)

/-- The spend since a checkpoint counts from the checkpoint that has become the last one (R228, Table 15.12). -/
def Vault.ckpt (v : Vault) (old new : Option Ckpt) : Vault :=
  if old = new then v
  else match new with
    | none => v
    | some c => c.tenants.foldl (fun v (e : Nat × Nat × Nat) =>
        { v with tenants := v.tenants.upd {} e.1 (fun t => { t with since := t.since - e.2.2 }) }) v

/-! The meanings. -/

/-- ACTSAVE (R180). -/
def execActsave (q s : Nat) (r : StageRun) (st : State) : Host.Outcome State Fault Refusal :=
  st.operate q s r.stage r.upto 0x50 anyMod noExtra wholeReads runActsave

/-- ACTLOAD (R182). -/
def execActload (q s : Nat) (r : StageRun) (st : State) : Host.Outcome State Fault Refusal :=
  st.operate q s r.stage r.upto 0x51 anyMod actloadExtra wholeReads runActload

/-- GNORM (R185). -/
def execGnorm (q s : Nat) (r : StageRun) (st : State) : Host.Outcome State Fault Refusal :=
  st.operate q s r.stage r.upto 0x52 anyMod gnormExtra wholeReads runGnorm

/-- CLIPNOISE (R189). -/
def execClipnoise (q s : Nat) (r : StageRun) (st : State) : Host.Outcome State Fault Refusal :=
  st.operateV q s r.stage r.upto 0x53 anyMod clipnoiseExtra wholeReadsV runClipnoise

/-- REEL (R196). -/
def execReel (q s g : Nat) (st : State) : Host.Outcome State Fault Refusal :=
  st.operateV q s g [] 0x54 anyMod reelExtra reelReads runReel

/-- CKPT (R388). -/
def execCkpt (q s g : Nat) (st : State) : Host.Outcome State Fault Refusal :=
  st.operateV q s g [] 0x56 anyMod ckptExtra ckptReads runCkpt

end Sys2Proof.Machine
end

