-- ==== Sys2Proof/Machine/OpColl.lean ====
section
/-! DEFINITION. Collectives, SCALEUPD and PUSHPOST (R80, R81, R118, R119, R214, R216 to R221, R230, R231). -/

namespace Sys2Proof.Machine

/-! Scale updates (R80). -/

/-- One update of a slot from a pending entry, and whether the band or the pin was met (R80). -/
def Slot.update (sl : Slot) (defD defH : Nat) (pending : Option Int) : Slot × Bool :=
  let hist := (pending :: sl.hist).take 16
  let sl := { sl with hist := hist, pending := none, updates := sat32 sl.updates 1 }
  match (hist.take (sl.d.getD defD)).foldl maxExp none with
  | none => (sl, false)
  | some em =>
    let c := clampI (em + (sl.h.getD defH : Nat) - 15) (-128) 127
    let b := clampI c sl.lo sl.hi
    if sl.pinned then (sl, b != sl.s) else ({ sl with s := b }, b != c)

/-- Updates slots from `m` on with the given pending entries, in ascending order (R80, R184). -/
def World.updateSlots (w : World) (id : TaskId) (m : Nat) (pend : List (Option Int)) : World :=
  pend.zipIdx.foldl (fun w (p, i) =>
    let w := w.touchSlot id (m + i)
    let (sl, hit) := (w.num.slots.get {} (m + i)).update w.num.defD w.num.defH p
    { w with num := { w.num with
        slots := w.num.slots.set {} (m + i) sl
        confScale := if hit then sat32 w.num.confScale 1 else w.num.confScale } }) w

/-! Nodes of the tree (R216, R221). -/

/-- The number of leaves of a collective over `n` engines. -/
def Coll.leaves (c : Coll) (n : Nat) : Nat := if c.lam = 0 then n else 2 ^ c.lam

/-- The engine that owns a leaf (R221). -/
def leafOwner (n lam p : Nat) : Nat :=
  if lam = 0 then p else ((List.range n).find? (fun i => decide (i * 2 ^ lam / n ≤ p) && decide (p < (i + 1) * 2 ^ lam / n))).getD 0

/-- The combine of two nodes, the lower leaves on the left (R216, R217). -/
def CollOp.join (op : CollOp) (int : Bool) (a b : List XV) : List XV :=
  match op with
  | .gather => a ++ b
  | .sum => List.zipWith (if int then XV.add else addF) a b
  | .min => List.zipWith XV.min a b
  | .max | .slots | .bcast => List.zipWith XV.max a b

/-- One join or promotion of a node that stands here, where there is one. -/
def Coll.joinOne (c : Coll) (n : Nat) : Option Coll :=
  let l := c.leaves n
  c.nodes.findSome? (fun (p, s, v) =>
    if p % (2 * s) ≠ 0 ∨ l ≤ s then none
    else if decide (l ≤ p + s) || c.skipped.contains (p + s) then
      some { c with nodes := (c.nodes.filter (fun x => decide (x.1 ≠ p))) ++ [(p, 2 * s, v)] }
    else match c.nodes.find? (fun x => x.1 == p + s && x.2.1 == s) with
      | some y => some { c with nodes := (c.nodes.filter (fun x => decide (x.1 ≠ p) && decide (x.1 ≠ p + s))) ++ [(p, 2 * s, c.op.join c.int v y.2.2)] }
      | none => none)

/-- Every join that the nodes here allow. -/
def Coll.joinAll (n : Nat) : Nat → Coll → Coll
  | 0, c => c
  | fuel + 1, c => match c.joinOne n with
    | some c' => Coll.joinAll n fuel c'
    | none => c

/-- The nodes that go to another engine: right children whose parent's lowest leaf another engine owns. -/
def Coll.outgoing (c : Coll) (n me : Nat) : List (Nat × Nat × List XV) :=
  c.nodes.filter (fun (p, s, _) => decide (s < c.leaves n) && decide (p % (2 * s) ≠ 0) && decide (leafOwner n c.lam (p - s) ≠ me))

/-- The distinct engines that own the leaves of a node. -/
def leafOwners (n lam p s : Nat) : Nat :=
  if lam = 0 then min s (n - p) else (((List.range s).map (fun i => leafOwner n lam (p + i))).eraseDups).length

/-! Messages (Table 9.5; log entry 25). -/

/-- The bytes of a node's values: F32 codes, 64-bit integers, element codes of `bits` bits, or exponents. -/
def Coll.encode (c : Coll) (bits : Nat) (v : List XV) : Bytes :=
  let int := fun (x : XV) => (x.roundInt).getD 0
  match c.op with
  | .gather | .bcast => pack bits (v.map (fun x => (int x).toNat))
  | .slots => v.flatMap (fun x => leBytes 4 (ofSigned 32 (int x)))
  | _ => if c.int then v.flatMap (fun x => leBytes 8 (ofSigned 64 (int x))) else v.flatMap (fun x => leBytes 4 (f32Code x))

/-- The values of a node's bytes. -/
def Coll.decode (c : Coll) (bits : Nat) (bs : Bytes) : List XV :=
  match c.op with
  | .gather | .bcast => (unpack bits bs).map (fun (v : Nat) => XV.ofInt v)
  | .slots => (chunks 4 bs).map (fun b => XV.ofInt (toSigned 32 (leVal b)))
  | _ => if c.int then (chunks 8 bs).map (fun b => XV.ofInt (toSigned 64 (leVal b))) else (chunks 4 bs).map (fun b => decodeF fmtF32 (leVal b))

/-- The collective ID and sequence in a message's address field (Table 9.5). -/
def collAddr (id seq : Nat) : Nat := id % 2 ^ 32 + 2 ^ 32 * (seq % 2 ^ 16)

/-- Sends one level of a collective, on a transaction credit: a setup flit with the header, then the data (R215, R219). -/
def World.sendLevel (w : World) (c : Coll) (l node span : Nat) (down : Bool) (data : Bytes) : World :=
  match w.nodeOf l with
  | none => w
  | some dst =>
    let len := data.length + (if c.sealed_ then 16 else 0)
    let h := msgHeader mSetup dst w.node w.link.logical 0 len (collAddr c.id c.seq) (w.link.epoch % 2 ^ 16)
    let (w, body) :=
      if c.sealed_ then
        let (ct, tg) := gcmSeal w.linkKey ([byteOf w.node, 0#8, 0#8, 0#8] ++ leBytes 8 w.job.nonce) h data
        ({ w with job := { w.job with nonce := w.job.nonce + 1 } }, ct ++ tg)
      else (w, data)
    w.credited { dst := dst, vc := 2, msgs := [h ++ [byteOf c.lam, byteOf node, byteOf span, if down then 1#8 else 0#8], body], lvl := some c.seq }

/-- A collective leaves the engine; the credits of its level messages come back as they are acknowledged. -/
def World.dropColl (w : World) (c : Coll) : World :=
  { w with job := { w.job with colls := w.job.colls.filter (fun x => decide (x.seq ≠ c.seq)) } }

/-! Results. -/

/-- The run of a collective's operation. -/
def World.collRun (w : World) (c : Coll) : Option Run :=
  (w.task? c.task).bind (fun t => (t.stgs[c.stage]?).map (fun st => w.runOf t c.stage st))

/-- The collective is over here: its operation has executed, with the counts of its conversions. -/
def World.endColl (w : World) (c : Coll) (r : Run) (cnt : Cnt) : World :=
  (w.dropColl c).executed c.task c.stage (r.counted { sat := c.sat + cnt.sat, flush := c.flush + cnt.flush })

/-- Writes a result's bytes to D and ends the collective. -/
def World.writeColl (w : World) (c : Coll) (r : Run) (bs : Bytes) (cnt : Cnt) : World :=
  (w.putRows r (r.o 3) (bs.take (r.o 3).ext)).endColl c r cnt

/-- Passes a result down the tree, from its root or from the engine that has received it, highest level first (R216, R218). -/
def World.sendDown (w : World) (c : Coll) (bs : Bytes) : World :=
  let n := w.link.jobSize
  (relabelled n (if c.op = .bcast then c.root else 0) w.link.logical).foldl (fun w l => w.sendLevel c l 0 0 true bs) w

/-- The pending entries of an encoded result of SCALEUPD. -/
def pendOf (v : List XV) : List (Option Int) :=
  v.map (fun x => match x.roundInt with | some i => if i = -2147483648 then none else some i | none => none)

/-- The bits of an element code of D. -/
def Run.dBits (r : Run) : Nat := elBits (r.o 3).fmt.code

/-- What the root of the tree does with the result (R216 to R218). -/
def World.rootResult (w : World) (c : Coll) (r : Run) (v : List XV) : World :=
  if c.toRoot && decide (c.root ≠ w.link.logical) then
    (w.sendLevel c c.root 0 (c.leaves w.link.jobSize) true (c.encode r.dBits v)).endColl c r {}
  else match c.op with
    | .slots => ((w.sendDown c (c.encode 8 v)).updateSlots c.task r.d.m (pendOf v)).endColl c r {}
    | .gather =>
      let bs := c.encode r.dBits v
      (w.sendDown c bs).writeColl c r bs {}
    | _ =>
      let o := r.o 3
      let cv := convRow o.fmt r.satMode r.ftz v
      let bs := tensorBytes o.fmt o.els [cv]
      (if c.toRoot then w else w.sendDown c bs).writeColl c r bs cv.cnt

/-- Takes the partial that was carried to a node of the next collective of its ID (R231). -/
def World.takeCarried (w : World) (c : Coll) (p s : Nat) (v : List XV) : World × List XV :=
  match w.job.carried.find? (fun x => x.id == c.id && x.node == p && x.span == s) with
  | some x => ({ w with job := { w.job with carried := w.job.carried.erase x } }, c.op.join c.int v x.vals)
  | none => (w, v)

/-- Sends a node up, or carries or drops it where a skip notice has come for it (R216, R230, R231). -/
def World.sendNode (bits : Nat) (c : Coll) (w : World) (x : Nat × Nat × List XV) : World :=
  let (p, s, v) := x
  let n := w.link.jobSize
  let (w, v) := w.takeCarried c p s v
  if c.notices.contains p then
    if w.link.policy = 0 then
      { w with
        link := { w.link with carries := sat32 w.link.carries 1 }
        job := { w.job with carried := w.job.carried ++ [({ id := c.id, node := p, span := s, vals := v, owners := leafOwners n c.lam p s } : Carried)] } }
    else { w with link := { w.link with spoil := add64 w.link.spoil (leafOwners n c.lam p s) } }
  else w.sendLevel c (leafOwner n c.lam (p - s)) p s false (c.encode bits v)

/-- Moves a collective on as far as the nodes here allow. -/
def World.advanceColl (w : World) (seq : Nat) : World :=
  match w.job.colls.find? (fun c => c.seq == seq) with
  | none => w
  | some c =>
    let n := w.link.jobSize
    let me := w.link.logical
    if c.op = .bcast then w
    else match w.collRun c with
      | none => w
      | some r =>
        let c := c.joinAll n 300
        let out := c.outgoing n me
        let c := { c with nodes := c.nodes.filter (fun x => !out.contains x) }
        let w := w.updColl seq (fun _ => c)
        let w := out.foldl (World.sendNode r.dBits c) w
        match w.job.colls.find? (fun c => c.seq == seq) with
        | none => w
        | some c =>
          match c.nodes.find? (fun x => x.1 == 0 && decide (c.leaves n ≤ x.2.1)) with
          | some x => if me = 0 then w.rootResult c r x.2.2 else w
          | none => if c.toRoot && c.nodes.isEmpty && decide (c.root ≠ me) then w.endColl c r {} else w

/-- A result arrives from above (R216, R218). -/
def World.collDown (w : World) (c : Coll) (bs : Bytes) : World :=
  match w.collRun c with
  | none => w
  | some r =>
    if c.toRoot then
      let cv := convRow (r.o 3).fmt r.satMode r.ftz (c.decode r.dBits bs)
      w.writeColl c r (tensorBytes (r.o 3).fmt (r.o 3).els [cv]) cv.cnt
    else
      let w := w.sendDown c bs
      if c.op = .slots then (w.updateSlots c.task r.d.m (pendOf (c.decode 8 bs))).endColl c r {} else w.writeColl c r bs {}

/-- Whether a vote of BARRIER has been cast under a collective's sequence number (R219). -/
def World.barrierAt (w : World) (seq : Nat) : Bool := w.job.votes.any (fun v => v.kind == 3 && v.value == seq && v.own.isSome)

/-- The mismatch of R219, found in a message; a second one adds nothing while the tasks of the job still stop. -/
def World.mismatch (w : World) (src : Nat) : World :=
  if w.sched.tasks.any (fun t => t.stop == some 0x0511) then w else w.jobFault 9 src srcMgmt 0

/-- A message of a collective that has been issued here, or waits here (R219, R230, R231). -/
def World.collMsg (w : World) (e : Early) : World :=
  match w.job.colls.find? (fun c => c.seq % 2 ^ 16 == e.seq % 2 ^ 16) with
  | some c =>
    if c.id ≠ e.id ∨ c.lam ≠ e.lam then w.mismatch e.src
    else if e.skip then (w.updColl c.seq (fun c => { c with notices := c.notices ++ [e.node] })).advanceColl c.seq
    else if e.down then w.collDown c e.data
    else if c.skipped.contains e.node then w
    else
      let n := w.link.jobSize
      let bits := (w.collRun c).elim 8 Run.dBits
      let span := (List.range 8).foldl (fun s k => if e.node % 2 ^ k = 0 ∧ 0 < e.node then 2 ^ k else s) 1
      let len := (w.collRun c).elim 0 (fun r => if c.op = .gather then r.d.k * min span (n - e.node) else if c.op = .slots then r.d.n else r.d.k)
      let c' := fun (c : Coll) => { c with nodes := c.nodes ++ [(e.node, span, (c.decode bits e.data).take len)] }
      (w.updColl c.seq c').advanceColl c.seq
  | none =>
    if w.barrierAt (e.seq % 2 ^ 16) then w.mismatch e.src
    else if (e.seq + 2 ^ 16 - w.job.collSeq % 2 ^ 16) % 2 ^ 16 < 2 ^ 15 then { w with job := { w.job with early := w.job.early ++ [e] } }
    else if w.train.mode = 1 || e.skip || e.down then w
    else w.mismatch e.src

/-- Gives a collective that has just been issued the messages that came before it. -/
def World.takeEarly (w : World) (seq : Nat) : World :=
  let mine := w.job.early.filter (fun e => e.seq % 2 ^ 16 == seq % 2 ^ 16)
  let w := { w with job := { w.job with early := w.job.early.filter (fun e => !(e.seq % 2 ^ 16 == seq % 2 ^ 16)) } }
  mine.foldl World.collMsg w

/-- Issues a collective under the next sequence number (R219). -/
def World.issueColl (w : World) (r : Run) (c : Coll) : World × Done :=
  let seq := w.job.collSeq
  let c := { c with task := r.t.id, stage := r.g, seq := seq, sealed_ := w.readsSealed r }
  if c.sealed_ && !w.hasLinkSecret then (w, some { r.ok with status := 0x0701 })
  else
    let w := (w.updStage r.t.id r.g (fun s => { s with phase := .collective })).updTask r.t.id (fun t => { t with job := true })
    let w := { w with job := { w.job with collSeq := seq + 1, colls := w.job.colls ++ [c] } }
    ((w.advanceColl seq).takeEarly seq, none)

/-! The operations. -/

/-- The collective ID of an operation's parameter block. -/
def Run.collId (r : Run) : Nat := r.d.par 12 4

/-- The root that a parameter block names. -/
def Run.root (r : Run) : Nat := r.d.par 8 4

/-- The checks of the collectives: an ID of SCALEUPD's, a root outside the job, and the leaf-count exponent (R119, R221). -/
def collExtra (hasRoot hasLam : Bool) (_ : World) (r : Run) : List Fail :=
  failIf (decide (2 ^ 31 ≤ r.collId)) (512 + 8 * 12) 0x0802 ++
  (if hasRoot then failIf (decide (max 1 r.e.n ≤ r.root)) (512 + 8 * 8) 0x0808 else []) ++
  (if hasLam then
    failIf (decide (7 < r.d.par 46 1)) (512 + 8 * 46) 0x0802 ++
    failIf (decide (0 < r.d.par 46 1) && decide (2 ^ r.d.par 46 1 < r.e.n)) (512 + 8 * 46) 0x0808 else [])

/-- Whether two operands have one format, so that codes move unchanged between them (R119). -/
def sameFmt (a d : ElFmt) : Bool :=
  a.code == d.code && (!isX a.code || (a.blk == d.blk && a.sgn == d.sgn)) && (a.code != cF16S || a.s == d.s)

/-- A row as it is stored: its codes and its block exponents, unchanged. -/
def Opd.storedRow (o : Opd) (bs : Bytes) : ConvRow :=
  let n := if isX o.fmt.code then alignUp o.els (max 1 o.fmt.blk) else o.els
  let codes := (unpack (elBits o.fmt.code) (slice bs 0 (rowBytes o.fmt o.els))).take o.els
  { codes := codes ++ List.replicate (n - codes.length) 0
    blks := if isX o.fmt.code then (slice bs (scaleOff o.fmt o.rows o.els) (scaleRow o.fmt o.els)).map (·.toNat) else []
    stored := []
    cnt := {} }

/-- A's row in D's format. Where the formats are one, its codes and block exponents move unchanged: a copy flushes nothing and counts
nothing, under any FTZ (DESIGN CHOICE, log entry 79). Otherwise it is converted by R48, and the elements that FTZ reads as zero and
the events of the conversion are counted (DEDUCED, log entry 81). -/
def World.rowForD (w : World) (r : Run) : ConvRow :=
  if sameFmt (r.o 0).fmt (r.o 3).fmt then (r.o 0).storedRow (w.opdBytes (r.cores.headD 0) (r.o 0))
  else
    let row := (w.rowsOf r 0 r.ftz).headD []
    let cv := convRow (r.o 3).fmt r.satMode r.ftz (row.map (·.x))
    { cv with cnt := { cv.cnt with flush := cv.cnt.flush + flushCount [row] } }

/-- The copy that a job of one engine makes (R119). -/
def runLocalCopy (w : World) (r : Run) : World × Done :=
  let cv := w.rowForD r
  (w.putRows r (r.o 3) (tensorBytes (r.o 3).fmt (r.o 3).els [cv]), some (r.counted cv.cnt))

/-- The leaves of a reduction: exact integers, or values converted to F32 under the operation's SAT (R217). -/
def leafRow (int : Bool) (r : Run) (row : List El) : List XV × Cnt :=
  if int then (row.map (·.x), {})
  else
    let cs := row.map (fun e => convF fmtF32 false r.satMode r.ftz e.x)
    (cs.map (fun c => decodeF fmtF32 c.1), cs.foldl (fun t c => t.add c.2) {})

/-- ALLREDUCE and REDUCE_ROOT (R217, R218, R221). -/
def runReduceTree (op : CollOp) (toRoot : Bool) (w : World) (r : Run) : World × Done :=
  if !w.multi then runLocalCopy w r
  else
    let n := w.link.jobSize
    let me := w.link.logical
    let lam := r.d.par 46 1
    let int := (r.o 0).fmt.code == cI32
    let rows := w.rowsOf r 0 r.ftz
    let ls := rows.map (leafRow int r)
    let segs := if lam = 0 then [(me, 1)] else segments n me lam
    w.issueColl r {
      op := op, int := int, toRoot := toRoot, root := if toRoot then r.root else 0, id := r.collId, lam := lam
      nodes := List.zipWith (fun (s : Nat × Nat) (l : List XV × Cnt) => (s.1, s.2, l.1)) segs ls
      deadline := if r.d.par 40 4 = 0 then w.link.deadline else r.d.par 40 4
      sat := (ls.map (·.2.sat)).sum, flush := flushCount rows + (ls.map (·.2.flush)).sum }

/-- BROADCAST: the root's A, in D's format, to every D (R218). -/
def runBroadcast (w : World) (r : Run) : World × Done :=
  if !w.multi then runLocalCopy w r
  else
    let me := w.link.logical
    let c : Coll := { op := .bcast, root := r.root, id := r.collId }
    match w.issueColl r c with
    | (w, some res) => (w, some res)
    | (w, none) =>
      if me ≠ r.root then (w, none)
      else match w.job.colls.find? (fun c => c.task == r.t.id && c.stage == r.g) with
        | none => (w, none)
        | some c =>
          let cv := w.rowForD r
          let bs := tensorBytes (r.o 3).fmt (r.o 3).els [cv]
          ((w.sendDown c bs).writeColl c r bs cv.cnt, none)

/-- ALLGATHER: each engine's A, in D's format, in logical order (R218). -/
def runAllgather (w : World) (r : Run) : World × Done :=
  if !w.multi then runLocalCopy w r
  else
    let cv := w.rowForD r
    w.issueColl r {
      op := .gather, id := r.collId, sat := cv.cnt.sat, flush := cv.cnt.flush
      nodes := [(w.link.logical, 1, cv.codes.map (fun (c : Nat) => XV.ofInt c))] }

/-- BARRIER: a vote that carries nothing (R119, R218). -/
def runBarrier (w : World) (r : Run) : World × Done :=
  if !w.multi then (w, some r.ok)
  else
    let seq := w.job.collSeq % 2 ^ 16
    let bad := (w.vote? 3 seq).any (fun v => !v.got.isEmpty && decide (v.id ≠ r.collId)) || w.job.early.any (fun e => e.seq == seq)
    let w := (w.updStage r.t.id r.g (fun s => { s with phase := .collective })).castVote 3 seq r.collId r.t.id r.g 0
    let w := { w with job := { w.job with collSeq := w.job.collSeq + 1 } }
    (if bad then w.jobFault 9 w.node srcMgmt 0 else w, none)

/-- SCALEUPD: in an ensemble the pending entries are first reduced over the tree (R80, R81). -/
def runScaleupd (w : World) (r : Run) : World × Done :=
  let ix := (List.range r.d.n).map (· + r.d.m)
  let pend := ix.map (fun i => (w.num.slots.get {} i).pending)
  if !w.multi then (w.updateSlots r.t.id r.d.m pend, some r.ok)
  else w.issueColl r {
    op := .slots, int := true, id := 2 ^ 31 + r.d.n * 1024 + r.d.m
    nodes := [(w.link.logical, 1, pend.map (fun p => XV.ofInt (p.getD (-2147483648))))] }

/-! The meanings. -/

/-- SCALEUPD (R80, R81). -/
def execScaleupd (q s g : Nat) (st : State) : Host.Outcome State Fault Refusal :=
  st.operate q s g [] 0x41 anyMod noExtra wholeReads runScaleupd

/-- ALLREDUCE of kind SUM (R217). -/
def execAllreduceSum (q s g : Nat) (st : State) : Host.Outcome State Fault Refusal :=
  st.operate q s g [] 0x60 (modIs 3 0) (collExtra false true) wholeReads (runReduceTree .sum false)

/-- ALLREDUCE of kind MAX (R217). -/
def execAllreduceMax (q s g : Nat) (st : State) : Host.Outcome State Fault Refusal :=
  st.operate q s g [] 0x60 (modIs 3 1) (collExtra false true) wholeReads (runReduceTree .max false)

/-- ALLREDUCE of kind MIN (R217). -/
def execAllreduceMin (q s g : Nat) (st : State) : Host.Outcome State Fault Refusal :=
  st.operate q s g [] 0x60 (modIs 3 2) (collExtra false true) wholeReads (runReduceTree .min false)

/-- REDUCE_ROOT of kind SUM (R218). -/
def execReduceRootSum (q s g : Nat) (st : State) : Host.Outcome State Fault Refusal :=
  st.operate q s g [] 0x61 (modIs 3 0) (collExtra true true) wholeReads (runReduceTree .sum true)

/-- REDUCE_ROOT of kind MAX (R218). -/
def execReduceRootMax (q s g : Nat) (st : State) : Host.Outcome State Fault Refusal :=
  st.operate q s g [] 0x61 (modIs 3 1) (collExtra true true) wholeReads (runReduceTree .max true)

/-- REDUCE_ROOT of kind MIN (R218). -/
def execReduceRootMin (q s g : Nat) (st : State) : Host.Outcome State Fault Refusal :=
  st.operate q s g [] 0x61 (modIs 3 2) (collExtra true true) wholeReads (runReduceTree .min true)

/-- BROADCAST (R218). -/
def execBroadcast (q s g : Nat) (st : State) : Host.Outcome State Fault Refusal :=
  st.operate q s g [] 0x62 anyMod (collExtra true false) wholeReads runBroadcast

/-- ALLGATHER (R218). -/
def execAllgather (q s g : Nat) (st : State) : Host.Outcome State Fault Refusal :=
  st.operate q s g [] 0x63 anyMod (collExtra false false) wholeReads runAllgather

/-- PUSHPOST: the bytes to D; the post follows at completion (R118, R214). -/
def execPushpost (q s : Nat) (r : StageRun) (st : State) : Host.Outcome State Fault Refusal :=
  st.operate q s r.stage r.upto 0x65 anyMod noExtra wholeReads runBytes

end Sys2Proof.Machine
end

