-- ==== Sys2Proof/Machine/Sched.lean ====
section
/-! DEFINITION. Placement, pre-emption, context switches, holder resume and the regulators
(R18, R28, R69, R125 to R144, R177; 06_spindles_partitions_scheduling.md). -/

namespace Sys2Proof.Machine

/-! Placement (R130, R429). -/

/-- The latest placement of the tasks that hold a core. -/
def World.placedAt (w : World) (c : Nat) : Nat := (w.holdersOf c).foldl (fun b u => max b u.placed) 0

/-- Whether one core of lower rank is taken before another: the lower rank first, then the task placed most recently, then
the lower number (R130). -/
def World.takenBefore (w : World) (t : Task) (a b : Nat) : Bool :=
  let ra := (w.keptAt t a).getD 0
  let rb := (w.keptAt t b).getD 0
  decide (ra < rb) || (ra == rb && (decide (w.placedAt b < w.placedAt a) || (w.placedAt a == w.placedAt b && decide (a ≤ b))))

/-- Inserts a core into a list in that order. -/
def World.insertCore (w : World) (t : Task) (c : Nat) : List Nat → List Nat
  | [] => [c]
  | d :: ds => if w.takenBefore t c d then c :: d :: ds else d :: w.insertCore t c ds

/-- The candidate cores of a task, tier by tier (R130). -/
def World.candidates (w : World) (t : Task) : List Nat :=
  let p := w.part t.part
  let home := (maskBits 16 p.home).filter (w.qualifies t)
  let borrow := (maskBits 16 p.borrow).filter (fun c => !bitAt p.home c && w.qualifies t c)
  let free := fun (l : List Nat) => l.filter (fun c => (w.keptAt t c).isNone)
  let lower := fun (l : List Nat) =>
    (l.filter (fun c => (w.keptAt t c).any (fun r => decide (r < t.rank)))).foldr (fun c l => w.insertCore t c l) []
  free home ++ free borrow ++ lower home ++ lower borrow

/-- A core list in ascending order. -/
def sortCores (l : List Nat) : List Nat := (List.range 16).filter l.contains

/-- The cores a READY task is placed on, where enough qualify (R130). -/
def World.chooseCores (w : World) (t : Task) : Option (List Nat) :=
  let n := t.stages * t.cps
  let cs := (w.candidates t).take n
  if cs.length = n ∧ 0 < n then some (sortCores cs) else none

/-- Whether a READY or SUSPENDED task can be placed now. -/
def World.placeable (w : World) (t : Task) : Bool :=
  if t.st == .ready then (w.chooseCores t).isSome
  else t.st == .suspended && !t.out.isEmpty && t.out.all (w.canRegain t)

/-- Gives cores to a task and numbers its placement: it enters those that are free at once, and asks lower tasks to leave
the others. -/
def World.giveCores (w : World) (id : TaskId) (cs : List Nat) (f : Task → Task) : World :=
  let w := { w with sched := { w.sched with order := w.sched.order + 1 } }
  let w := w.updTask id (fun t => { f t with
    coming := t.coming ++ cs.filter (fun c => !t.coming.contains c), placed := w.sched.order })
  let w := cs.foldl (fun w c => w.askLeave id c) w
  (w.settle id).switchIn

/-- The generation that a serving task of a tenant takes when it starts (R22). DESIGN CHOICE (log entry 79): operand addresses are
absolute (R108) and no rule redirects them, so the generation taken is held (R23) and the other is closed to the task until a step
commits (R17), and nothing else follows. -/
def Vault.genAtStart (v : Vault) (t : Task) : Option Nat :=
  if t.ctx.isSome then t.tenant.map (fun n => (v.tenants.get {} n).live) else none

/-- The ranges that R17 sets for a task of a tenant: those that a step may write, and those that a serving task may not read. -/
def Vault.confine (v : Vault) (t : Task) : Task :=
  match t.tenant with
  | none => t
  | some n =>
    let ten := v.tenants.get {} n
    let areas := [(ten.act, ten.actLen), (ten.scr, ten.scrLen)]
    let gen := fun (g : Nat) => (ten.genBase g, alignUp ten.genLen 4096)
    if t.kind = 1 then { t with own := gen ten.shadow :: areas }
    else if t.ctx.isSome then { t with shut := [gen ten.shadow], veiled := areas }
    else t

/-- The switched-out cores on which a task is to go on as the holder of a chain (R141 step 3). -/
def World.owedCores (w : World) (t : Task) : List Nat :=
  ((w.sched.chains.flatMap (·.holders)).filter (fun h => h.task == t.id && !t.needsNone h.core && !t.coming.contains h.core)).map (·.core)

/-- TASK_PLACEMENT on a task (R130, R400, R429), or on a holder whose owning core was not to be had before (R141). -/
def World.placeTask (v : Vault) (w : World) (id : TaskId) : World :=
  match w.task? id with
  | none => w
  | some t =>
    if !w.coresRun || w.leaving || t.stop.isSome then w
    else if w.sched.tasks.any (fun u => !(u.id == id) && u.before t && u.stop.isNone && w.placeable u) then w
    else if t.lost && w.placeable t then w.endTask t 0x0403
    else if t.st == .ready then
      match w.chooseCores t with
      | none => { w with sched := { w.sched with failedPl := sat32 w.sched.failedPl 1 } }
      | some cs => w.giveCores id cs (fun t => { v.confine t with cores := cs, st := .switching, gen := v.genAtStart t })
    else if t.st == .suspended && w.placeable t then w.giveCores id t.out (fun t => { t with st := .switching })
    else if t.st == .suspended || t.st == .parked then (w.owedCores t).foldl (fun w c => w.regain id c) w
    else
      let cs := t.out.filter (fun c => !t.coming.contains c && w.canRegain t c)
      if (t.st == .running || t.st == .waiting || t.st == .switching) && !cs.isEmpty && t.cores.any t.on then
        cs.foldl (fun w c => w.regain id c) w
      else w

/-! Pre-emption points and context switches (R134, R135, R69). -/

/-- Whether a stage stands at a pre-emption point: between operations, or inside one that may be pre-empted (Table 5.11). An
X operation that has begun is not, nor is one that awaits the answer to its post; a job fault stops either nevertheless, since the
answer will not come (R223). -/
def Stage.atPoint (s : Stage) (stop : Option Nat) : Bool :=
  let opc := (Desc.ofBytes s.desc).opc
  let fault := stop.any (fun v => decide (v / 256 = 5))
  let x := [0x54, 0x55, 0x56].contains opc && !fault
  match s.phase with
  | .executed _ => false
  | .posting _ => fault
  | .collective => !x
  | .granted => !x
  | .holders _ => !x
  | _ => true

/-- Whether a task can stop now: every stage stands at a pre-emption point or is held up by a share that is switched out. -/
def Task.canStop (t : Task) : Bool := t.stgs.zipIdx.all (fun (s, g) => s.atPoint t.stop || !t.stageOn g)

/-- Whether a core's task is asked to leave it: by a task of higher rank that has been given the core, or because nothing
else can have set its request (R130, R141 step 4). -/
def World.wanted (w : World) (t : Task) (c : Nat) : Bool :=
  let by_ := fun (c : Nat) => w.sched.tasks.any (fun u => !(u.id == t.id) && u.coming.contains c && decide (t.rank < u.rank))
  t.preempt && (by_ c || !(t.cores.any (fun d => t.on d && by_ d)))

/-- Whether a step task has cast its admission vote and awaits the answer (R25). -/
def World.admissionCast (w : World) (id : TaskId) : Bool := w.job.votes.any (fun v => v.kind == 0 && v.task == id && v.own.isSome)

/-- Whether a task that has been switched in on a core has yet to run there to its first pre-emption point (R143). -/
def World.mustRun (w : World) (t : Task) (c g : Nat) (s : Stage) : Bool :=
  let whole := fun (bs : Bytes) => (Desc.ofBytes bs).preClass == .whole
  let runs := match s.phase with
    | .part | .retry => t.stageOn g || !whole s.desc
    | .ready => (w.fetchDesc s.pc).any (fun bs => t.stageOn g || !whole bs)
    | _ => false
  t.fresh.contains c && runs && w.canRun t g s

/-- Whether a cooling halt or a trip holds a task's cores, so that they reach no pre-emption point (R275). -/
def World.haltHolds (w : World) (t : Task) : Bool := (w.pt.coolStop || w.pt.trip) && t.cores.any t.on

/-- PREEMPTION_POINT: a task that must stop ends, and one that must leave a core begins to drain there (R134, R237, R327). -/
def World.preemptPoint (w : World) (id : TaskId) (c : Nat) : World :=
  match w.task? id with
  | none => w
  | some t =>
    if w.haltHolds t then w
    else if let some status := t.closing then (if w.unacked id then w else w.finish t status)
    else match t.stop with
    | some status =>
      if !t.canStop || !t.draining.isEmpty || !t.saving.isEmpty then w
      else if t.kind = 1 && t.st == .posted && w.multi && status / 256 ≠ 5 then
        (if w.admissionCast id then w else w.castVote 0 (t.tenant.getD 0) 0 id 0 status)
      else w.endTask t status
    | none =>
      let g := t.cores.idxOf c / max 1 t.cps
      let wanted := w.wanted t c
      if !t.on c || !(wanted || w.mustLeave t) then w
      else match t.stgs[g]? with
        | none => w
        | some s =>
          if !s.atPoint none || w.mustRun t c g s then w
          else
            let w := w.updStage id g (fun s => { s with preempted := s.preempted || (match s.phase with | .ready | .markHeld | .ended => false | _ => true) })
            let w := w.updTask id (fun t => { t with draining := t.draining ++ [c], fresh := t.fresh.filter (· != c), asked := none })
            let w := { w with sched := { w.sched with preempts := if wanted then add64 w.sched.preempts 1 else w.sched.preempts } }
            w.settle id

/-- Whether a stage of a task has a link transaction outstanding: a remote write, a remote read, an answer to a post, or a level
message that is not acknowledged (R134). -/
def World.outstanding (w : World) (t : Task) (g : Nat) : Bool :=
  w.unacked t.id || ((t.stgs[g]?).any (fun s => (s.phase == .granted && !w.job.reads.isEmpty) || (match s.phase with | .posting _ => true | _ => false))) ||
    w.job.colls.any (fun c => c.task == t.id && c.stage == g && decide (0 < c.credits))

/-- DRAIN_COMPLETE: the link transactions of the task have completed, each with its credit back in the pool, and its record is to be
saved (R134). -/
def World.drained (w : World) (id : TaskId) (c ns : Nat) : World :=
  match w.task? id with
  | none => w
  | some t =>
    let g := t.cores.idxOf c / max 1 t.cps
    if !t.draining.contains c || w.outstanding t g then w
    else
      let w := w.updTask id (fun t => { t with
        draining := t.draining.filter (· != c), saving := t.saving ++ [c] })
      { w with sched := { w.sched with longDrains := if 1500 < ns then sat32 w.sched.longDrains 1 else w.sched.longDrains } }

/-- The slot of a core that a record is saved in: the lowest free one, of three where placement chose the switch out, and of four
otherwise (R134). -/
def World.freeSlot (w : World) (t : Task) (c : Nat) : Nat :=
  let n := if t.parking || w.leaving then 4 else 3
  ((List.range n).find? (fun i => !w.sched.ctx.any (fun x => x.core == c && x.slot == i))).getD 3

/-- Saves the record of a task's share of a stage on a core, which leaves the core's accumulators and tile state empty (R134). -/
def World.saveCtx (w : World) (t : Task) (c : Nat) : World :=
  let g := t.cores.idxOf c / max 1 t.cps
  let i := (t.stageCores g).idxOf c
  let s := t.stgs.getD g {}
  let rec_ : CtxRec := {
    core := c, slot := w.freeSlot t c, task := t.id, stage := g, tenant := t.tenant, pc := s.pc, point := s.pts.getD i 0
    tiles := s.tiles.getD i {}, cnt := s.cnt, defs := s.defs, slots := s.slots }
  let w := w.updStage t.id g (fun s => { s with pts := modAt s.pts i (fun _ => 0), tiles := modAt s.tiles i (fun _ => {}) })
  { w with sched := { w.sched with ctx := w.sched.ctx ++ [rec_] } }

/-- Restores the record of a task on a core, and frees its slot (R69, R134). -/
def World.restoreCtx (w : World) (id : TaskId) (c : Nat) : World :=
  let mine := fun (x : CtxRec) => x.task == id && x.core == c
  match w.sched.ctx.find? mine, w.task? id with
  | some x, some t =>
    let i := (t.stageCores x.stage).idxOf c
    let w := w.updStage id x.stage (fun s => { s with pts := modAt s.pts i (fun _ => x.point), tiles := modAt s.tiles i (fun _ => x.tiles) })
    { w with sched := { w.sched with ctx := w.sched.ctx.filter (fun y => !mine y) } }
  | _, _ => w

/-- CONTEXT_SAVE_DONE: the share is switched out, and the first task that waits for the core enters it (R134, R143). -/
def World.saved (w : World) (id : TaskId) (c : Nat) : World :=
  match w.task? id with
  | none => w
  | some t =>
    if !t.saving.contains c then w
    else
      let w := (w.saveCtx t c).updTask id (fun t => ({ t with saving := t.saving.filter (· != c), out := t.out ++ [c] } : Task))
      let more := fun (t : Task) => t.cores.any (fun d => t.on d && w.wanted t d) &&
        w.sched.tasks.any (fun u => !(u.id == id) && u.coming.any (fun d => t.on d))
      let w := w.updTask id (fun t => { t with preempt := more t })
      (w.settle id).switchIn

/-- CONTEXT_RESTORE_DONE: a switched-out share goes on with its next group (R69); a record that cannot be restored is a fault
(R398 cause 4). -/
def World.restored (w : World) (id : TaskId) (c : Nat) (ok : Bool) : World :=
  match w.task? id with
  | none => w
  | some t =>
    if !t.out.contains c || !t.coming.contains c || !w.canEnter t c || !w.coresRun || w.leaving then w
    else if ok then
      let w := { w with mem := { w.mem with l1 := w.mem.l1.set [] c [] } }
      (w.restoreCtx id c).updTask id (fun t => ({ t with
        out := t.out.filter (· != c)
        coming := t.coming.filter (· != c)
        fresh := t.fresh ++ [c] } : Task).settle)
    else
      let w := (w.updTask id (fun t => { t with stop := some 0x0402 })).taskFault t 4 srcCore c
      match w.task? id with
      | some t => w.endTask t 0x0402
      | none => w

/-- DRAIN_TIMEOUT: a drain that takes 50 µs is a link fault, and one of those that lasted longer than 1.5 µs (R135). -/
def World.drainTimeout (w : World) (id : TaskId) (c : Nat) : World :=
  match w.task? id with
  | none => w
  | some t =>
    if !t.draining.contains c then w
    else
      let w := { w with sched := { w.sched with longDrains := sat32 w.sched.longDrains 1 } }.taskFault t 6 srcCore c
      match w.task? id with
      | some t => w.finish t 0x0502
      | none => w

/-! Semaphores and holder resume. -/

/-- SEM_RELEASE: the first waiter of a semaphore that is not 0 acquires it; a parked one comes back to try again
(R138, R140, R141). -/
def World.semRelease (w : World) (glob : Bool) (n : Nat) : World :=
  let s := w.sem glob n
  if s.value = 0 || (glob && !w.semHere) then w
  else match firstWaiter (w.waiters glob n) with
    | none => w
    | some x =>
      match x.task, x.far with
      | some (id, g), _ =>
        match w.task? id with
        | some t => if t.parking then w.unwait id g .retry else (w.takeSem glob n t g).unwait id g .granted
        | none => w
      | none, some f =>
        let w := w.updSem true n (fun s => { s with
          value := s.value - 1
          far := s.far.erase f
          owner := some { engine := f.engine, task := ⟨f.queue, f.slot⟩, slot := f.slot, core := f.core } })
        w.semMsg f.engine 2 n f.queue f.slot f.core f.rank
      | none, none => w

/-- Tells the engine of a far holder that its waiter has given up (R142). -/
def World.withdraw (w : World) (c : Chain) : World :=
  if !c.glob || !c.holders.isEmpty then w
  else if w.semHere then
    match (w.sem true c.sem).owner with
    | some o => if o.engine = w.link.logical then w else w.semMsg o.engine 7 c.sem o.task.queue o.slot o.core 0
    | none => w
  else match w.task? c.waiter with
    | some t => w.semMsg w.sched.semHome 7 c.sem t.id.queue t.slot ((t.stageCores c.stage).headD 0) 0
    | none => w

/-- HOLD_BUDGET_EXPIRY of a waiter's chain; a post that came first stands (R142, R144). -/
def World.budgetExpiry (w : World) (id : TaskId) : World :=
  match w.sched.chains.find? (fun c => c.waiter == id) with
  | none => w
  | some c =>
    if 0 < (w.sem c.glob c.sem).value then w
    else c.holders.foldl (fun w h => w.yieldCores false h.task) ((w.withdraw c).dropChains (fun d => d.waiter == id && d.stage == c.stage))

/-! Steps. -/

/-- PHASE_MARK_RELEASE: every other stage has reached END, so the held operation goes on (R177). A step whose agreed abandon had not
reached a boundary ends at once (R29, R200). -/
def World.markRelease (w : World) (id : TaskId) : World :=
  match w.task? id with
  | none => w
  | some t =>
    let g := t.stages - 1
    if (t.stgs[g]?).any (fun s => s.phase == .markHeld) && t.othersOver g then
      match w.dueAbandon t with
      | some status => w.finishAfter t status
      | none => (w.updStage id g (fun s => { s with phase := .ready })).updStep id (fun s => { s with marked := true })
    else w

/-- STEP_ABANDON: every stage has reached its boundary, so the step completes without committing (R28, R200). -/
def World.stepAbandon (w : World) (id : TaskId) : World :=
  match w.task? id, w.step? id with
  | some t, some s =>
    match s.abandon with
    | some status =>
      if s.agreed && !s.committed && (t.cores.isEmpty || t.stgs.all (fun x => x.boundary || x.phase.past || x.phase == .markHeld)) then
        w.finishAfter t status
      else w
    | none => w
  | _, _ => w

/-- The energy estimate of a program (R201). -/
def World.estimate (w : World) (prog : Nat) : Nat :=
  match w.train.hist.find? (fun e => e.1 == prog) with
  | some (_, c :: cs) => cdiv ((cs.foldl max c) * (100 + w.train.margin)) 100
  | _ => w.train.estNone

/-- An admitted step: its program takes its place in the cost histories, its metering starts, and its task is ready
(R19, R201). -/
def World.acceptStep (w : World) (t : Task) : World :=
  let was := w.train.hist
  let old := ((was.find? (fun e => e.1 == t.prog)).map (·.2)).getD []
  let hist := ((t.prog, old) :: was.filter (fun e => decide (e.1 ≠ t.prog))).take 16
  let w := { w with train := { w.train with
    hist := hist
    steps := w.train.steps ++ [({ task := t.id, tenant := t.tenant.getD 0, energy0 := w.meter.energy, histWas := was, histNow := hist } : Step)] } }
  w.updTask t.id (fun t => { t with st := .ready })

/-- A step refused at admission completes at once (R18, R25). -/
def World.refuseStep (w : World) (t : Task) (status : Nat) : World :=
  let w := if status = 0x0101 then { w with train := { w.train with deferred := sat32 w.train.deferred 1 } } else w
  w.finish t status

/-- The status of a step task's own admission checks: tenant, energy, ledger (R18, R193, R201, R383). -/
def World.admissionStatus (v : Vault) (w : World) (t : Task) : Nat :=
  let ten := v.tenants.get {} (t.tenant.getD 0)
  if ten.st ≠ 2 then 0x020A
  else if w.train.reserve ≠ 0xFFFFFFFF ∧ w.train.reserve < w.estimate t.prog then 0x0101
  else if ten.budget < ten.spent + spendOf t.sigma t.q then 0x0207
  else 0

/-- STEP_ADMISSION: one step of a tenant at a time (R16); in an ensemble the engine votes first (R25). -/
def World.admission (v : Vault) (w : World) (id : TaskId) : World :=
  match w.task? id with
  | none => w
  | some t =>
    let tenant := t.tenant.getD 0
    if t.kind ≠ 1 || t.st != .posted || t.stop.isSome || w.admissionCast id then w
    else if w.train.steps.any (fun s => s.tenant == tenant) || w.job.votes.any (fun v => v.kind == 0 && v.value == tenant && v.own.isSome) then w
    else if !w.coresRun || w.leaving then w
    else
      let status := w.admissionStatus v t
      let w := if status = 0x020A then w else { w with train := { w.train with lastEst := w.estimate t.prog } }
      let w := w.updTask id v.confine
      if w.multi then w.castVote 0 tenant 0 id 0 status
      else if status = 0 then w.acceptStep t
      else w.refuseStep t status

/-! The regulators (R132, R133). -/

/-- REGULATOR_REFILL at a whole microsecond, at which a written rate and depth come into force (R132). -/
def Part.refill (p : Part) : Part :=
  { p with tokens := min (p.tokens + p.rate * 1000) (p.rate * p.depth * 1000), inForce := p.rate }

/-- ⌊1,024 × a / b⌋, and 0 where b is 0. -/
def index1024 (a b : Nat) : Nat := if b = 0 then 0 else 1024 * a / b

/-- INTERFERENCE_WINDOW_END: the indices of a partition from its counts A, X and H of fabric cycles (R133). -/
def Part.window (p : Part) (c : Nat × Nat × Nat) : Part :=
  { p with interf := index1024 (min c.2.1 c.1) c.1, stall := index1024 c.2.2 (c.1 + c.2.2) }

/-- Changes the partitions. -/
def World.mapParts (w : World) (f : Nat → Part → Part) : World :=
  { w with sched := { w.sched with parts := w.sched.parts.zipIdx.map (fun (p, i) => f i p) } }

/-- Whether the engine's clocks run: Active, Idle, or a power-down before D5 (Table 10.6). -/
def World.clocked (w : World) : Bool := w.power.st == .active || w.power.st == .idle || (w.power.st == .down && decide (w.power.dstep < 5))

end Sys2Proof.Machine
end

