-- ==== Sys2Proof/Machine/Steps.lean ====
section
/-! DEFINITION. What the votes of an ensemble decide (R25, R26, R200, R218, R225), and the meanings of the commands whose
effect may be such a decision: END, OP_COMPLETE, COMMIT, BARRIER and the scheduler's. -/

namespace Sys2Proof.Machine

/-- An operation that waited for an answer over the tree has run. -/
def World.answered (w : World) (id : TaskId) (g : Nat) : World :=
  match w.task? id with
  | none => w
  | some t =>
    match t.stgs[g]? with
    | none => w
    | some st => if st.phase == .collective then w.executed id g (w.runOf t g st).ok else w

/-- What an engine does on the answer to a vote of its own: 0 admission, 1 commit, 3 barrier, 4 checkpoint. -/
def World.actVote (w : World) (v : Vote) (status : Nat) : World :=
  match v.kind, w.task? v.task with
  | 0, some t => if t.st != .posted then w else if status = 0 then w.acceptStep t else w.refuseStep t status
  | 1, some t =>
    match w.step? v.task with
    | some s => (w.commit t s).answered v.task v.stage
    | none => w
  | 3, some _ => w.answered v.task v.stage
  | 4, some t => if status = 0 then (w.adoptCkpt t.id).finishAfter t 0 else (w.dropCkpt t.id).finishAfter t status
  | _, _ => w

/-- Combines one vote where it is ready: at logical engine 0 the answer goes down the tree and acts there. -/
def World.settleVote (w : World) (kind value : Nat) : World :=
  if 5 ≤ kind then w
  else match w.tally kind value with
    | (w, none) => w
    | (w, some v) => (w.voteDown kind (v.own.getD 0) value).actVote v (v.own.getD 0)

/-- Combines every vote that is ready. -/
def World.settleVotes (w : World) : World := w.job.votes.foldl (fun w v => w.settleVote v.kind v.value) w

/-- A change of the engine that may commit a step, adopt a checkpoint or complete a vote, with what the tenant table takes
from it (R20, Table 15.12). -/
def State.onJob (st : State) (f : World → World) : State :=
  let s := st.committing (fun w => (f w).settleVotes)
  { s with vault := s.vault.ckpt st.w.job.ckpt s.w.job.ckpt }

/-! Operations. -/

/-- Whether a stage stands at an END that has run. -/
def World.endRun (w : World) (q s g : Nat) : Bool :=
  ((w.task? ⟨q, s⟩).bind (fun t => t.stgs[g]?)).elim false (fun st =>
    (match st.phase with | .executed _ => true | _ => false) && leAt st.desc 0 1 == 1)

/-- END: the stage's stream ends, and the task completes when all its stages have (R100, R122). Its own completion follows
at once, unless its release must wait for remote writes; OP_COMPLETE then completes it. -/
def execEndOp (q s g : Nat) (st : State) : Host.Outcome State Fault Refusal :=
  .next (st.onJob (fun w =>
    let w := w.operate q s g [] 0x01 anyMod noExtra wholeReads runNothing
    if w.endRun q s g then w.completeOp q s g else w))

/-- OP_COMPLETE (R114 stages 7 to 10). -/
def execOpComplete (q s g : Nat) (st : State) : Host.Outcome State Fault Refusal :=
  .next (st.onJob (fun w => w.completeOp q s g))

/-- COMMIT (R20, R26, R198). -/
def execCommit (q s g : Nat) (st : State) : Host.Outcome State Fault Refusal :=
  .next (st.onJob (fun w => w.operate q s g [] 0x55 anyMod (commitExtra st.vault) wholeReads (runCommit st.vault)))

/-- BARRIER (R218). -/
def execBarrier (q s g : Nat) (st : State) : Host.Outcome State Fault Refusal :=
  .next (st.onJob (fun w => w.operate q s g [] 0x64 anyMod (collExtra false false) wholeReads runBarrier))

/-! The scheduler. -/

/-- SEM_RELEASE (R138). -/
def execSemRelease (glob : Bool) (n : Nat) (st : State) : Host.Outcome State Fault Refusal :=
  .next (st.onW (fun w => w.semRelease glob n))

/-- HOLD_BUDGET_EXPIRY (R142). -/
def execHoldBudgetExpiry (q s : Nat) (st : State) : Host.Outcome State Fault Refusal :=
  .next (st.onW (fun w => w.budgetExpiry ⟨q, s⟩))

/-- PHASE_MARK_RELEASE (R177). -/
def execPhaseMarkRelease (q s : Nat) (st : State) : Host.Outcome State Fault Refusal :=
  .next (st.onW (fun w => w.markRelease ⟨q, s⟩))

/-- STEP_ADMISSION (R16, R18, R25). -/
def execStepAdmission (q s : Nat) (st : State) : Host.Outcome State Fault Refusal :=
  .next (st.onJob (fun w => w.admission st.vault ⟨q, s⟩))

/-- STEP_ABANDON (R28, R29). -/
def execStepAbandon (q s : Nat) (st : State) : Host.Outcome State Fault Refusal :=
  .next (st.onW (fun w => w.stepAbandon ⟨q, s⟩))

/-- TASK_PLACEMENT (R130, R429). -/
def execTaskPlacement (q s : Nat) (st : State) : Host.Outcome State Fault Refusal :=
  .next (st.onJob (fun w => w.placeTask st.vault ⟨q, s⟩))

/-- PREEMPTION_POINT (R134). -/
def execPreemptionPoint (q s core : Nat) (st : State) : Host.Outcome State Fault Refusal :=
  .next (st.onJob (fun w => w.preemptPoint ⟨q, s⟩ core))

/-- DRAIN_COMPLETE (R134). -/
def execDrainComplete (q s core ns : Nat) (st : State) : Host.Outcome State Fault Refusal :=
  .next (st.onW (fun w => w.drained ⟨q, s⟩ core ns))

/-- CONTEXT_SAVE_DONE (R134). -/
def execContextSaveDone (q s core : Nat) (st : State) : Host.Outcome State Fault Refusal :=
  .next (st.onW (fun w => w.saved ⟨q, s⟩ core))

/-- CONTEXT_RESTORE_DONE (R69). -/
def execContextRestoreDone (q s core : Nat) (ok : Bool) (st : State) : Host.Outcome State Fault Refusal :=
  .next (st.onJob (fun w => w.restored ⟨q, s⟩ core ok))

/-- DRAIN_TIMEOUT (R135). -/
def execDrainTimeout (q s core : Nat) (st : State) : Host.Outcome State Fault Refusal :=
  .next (st.onW (fun w => w.drainTimeout ⟨q, s⟩ core))

/-- REGULATOR_REFILL (R132). -/
def execRegulatorRefill (st : State) : Host.Outcome State Fault Refusal :=
  .next (st.onW (fun w => if w.clocked then w.mapParts (fun _ p => p.refill) else w))

/-- INTERFERENCE_WINDOW_END (R133). -/
def execInterferenceWindowEnd (cycles : List (Nat × Nat × Nat)) (st : State) : Host.Outcome State Fault Refusal :=
  .next (st.onW (fun w => if w.clocked then w.mapParts (fun i p => p.window (cycles.getD i (0, 0, 0))) else w))

end Sys2Proof.Machine
end

