-- ==== Sys2Proof/Machine/PowerOps.lean ====
section
/-! DEFINITION. What every family asks of the power states: their codes, changes and the way out of Idle
(R235, R238, R243). -/

namespace Sys2Proof.Machine

/-- The code of a state in 0x2000:02; Dormant and Wake-Failed are never read, and have none (R235; log entry 30). -/
def PState.code : PState → Nat
  | .active => 0 | .idle => 1 | .doze => 2 | .up => 3 | .down => 4 | .unwind => 5
  | .dormant => Config.dormantState | .wakeFailed => Config.dormantState

/-- Whether a state has a code. -/
def PState.shown (s : PState) : Bool := s != .dormant && s != .wakeFailed

/-- Changes the state, with its POWER_STATE event; changes that end in Dormant or Wake-Failed are not logged (R235). -/
def World.setSt (w : World) (s : PState) : World :=
  let old := w.power.st
  let w := { w with power := { w.power with st := s } }
  if old = s ∨ !s.shown then w else w.event 0x0001 srcAlwaysOn 0 old.code s.code

/-- Whether signed firmware runs: firmware that ran before a load runs on while the load lasts (R243, R373). -/
def World.fwRuns (w : World) : Bool := decide (w.sec.fw ≠ 0) || (w.sec.loading.isSome && decide (w.sec.fwPrev ≠ 0))

/-- Whether the host reaches the engine over PCIe: the link is trained, and READY is high (R316). -/
def World.hostUp (w : World) : Bool :=
  decide (w.host.speed ≠ 0) && w.pins.ready && w.pins.perstN && (w.power.st == .active || w.power.st == .idle || w.power.st == .down)

/-- Tasks that waited for Active become ready (R238, Table 6.3). -/
def World.readyPosted (w : World) : World :=
  { w with sched := { w.sched with tasks := w.sched.tasks.map (fun (t : Task) => if t.st == .posted && t.kind != 1 then { t with st := .ready } else t) } }

/-- Leaves Idle for Active (R237, Table 10.7). -/
def World.leaveIdle (w : World) : World :=
  if w.power.st = .idle then ({ w with meter := { w.meter with calRun := false } }.setSt .active).readyPosted else w

/-- A doorbell in Idle returns the engine to Active where 0x2000:04 allows it (R238, R341). -/
def World.doorbell (w : World) : World :=
  if w.power.st = .idle ∧ w.power.leaveIdle then { w with power := { w.power with req := 0 } }.leaveIdle else w

end Sys2Proof.Machine
end

