-- ==== Sys2Proof/Machine/Queues.lean ====
section
/-! DEFINITION. Queues, their doorbells, the task descriptor, resets of the host port and the memory window
(R316 to R330, R342, R345; 13_host_port_queues_streams.md). -/

namespace Sys2Proof.Machine

/-! Sequences (R322). -/

/-- The difference of two 32-bit sequences. -/
def seqDiff (a b : Nat) : Nat := (a + 2 ^ 32 - b % 2 ^ 32) % 2 ^ 32

/-- Whether sequence `a` precedes `b`. -/
def precedes (a b : Nat) : Bool := decide (1 ≤ seqDiff b a) && decide (seqDiff b a < 2 ^ 31)

/-- Whether a queue runs: enabled, not stopped, and not being reset. -/
def Queue.runs (q : Queue) : Bool := q.enabled && q.st == 1 && !q.resetting

/-- PROD_WRITE (R323). -/
def World.prodWrite (w : World) (n p : Nat) : World :=
  if !w.hostUp || 64 ≤ n || 2 ^ 32 ≤ p then w
  else
    let w := w.updQueue n (fun q => { q with prodRaw := p })
    let q := w.queue n
    if !q.runs then w
    else if seqDiff p q.f < 2 ^ 31 ∧ seqDiff p (q.s + q.a) ≤ q.e then
      (w.updQueue n (fun q => { q with p := p, posts := (p, w.now) :: q.posts })).doorbell
    else w.stopQueue n 0x081A

/-- CACK_WRITE (R325). -/
def World.cackWrite (w : World) (n a : Nat) : World :=
  if !w.hostUp || 64 ≤ n || 2 ^ 32 ≤ a then w
  else
    let w := w.updQueue n (fun q => { q with cackRaw := a })
    let q := w.queue n
    if !q.enabled || q.resetting then w
    else if seqDiff a q.a ≤ seqDiff q.c q.a then w.updQueue n (fun q => { q with a := a })
    else if q.st = 1 then w.stopQueue n 0x081A
    else w

/-- Marks a task as cancelled: it ends at its next pre-emption point (R327). -/
def World.cancelTask (w : World) (id : TaskId) (silent : Bool) : World :=
  w.updTask id (fun t => { t with stop := some (t.stop.getD 0x020C), silent := t.silent || silent })

/-- CANCEL_WRITE (R327). -/
def World.cancelWrite (w : World) (n s : Nat) : World :=
  if !w.hostUp || 64 ≤ n || 2 ^ 32 ≤ s then w
  else if (w.task? ⟨n, s⟩).isSome then w.cancelTask ⟨n, s⟩ false
  else
    let q := w.queue n
    if q.enabled && !q.resetting && seqDiff s q.f < 2 ^ 31 then w.updQueue n (fun q => { q with cancel := some s }) else w

/-! The task descriptor (Table 13.6, R329, R330). -/

/-- The fields of a task descriptor as a task. -/
def taskOf (n slot : Nat) (ceil doorbell : Nat) (b : Bytes) : Task :=
  let v := leVal b
  { id := ⟨n, fld v 0 32⟩, slot := slot, kind := fld v 32 8
    prio := min (fld v 40 4) ceil
    part := fld v 44 3
    profile := fld v 48 3
    ctx := if bitAt v 63 then some (fld v 56 7) else none
    tenant := if bitAt v 79 then some (fld v 64 12) else none
    prog := fld v 80 16
    sigma := fld v 96 4
    q := fld v 100 3
    stages := fld v 104 4 + 1
    cps := fld v 108 4 + 1
    winBase := fld v 112 8
    winLen := fld v 120 8 + 1
    stageTable := fld v 128 48
    repAddr := fld v 192 48
    repLen := fld v 256 32
    doorbell := doorbell }

/-- Whether a global address is local to this engine: 0xFF, or its own logical ID in a job (R108). -/
def World.ownAddr (w : World) (ga : Nat) : Bool :=
  decide (ga / 2 ^ 40 = 0xFF) || (decide (w.link.jobState ≠ 0) && decide (ga / 2 ^ 40 = w.link.logical))

/-- The entries of a task's stage table (R330). -/
def World.stageStarts (w : World) (t : Task) : List Nat :=
  (List.range t.stages).map (fun i => leVal (w.load (t.stageTable % 2 ^ 40 + 8 * i) 8))

/-- The checks of a fetched descriptor at their positions, in the order of R13 (R329, R330). What the stage table holds is
checked at the position of its address. -/
def World.taskFails (v : Vault) (w : World) (b : Bytes) (t : Task) : List Fail :=
  let d := leVal b
  let bad := fun (lo n : Nat) => failIf (decide (fld d lo n ≠ 0)) lo 0x0801
  let job := t.kind = 1 || t.kind = 2
  let c := w.ctx (t.ctx.getD 0)
  let unbound := match t.ctx with
    | some _ => !c.isOpen || c.queue != t.id.queue || (bitAt c.tenant 15 && t.tenant != some (c.tenant % 4096))
    | none => false
  let st := fun (n : Nat) => (v.tenants.get {} n).st
  let absent := match t.tenant with
    | some n => if t.kind = 1 then st n != 2 else st n == 0
    | none => false
  let tableOk := t.stageTable / 2 ^ 40 == 0xFF && t.stageTable % 8 == 0 && inHost (t.stageTable % 2 ^ 40) (8 * t.stages)
  let entries := w.stageStarts t
  failIf (decide (2 < t.kind)) 32 0x0802 ++ bad 47 1 ++ bad 51 5 ++
    (if job then bad 56 8 else failIf unbound 56 0x020B) ++
    failIf absent 64 0x020A ++ bad 76 3 ++ failIf (t.kind == 1 && t.tenant.isNone) 79 0x020A ++
    (if t.kind = 1 then bad 103 1 else if t.kind = 0 || t.kind = 2 then bad 80 16 ++ bad 96 8 else []) ++
    failIf (!tableOk) 128 0x0807 ++
    (if tableOk then
      match entries.find? (fun e => decide (fld e 40 8 ≠ 0xFF) || decide (e % 64 ≠ 0) || decide (fld e 48 16 ≠ 0)) with
      | some e => [(128, if fld e 40 8 ≠ 0xFF ∨ e % 64 ≠ 0 then 0x0807 else 0x0801)]
      | none => []
     else []) ++
    bad 176 16 ++
    failIf (decide (t.repLen ≠ 0) && !(w.ownAddr t.repAddr && t.repAddr % 32 == 0 && inHost (t.repAddr % 2 ^ 40) (32 * t.repLen))) 192 0x0807 ++
    bad 240 16 ++ bad 288 224

/-- Whether a task's place is valid (R128). -/
def World.placeOk (w : World) (t : Task) : Bool :=
  let p := w.part t.part
  decide (t.stages * t.cps ≤ popCount 16 (Nat.lor p.home p.borrow)) && decide (p.home ≠ 0) && decide (t.winBase + t.winLen ≤ 256)

/-- When the PROD write that first covered a sequence was made (R329). -/
def Queue.coveredAt (q : Queue) (seq now : Nat) : Nat :=
  (q.posts.reverse.find? (fun e => precedes seq e.1)).elim now (·.2)

/-- Whether the engine fetches the next descriptor of a queue (R243, R247, R323). -/
def World.fetches (w : World) (n : Nat) : Bool :=
  let q := w.queue n
  w.hostUp && w.fwRuns && (w.power.st == .active || w.power.st == .idle) && decide (n < 64) && q.runs && precedes q.f q.p &&
    decide (seqDiff q.f (q.s + q.a) < q.e) && decide (w.sched.tasks.length < 512)

/-- TASK_FETCH (R323, R324, R327, R329). -/
def World.taskFetch (v : Vault) (w : World) (n : Nat) (desc : Bytes) : World :=
  if !w.fetches n || desc.length ≠ 64 then w
  else
    let q := w.queue n
    let seq := q.f
    let at_ := q.coveredAt seq w.now
    let t := taskOf n (seq % q.e) q.ceil at_ desc
    let w := w.updQueue n (fun q => { q with f := (seq + 1) % 2 ^ 32, posts := q.posts.filter (fun e => precedes ((seq + 1) % 2 ^ 32) e.1) })
    let named : Task := { t with id := ⟨n, seq⟩ }
    if t.id.seq ≠ seq then (w.complete named 0x0818).stopQueue n 0x0818
    else if q.cancel = some seq then (w.updQueue n (fun q => { q with cancel := none })).complete named 0x020C
    else match firstFail (w.taskFails v desc t) with
      | some status => w.complete t status
      | none =>
        if !w.placeOk t then w.complete t 0x080C
        else
          let t := { t with
            st := if t.kind = 1 ∨ w.power.st ≠ .active then .posted else .ready
            stgs := (w.stageStarts t).map (fun e => ({ pc := e % 2 ^ 40 } : Stage)) }
          { w with sched := { w.sched with tasks := w.sched.tasks ++ [t] } }

/-- COALESCING_TIMEOUT (R326). -/
def World.coalesce (w : World) (n : Nat) : World :=
  if (w.queue n).unsig = 0 then w
  else (w.vector n).updQueue n (fun q => { q with unsig := 0 })

/-! Queue control (R321, R328). -/

/-- Disables and resets a queue: every task of it is cancelled, and the queue is disabled once they have ended (R320, R328). -/
def World.resetQueue (w : World) (n : Nat) (silent : Bool) : World :=
  let w := { w with sched := { w.sched with tasks := w.sched.tasks.map (fun (t : Task) => if t.id.queue = n then { t with stop := some (t.stop.getD 0x020C), silent := t.silent || silent } else t) } }
  (w.updQueue n (fun q => { q with resetting := true })).settleReset n

/-! Resets of the host port (R305, R320). -/

/-- A request of the window that waits while the window is cleared: it is still applied, and its response is discarded (R305). -/
def Rx.lose : Rx → Rx
  | .window msg peers _ => .window msg peers true
  | x => x

/-- The dictionary window is cleared, and its client's level closes (R305, R311). -/
def World.clearWindow (w : World) : World :=
  { w with stn := { w.stn with
    rx := w.stn.rx.map Rx.lose
    reqBuf := []
    busy := false
    done := false
    overrun := false
    head := 0
    tail := 0
    clients := w.stn.clients.map (fun (c : Client) => if c.id = 254 then { c with level := 0 } else c) } }

/-- What a function-level reset, PERST_N low and a link-down event have in common (R320). Doorbell writes that wait for firmware are
lost with the queues they were for. -/
def World.hostReset (w : World) : World :=
  let w := (w.host.queues.map (·.1)).foldl (fun w n => w.resetQueue n true) w
  let w := { w with sched := { w.sched with tasks := w.sched.tasks.map (fun (t : Task) => { t with stop := some (t.stop.getD 0x020C), silent := true }) } }
  { w.clearWindow with host := { w.host with waits := [], resets := sat32 w.host.resets 1 } }

/-- What the endpoint supports (Table 13.1). -/
structure PcieFeatures where
  functions : Nat
  speeds : Nat
  widths : List Nat
  payloads : List Nat
  readRequests : List Nat
  readsOut : Nat
  vectors : Nat
  deriving DecidableEq, Repr

/-- The features of the engine's endpoint: one function, 2.5 to 16 GT/s, ×1 to ×4, and the limits of its requests (R315). -/
def pcie : PcieFeatures :=
  { functions := 1, speeds := 4, widths := [1, 2, 4], payloads := [128, 256], readRequests := [128, 256, 512], readsOut := 64, vectors := 72 }

/-- Whether the host port is powered. -/
def World.portOn (w : World) : Bool := w.pins.ready && (w.power.st == .active || w.power.st == .idle || w.power.st == .down)

/-- Whether the engine acts on PERST_N: from READY on, through a power-down and in Doze (Table 14.6). -/
def World.portPowered (w : World) : Bool := w.power.st == .active || w.power.st == .idle || w.power.st == .down || w.power.st == .doze

/-- PCIE_LINK_TRAINING (R316): READY and PERST_N are high, and the link trains up to the target speed. -/
def World.trainPcie (w : World) (speed width : Nat) : World :=
  if !w.portOn || speed = 0 || pcie.speeds < speed || w.host.target < speed || !pcie.widths.contains width then w
  else { w with pins := { w.pins with perstN := true }, host := { w.host with speed := speed, width := width } }

/-! The memory window (R319). -/

/-- The local address of a window offset, where its entry is valid. -/
def World.windowAddr (w : World) (off : Nat) : Option Nat :=
  let e := w.host.map.getD (off / 2 ^ 24 % 64) 0
  if bitAt e 63 then some (e % 2 ^ 16 * 2 ^ 24 + off % 2 ^ 24) else none

/-- A refused access through an invalid entry. -/
def World.badWindow (w : World) : World :=
  ({ w with host := { w.host with badEntry := sat32 w.host.badEntry 1 } }).vector 66

/-- A refused access to a sealed region; WINDOW_SEALED is logged at most once per second. -/
def World.sealedWindow (w : World) (off : Nat) : World :=
  let w := { w with host := { w.host with sealedRef := sat32 w.host.sealedRef 1, sealCnt := w.host.sealCnt + 1 } }
  let w := if w.host.sealAt.all (fun t => decide (t + 1000000000 ≤ w.now)) then
    { w.event 0x0015 srcMgmt 0 off w.host.sealCnt with host := { w.host with sealCnt := 0, sealAt := some w.now } }
  else w
  w.vector 66

/-- Whether an access lies in the window and in one entry. -/
def windowShape (off len : Nat) : Bool := decide (0 < len) && decide (off + len ≤ 2 ^ 30) && decide (off / 2 ^ 24 = (off + len - 1) / 2 ^ 24)

/-- WINDOW_READ (R319). -/
def World.windowRead (w : World) (off len : Nat) : World :=
  if !w.hostUp || !windowShape off len then w
  else match w.windowAddr off with
    | none => w.badWindow.send (.tlp none false)
    | some a =>
      if w.anySealed a len then (w.sealedWindow off).send (.tlp none false)
      else w.send (.tlp (some (w.load a len)) (w.mem.poisoned a len))

/-- WINDOW_WRITE (R319). -/
def World.windowWrite (w : World) (off : Nat) (data : Bytes) : World :=
  if !w.hostUp || !windowShape off data.length then w
  else match w.windowAddr off with
    | none => w.badWindow
    | some a => if w.anySealed a data.length then w.sealedWindow off else w.store a data

/-! The meanings. -/

/-- TASK_FETCH (R323). -/
def execTaskFetch (q : Nat) (desc : Bytes) (st : State) : Host.Outcome State Fault Refusal :=
  .next (st.onRW (fun v w => w.taskFetch v q desc))

/-- COALESCING_TIMEOUT (R326). -/
def execCoalescingTimeout (q : Nat) (st : State) : Host.Outcome State Fault Refusal := .next (st.onW (fun w => w.coalesce q))

/-- FUNCTION_LEVEL_RESET (R320): it comes over the link. -/
def execFunctionLevelReset (st : State) : Host.Outcome State Fault Refusal :=
  .next (st.onW (fun w => if w.hostUp then w.hostReset else w))

/-- PERST_N_LOW (R320): the link goes down with it. In Doze too the engine acts on it (Table 14.6). -/
def execPerstNLow (st : State) : Host.Outcome State Fault Refusal :=
  .next (st.onW (fun w =>
    if w.portPowered && w.pins.perstN then
      let w := w.hostReset
      { w with pins := { w.pins with perstN := false }, host := { w.host with speed := 0, width := 0 } }
    else { w with pins := { w.pins with perstN := false } }))

/-- LINK_DOWN (R320, R345): completions in flight are lost. -/
def execLinkDown (lost : Nat) (st : State) : Host.Outcome State Fault Refusal :=
  .next (st.onW (fun w =>
    if w.portOn && decide (w.host.speed ≠ 0) then
      let w := w.hostReset
      { w with host := { w.host with speed := 0, width := 0, discarded := sat32 w.host.discarded lost } }
    else w))

/-- PCIE_LINK_TRAINING (R316). -/
def execPcieLinkTraining (speed width : Nat) (st : State) : Host.Outcome State Fault Refusal :=
  .next (st.onW (fun w => w.trainPcie speed width))

/-- WINDOW_READ (R319). -/
def execWindowRead (off len : Nat) (st : State) : Host.Outcome State Fault Refusal := .next (st.onW (fun w => w.windowRead off len))

/-- WINDOW_WRITE (R319). -/
def execWindowWrite (off : Nat) (data : Bytes) (st : State) : Host.Outcome State Fault Refusal :=
  .next (st.onW (fun w => w.windowWrite off data))

end Sys2Proof.Machine
end

