-- ==== Sys2Proof/Machine/Streams.lean ====
section
/-! DEFINITION. Media streams and TDM ports (R331 to R344). -/

namespace Sys2Proof.Machine

/-- A TDM port. -/
def World.tdm (w : World) (p : Nat) : Tdm := w.host.tdms.get {} p

/-- Changes a TDM port. -/
def World.updTdm (w : World) (p : Nat) (f : Tdm → Tdm) : World :=
  { w with host := { w.host with tdms := w.host.tdms.upd {} p f } }

/-- The slot width of a port in bits. -/
def Tdm.bits (t : Tdm) : Nat := [16, 24, 32].getD t.width 32

/-- The BCLK periods of a frame, plus one for the FSYNC delay (R333). -/
def Tdm.frame (t : Tdm) : Nat := t.slots * t.bits + t.timing % 2

/-- The slot, and the bit of it, that stand on a data line a number of BCLK periods after the frame start: slots follow the FSYNC delay
one after another, each most significant bit first (R331). -/
def Tdm.place (t : Tdm) (n : Nat) : Option (Nat × Nat) :=
  let d := t.timing % 2
  if n < d ∨ t.slots * t.bits ≤ n - d then none else some ((n - d) / t.bits, t.bits - 1 - (n - d) % t.bits)

/-- DOUT at a BCLK period of a frame in which the slots with an output context carry these codes; elsewhere it is driven low, or, as
`none`, at high impedance (R331). -/
def Tdm.dout (t : Tdm) (codes : Nat → Option Nat) (n : Nat) : Option Bool :=
  match (t.place n).bind (fun x => (codes x.1).map (fun c => bitAt c x.2)) with
  | some b => some b
  | none => if bitAt t.timing 3 then some false else none

/-- Whether FSYNC stands at its active level at a BCLK period of a left-justified frame: in slot 0, and not in slot 1 (R331). -/
def Tdm.leftActive (t : Tdm) (n : Nat) : Bool := decide (n < t.bits)

/-- The code of a slot, from the levels of DIN over a frame (R331). -/
def Tdm.codeIn (t : Tdm) (din : Nat → Bool) (slot : Nat) : Nat :=
  (List.range t.bits).foldl (fun s i => 2 * s + (din (t.timing % 2 + slot * t.bits + i)).toNat) 0

/-- Whether the engine drives BCLK and FSYNC of a port: while the port is enabled as master, but for D3 to the return from Doze and
for a boundary-scan takeover (R341, R352, R362). -/
def World.drivesClocks (w : World) (p : Nat) : Bool :=
  (w.tdm p).en && (w.tdm p).role == 1 && !w.tap.takeover &&
    (w.power.st == .active || w.power.st == .idle || (w.power.st == .down && decide (w.power.dstep < 3)))

/-- Whether a context uses a TDM port. -/
def Ctx.uses (c : Ctx) (p : Nat) : Bool := c.isOpen && (c.src == p + 1 || c.sink == p + 1)

/-- Every TDM context of a port marks its next frame with the clock-gap flag (R333). -/
def World.markGap (w : World) (p : Nat) : World :=
  { w with host := { w.host with ctxs := w.host.ctxs.mapAll {} (fun _ c => if c.uses p then { c with gapFlag := true } else c) } }

/-! Sample conversion (R334). -/

/-- A slot code as a stored sample: I16, or F32. -/
def inSample (fmt w code : Nat) : Nat :=
  if fmt = 0 then code % 2 ^ w / 2 ^ (w - 16) else f32Code ((XV.ofInt (toSigned w code)).scale (-((w : Int) - 1)))

/-- A stored sample as a slot code, and whether it was clamped or a NaN. -/
def outSample (fmt w s : Nat) : Nat × Bool :=
  if fmt = 0 then (s % 2 ^ 16 * 2 ^ (w - 16), false)
  else
    let x := decodeF fmtF32 s
    if x.isNan then (0, true)
    else
      let lo := -(2 ^ (w - 1) : Int)
      let hi := (2 ^ (w - 1) : Int) - 1
      match (x.scale ((w : Int) - 1)).roundInt with
      | some i => (ofSigned w (clampI i lo hi), decide (i < lo) || decide (hi < i))
      | none => (ofSigned w (if x.neg? then lo else hi), true)

/-! Input frames (R337, R338). -/

/-- The flags of the next input frame's header (Table 13.8). -/
def Ctx.inFlags (c : Ctx) : Nat := (if c.overFlag then 1 else 0) + (if c.gapFlag then 2 else 0)

/-- Writes the header of an input frame and posts the input semaphore. -/
def World.inputDone (w : World) (c : Nat) : World :=
  let x := w.ctx c
  let w := w.store (x.inBase + x.next % max 1 x.nIn * x.stride) (frameHeader x.next w.now x.samples x.inFlags)
  let w := w.updCtx c (fun x => { x with next := x.next + 1, overFlag := false, gapFlag := false, capture := false })
  ((w.postSem false x.inSem 0xFF none).1).doorbell

/-- A frame that finds the ring full is dropped and counted (R337). -/
def World.inputDrop (w : World) (c : Nat) : World :=
  w.updCtx c (fun x => { x with next := x.next + 1, overFlag := true, capture := false }.count 0 1)

/-- Whether the input ring of a context is full. -/
def World.inputFull (w : World) (c : Nat) : Bool := decide ((w.ctx c).nIn ≤ (w.sem false (w.ctx c).inSem).value)

/-- STREAM_INPUT_WRITTEN: the announcement also ends frame k (R338, Table 13.7). -/
def World.streamIn (w : World) (q v : Nat) : World :=
  let c := v % 128
  let x := w.ctx c
  if !w.hostUp || 128 ≤ v || !x.isOpen || x.src ≠ 3 || x.queue ≠ q then w
  else
    let w := w.updCtx c (fun x => { x with ends := if x.sink = 0 then [] else x.ends ++ [(x.next, w.now)] })
    if w.inputFull c then w.inputDrop c else w.inputDone c

/-- STREAM_OUTPUT_TAKEN (R340). -/
def World.streamTaken (w : World) (q v : Nat) : World :=
  let c := v % 128
  let x := w.ctx c
  if !w.hostUp || v / 128 ≠ 1 || !x.isOpen || x.sink ≠ 3 || x.queue ≠ q then w
  else w.updCtx c (fun x => { x with untaken := x.untaken - 1 })

/-- The lowest open context of a port. -/
def World.leadCtx (w : World) (p : Nat) : Option Nat := (w.host.ctxs.find? (fun e => e.2.uses p)).map (·.1)

/-- The port whose frames a context follows: its source's, or its sink's where it has no TDM source (Table 13.7). -/
def Ctx.port (c : Ctx) : Nat := (if isTdm c.src then c.src else c.sink) - 1

/-- An active FSYNC edge on a port, with the BCLK periods that a slave port has counted since the last one: a count that is off slips the
frame, and the port realigns at the next FSYNC; a port that seeks or has lost its clock runs after two good frames in a row (R333; for a
port that was just enabled, log entry 69). The answer is whether the frame stands. -/
def World.fsync (w : World) (p bclks : Nat) : World × Bool :=
  let t := w.tdm p
  if t.role = 1 then (w, decide (t.st = 2))
  else if bclks ≠ t.frame then ((w.updTdm p (fun t => { t with slips := sat32 t.slips 1, good := 0 })).markGap p, false)
  else if t.st = 2 then (w, true)
  else (w.updTdm p (fun t => { t with good := t.good + 1, st := if 1 ≤ t.good then 2 else t.st }), decide (1 ≤ t.good))

/-- Whether the frame of an edge that another context's command has brought stands (R333). -/
def Tdm.stands (t : Tdm) (bclks : Nat) : Bool := t.st == 2 && (t.role == 1 || bclks == t.frame)

/-- TDM_FRAME_START: an edge at which a frame of a context begins; where it stands, a frame of a TDM source is kept if the input semaphore
is below N_in (R333, R337). The contexts of a port see one edge, and the first of them has the port count it. -/
def World.frameStart (w : World) (c bclks : Nat) : World :=
  let x := w.ctx c
  let p := x.port
  if !w.clocked || !x.isOpen || !(isTdm x.src || isTdm x.sink) || !(w.tdm p).en then w
  else
    let (w, ok) := if w.leadCtx p = some c then w.fsync p bclks else (w, (w.tdm p).stands bclks)
    if !ok || !isTdm x.src then w
    else if w.inputFull c then w.inputDrop c
    else w.updCtx c (fun x => { x with capture := true })

/-- TDM_FRAME_END: the samples stand in the slot; the header follows and the semaphore is posted (R334, R337). -/
def World.frameEnd (w : World) (c : Nat) (codes : List Nat) : World :=
  let x := w.ctx c
  if !w.clocked || !x.isOpen || !isTdm x.src || !x.capture || codes.length ≠ x.samples then w
  else
    let bits := (w.tdm (x.src - 1)).bits
    let data := (codes.map (fun v => leBytes x.width (inSample x.fmt bits v))).flatten
    (w.store (x.inBase + x.next % max 1 x.nIn * x.stride + 32) data).inputDone c

/-- A port has lost its clock (R333). -/
def World.loseClock (w : World) (p : Nat) : World :=
  let t := w.tdm p
  if !w.clocked || !t.en || t.st = 3 then w
  else ((w.updTdm p (fun t => { t with st := 3, losses := sat32 t.losses 1, good := 0 })).markGap p).vector 67

/-- CLOCK_LOSS: of a slave port (R333). -/
def World.clockLoss (w : World) (p : Nat) : World := if (w.tdm p).role = 1 then w else w.loseClock p

/-! Output frames (R339, R344). -/

/-- PLAYOUT_DUE: frame k of a TDM sink falls due at D_k. -/
def World.playout (w : World) (c : Nat) : World :=
  let x := w.ctx c
  let p := x.sink - 1
  if !w.clocked || !x.isOpen || !isTdm x.sink then w
  else
    let t := w.tdm p
    let heard := t.en && t.st == 2
    let k := x.outDue
    let w := w.updCtx c (fun x => { x with outDue := k + 1, ends := x.ends.filter (fun e => decide (k < e.1)) })
    if 1 ≤ (w.sem false x.outSem).value then
      let w := w.updSem false x.outSem (fun s => { s with value := s.value - 1 })
      if heard then
        let a := x.outBase + k % max 1 x.nOut * x.stride + 32
        let cs := (List.range x.samples).map (fun i => outSample x.fmt t.bits (leVal (w.load (a + i * x.width) x.width)))
        let w := w.updCtx c (fun x => x.count 4 (cs.countP (·.2)))
        w.send (.play p x.sinkSlot (some (cs.map (·.1))))
      else w
    else
      let w := w.updCtx c (fun x => { x with debt := x.debt + 1 }.count 1 1)
      if heard then w.send (.play p x.sinkSlot none) else w

/-! Opening (R332, R335). -/

/-- Whether a port's settings can be enabled: slots × width × rate within 24.576 MHz, two slots in left-justified mode (R332). -/
def Tdm.ok (t : Tdm) : Bool :=
  decide (rateKHz t.rate * t.slots * t.bits ≤ 24576) && (t.mode == 1 || t.slots == 2)

/-- Enables a TDM port (R332). -/
def World.enableTdm (w : World) (p : Nat) : World :=
  w.updTdm p (fun t => { t with en := true, st := if t.role = 1 then 2 else 1, good := 0, enAt := w.now })

/-- The open contexts but one. -/
def World.openCtxs (w : World) (c : Nat) : List Ctx := (w.host.ctxs.filter (fun e => e.2.isOpen && decide (e.1 ≠ c))).map (·.2)

/-- Whether a pair of source and sink is one of Table 13.7. -/
def pairOk (src sink : Nat) : Bool :=
  match src with
  | 0 => sink == 1 || sink == 2 || sink == 3
  | 3 => sink == 0 || sink == 3
  | p => sink == 0 || sink == 3 || sink == p

/-- Whether a ring of a context may lie where it does (R335). -/
def World.ringOk (w : World) (x : Ctx) (base n endpoint : Nat) : Bool :=
  let len := n * x.stride
  let named := if bitAt x.tenant 15 then some (x.tenant % 4096) else none
  base % 32 == 0 && inHost base len &&
    (if endpoint = 3 then !w.anySealed base len
     else match named with
      | some t => (granulesOf base len).all (fun g => w.mem.seals.get 0 g == t + 1)
      | none => true)

/-- The status of opening a context: 0, VALUE_RANGE or SLOT_CONFLICT (R335). -/
def World.openStatus (v : Vault) (w : World) (c : Nat) (x : Ctx) : Nat :=
  let others := w.openCtxs c
  let tdms := ([x.src, x.sink].filter isTdm)
  let ports := tdms.all (fun s => let t := w.tdm (s - 1); t.en && t.rate == x.rate)
  let slots := decide (¬ isTdm x.src ∨ x.srcSlot < (w.tdm (x.src - 1)).slots) && decide (¬ isTdm x.sink ∨ x.sinkSlot < (w.tdm (x.sink - 1)).slots)
  let rings := (x.src == 0 || w.ringOk x x.inBase x.nIn x.src) && (x.sink == 0 || w.ringOk x x.outBase x.nOut x.sink)
  let held := !bitAt x.tenant 15 || decide ((v.tenants.get {} (x.tenant % 4096)).st ≠ 0)
  let clash := others.any (fun y => (isTdm x.src && y.src == x.src && y.srcSlot == x.srcSlot) || (isTdm x.sink && y.sink == x.sink && y.sinkSlot == x.sinkSlot))
  let many := !tdms.isEmpty && decide (64 ≤ (others.filter (fun y => isTdm y.src || isTdm y.sink)).length)
  if !pairOk x.src x.sink || !ports then 0x0812
  else if !slots || clash || many then 0x081B
  else if !rings || x.inSem = x.outSem || !held then 0x0812
  else 0

/-- T0: the port's first 10 ms boundary after the opening, or the opening itself (Table 13.7). -/
def World.ctxStart (w : World) (x : Ctx) : Nat :=
  match [x.src, x.sink].find? isTdm with
  | some s => let t := w.tdm (s - 1); t.enAt + ((w.now - t.enAt) / 10000000 + 1) * 10000000
  | none => w.now

/-- Opens a context: its frames count from 0, and its semaphores become stream semaphores (R335, R336, R337). -/
def World.openCtx (w : World) (c : Nat) : World :=
  w.updCtx c (fun x => { x with
    isOpen := true
    next := 0
    overFlag := false
    gapFlag := false
    capture := false
    debt := 0
    outPost := 0
    outDue := 0
    untaken := 0
    ends := []
    t0 := w.ctxStart x })

/-! The meanings. -/

/-- TDM_FRAME_START (R337). -/
def execTdmFrameStart (c bclks : Nat) (st : State) : Host.Outcome State Fault Refusal := .next (st.onW (fun w => w.frameStart c bclks))

/-- TDM_FRAME_END (R337). -/
def execTdmFrameEnd (c : Nat) (codes : List Nat) (st : State) : Host.Outcome State Fault Refusal :=
  .next (st.onW (fun w => w.frameEnd c codes))

/-- CLOCK_LOSS (R333). -/
def execClockLoss (p : Nat) (st : State) : Host.Outcome State Fault Refusal := .next (st.onW (fun w => w.clockLoss p))

/-- PLAYOUT_DUE (R339). -/
def execPlayoutDue (c : Nat) (st : State) : Host.Outcome State Fault Refusal := .next (st.onW (fun w => w.playout c))

end Sys2Proof.Machine
end

