-- ==== Sys2Proof/Machine/Doorbell.lean ====
section
/-! DEFINITION. The doorbell window with its MSI-X table, and the identity in configuration space
(R315, R316, R318; Tables 13.1, 13.3, 13.4). -/

namespace Sys2Proof.Machine

/-! Configuration space (Table 13.1). -/

/-- What a read of configuration space gives where Table 13.1 fixes it, at the standard places of vendor and device ID, and of class
code and revision ID (R315). It needs no firmware (R316). -/
def World.configRead (w : World) (reg : Nat) : Option Nat :=
  if !w.hostUp then none
  else match reg with
    | 0 => some (0x0416 * 2 ^ 16 + 0x1F1D)
    | 8 => some (0x120000 * 2 ^ 8 + leAt w.live.factory 12 1)
    | _ => none

/-! The MSI-X table and its pending bits (Table 13.3). -/

/-- Replaces `n` bytes of a number, from byte `i` on. -/
def putField (v i n x : Nat) : Nat := v - fld v (8 * i) (8 * n) * 2 ^ (8 * i) + x % 2 ^ (8 * n) * 2 ^ (8 * i)

/-- The pending bits as a number: bit v for vector v. -/
def Msix.pending (m : Msix) : Nat := (List.range pcie.vectors).foldl (fun s v => if m.pend.contains v then s + 2 ^ v else s) 0

/-- A write of the MSI-X table. An entry that it unmasks sends its pending message. -/
def World.msixWrite (w : World) (off n v : Nat) : World :=
  let e := off / 16
  let w := { w with msix := { w.msix with tab := w.msix.tab.upd 0 e (fun x => putField x (off % 16) n v) } }
  if w.msix.pend.contains e && !w.masked e then
    { w with msix := { w.msix with pend := w.msix.pend.filter (fun x => decide (x ≠ e)) } }.vector e
  else w

/-! The doorbell window (R318). -/

/-- What a read of `n` bytes of the doorbell window gives. -/
def World.doorbellRead (w : World) (off n : Nat) : Nat :=
  if 0x800 ≤ off ∧ off + n ≤ 0xC80 then fld (w.msix.tab.get 0 ((off - 0x800) / 16)) (8 * (off % 16)) (8 * n)
  else if 0xC80 ≤ off ∧ off + n ≤ 0xC90 then fld w.msix.pending (8 * (off - 0xC80)) (8 * n)
  else if n ≠ 4 ∨ 0x800 ≤ off then 0
  else
    let q := w.queue (off / 32)
    match off % 32 with
    | 0 => q.prodRaw
    | 4 => q.cackRaw
    | 16 => q.f
    | 20 => q.c
    | _ => 0

/-- What a write of a queue's register does. -/
def World.doorbellAct (w : World) (off v : Nat) : World :=
  let q := off / 32
  match off % 32 with
  | 0 => w.prodWrite q v
  | 4 => w.cackWrite q v
  | 8 => w.cancelWrite q v
  | 12 => if bitAt v 7 then w.streamTaken q v else w.streamIn q v
  | _ => w

/-- What PROD and CACK read from now on: the last value written. -/
def World.doorbellRaw (w : World) (off v : Nat) : World :=
  match off % 32 with
  | 0 => w.updQueue (off / 32) (fun q => { q with prodRaw := v })
  | 4 => w.updQueue (off / 32) (fun q => { q with cackRaw := v })
  | _ => w

/-- A write of `n` bytes of the doorbell window. Before firmware runs it is accepted, and waits (R316). -/
def World.doorbellWrite (w : World) (off n v : Nat) : World :=
  if !w.hostUp then w
  else if 0x800 ≤ off ∧ off + n ≤ 0xC80 then w.msixWrite (off - 0x800) n v
  else if n ≠ 4 ∨ 0x800 ≤ off ∨ 2 ^ 32 ≤ v then w
  else if w.fwRuns then w.doorbellAct off v
  else
    let w := w.doorbellRaw off v
    { w with host := { w.host with waits := w.host.waits ++ [(off, v)] } }

/-- Once firmware runs, the doorbell writes that waited for it act, in their order (R316). -/
def World.doorbellsDue (w : World) : World :=
  if w.fwRuns then w.host.waits.foldl (fun w e => w.doorbellAct e.1 e.2) { w with host := { w.host with waits := [] } } else w

/-- A write of a register of a queue. -/
def State.ring (st : State) (q reg v : Nat) : State := if q < 64 then st.onW (fun w => w.doorbellWrite (32 * q + reg) 4 v) else st

/-! The meanings. -/

/-- PROD_WRITE (R323). -/
def execProdWrite (q p : Nat) (st : State) : Host.Outcome State Fault Refusal := .next (st.ring q 0 p)

/-- CACK_WRITE (R325). -/
def execCackWrite (q a : Nat) (st : State) : Host.Outcome State Fault Refusal := .next (st.ring q 4 a)

/-- CANCEL_WRITE (R327). -/
def execCancelWrite (q s : Nat) (st : State) : Host.Outcome State Fault Refusal := .next (st.ring q 8 s)

/-- STREAM_INPUT_WRITTEN (R338): bit 7 of the value is clear. -/
def execStreamInputWritten (q v : Nat) (st : State) : Host.Outcome State Fault Refusal :=
  .next (if bitAt v 7 then st else st.ring q 12 v)

/-- STREAM_OUTPUT_TAKEN (R340): bit 7 of the value is set. -/
def execStreamOutputTaken (q v : Nat) (st : State) : Host.Outcome State Fault Refusal :=
  .next (if bitAt v 7 then st.ring q 12 v else st)

end Sys2Proof.Machine
end

