-- ==== Sys2Proof/Machine/Points.lean ====
section
/-! DEFINITION. Operating points, the cap loop, temperature, alerts, halts and throttle reasons
(R259 to R281; 11_operating_points_and_power_limits.md). -/

namespace Sys2Proof.Machine

/-! Points (R260, R262). -/

/-- A pair of operating point and memory rate state. -/
abbrev Pt := Nat × Nat

/-- The pair in the layout of 0x2100:09. -/
def ptOf (v : Nat) : Pt := (fld v 0 4, fld v 4 2)

/-- The value of a pair in the layout of 0x2100:09. -/
def ptVal (p : Pt) : Nat := p.1 + 16 * p.2

/-- The minimum of two pairs, field by field. -/
def ptMin (a b : Pt) : Pt := (min a.1 b.1, min a.2 b.2)

/-- Whether a pair is below another in either field. -/
def ptBelow (a b : Pt) : Bool := decide (a.1 < b.1) || decide (a.2 < b.2)

/-- A pair with the memory rate state that its operating point allows (R260). -/
def ptFit (p : Pt) : Pt := (p.1, min p.2 (maxMem p.1))

/-- The ceiling of a profile entry. -/
def profCeil (e : Nat) : Pt := (fld e 0 4, fld e 4 2)

/-- The floor of a profile entry. -/
def profFloor (e : Nat) : Pt := (fld e 8 4, fld e 12 2)

/-- Whether the engine runs a job of more than one engine, so that its point is the job's (R232, R262). -/
def World.inJob (w : World) : Bool := w.multi && (w.link.jobState == 2 || w.link.jobState == 3 || w.link.jobState == 4)

/-- The profile that the engine's own tasks select (R263). -/
def World.ownProfile (w : World) : Nat :=
  ((w.sched.tasks.filter (fun t => t.st == .running || t.st == .waiting || t.st == .switching)).foldl (fun (b : Option Task) t =>
    match b with
    | none => some t
    | some u => if u.rank < t.rank ∨ (t.rank = u.rank ∧ t.placed < u.placed) then some t else b) none).elim 0 (·.profile)

/-- The profile in force (R263, R264). -/
def World.profileNow (w : World) : Nat := if w.inJob then w.job.profile else w.ownProfile

/-- The entry of the profile in force. -/
def World.profEntry (w : World) : Nat := w.pt.profiles.getD w.profileNow 0x27

/-- The loop ceiling (R262 step 1). -/
def World.loopCeil (w : World) : Pt :=
  let p := w.pt
  let c := ptMin (ptMin (7, 2) (7 - p.notch / 3, p.capMem)) (ptMin (p.thermCeil, 2) (profCeil w.profEntry))
  if p.lowE then ptMin c (ptOf p.lowCeil) else c

/-- Whether a floor is above the loop ceiling in either field. -/
def World.floorBinds (w : World) : Bool := ptBelow w.loopCeil (profFloor w.profEntry)

/-- Whether a safety source is active (Table 11.2). -/
def OpPoint.safety (p : OpPoint) : Bool := p.alert || p.regAlert || p.coolStop || p.trip

/-- Whether the engine is halted (R275). -/
def OpPoint.halted (p : OpPoint) : Bool := p.coolStop || p.trip

/-- The point that the loop ceiling and the floor give (R262 steps 1 and 2). -/
def World.goal (w : World) : Pt :=
  let f := profFloor w.profEntry
  let c := w.loopCeil
  (max c.1 f.1, max c.2 f.2)

/-- The engine's own ceiling (R262), at most at an operating point `top`. -/
def World.ceilingTo (w : World) (top : Nat) : Pt := if w.pt.safety then (0, 0) else ptFit (min w.goal.1 top, w.goal.2)

/-- The engine's own ceiling between samples: after a safety source has released it does not rise (R262, R276). -/
def World.ceilingNow (w : World) : Pt := w.ceilingTo (if w.pt.slow then (ptOf w.link.ownCeil).1 else 7)

/-- The engine's own ceiling at a sample of each millisecond: after a safety source has released it rises by at most one operating
point (R262, R276). -/
def World.ceilingNext (w : World) : Pt := w.ceilingTo (if w.pt.slow then w.pt.op + 1 else 7)

/-- The trimmed core voltage of an operating point (R259). -/
def World.trimMv (w : World) (op : Nat) : Nat := 400 + 5 * w.live.trims.getD op 0

/-! Changes of point (R261). -/

/-- A ramp in progress ends: an upward change switches its clocks, and the voltage stands at its point's. -/
def World.rampDone (w : World) : World :=
  match w.pt.ramp with
  | none => w
  | some p => { w with pt := { w.pt with op := p.1, mem := p.2, ramp := none, coreMv := w.trimMv p.1 } }

/-- Moves to a point: downwards the clocks switch at once, upwards after the voltage. A forced move interrupts a change. -/
def World.moveTo (w : World) (p : Pt) (force : Bool) : World :=
  let w := if force then { w with pt := { w.pt with ramp := none } } else w.rampDone
  if p = (w.pt.op, w.pt.mem) then (if w.pt.coreMv = w.trimMv p.1 then w else { w with pt := { w.pt with ramp := some p } })
  else if w.pt.op < p.1 then { w with pt := { w.pt with ramp := some p, mem := min w.pt.mem (maxMem w.pt.op) } }
  else if p.1 < w.pt.op then { w with pt := { w.pt with op := p.1, mem := p.2, ramp := some p } }
  else { w with pt := { w.pt with mem := p.2 } }

/-! Throttle reasons (Table 11.5). -/

/-- The reasons active now, bit r = code r. -/
def World.reasonsNow (w : World) : Nat :=
  let p := w.pt
  let own := ptOf w.link.ownCeil
  let bits := [decide (p.notch ≠ 0) || decide (p.capMem ≠ 2), decide (p.thermCeil < 7) || p.trip, p.regAlert, p.alert, p.coolStop,
    decide (p.clamp < 16), w.inJob && ptBelow (p.op, p.mem) own && p.ramp.isNone, p.lowE, ptBelow (profCeil w.profEntry) (7, 2),
    w.mem.chans.any (fun c => c.2.running && c.2.forced)]
  bits.zipIdx.foldl (fun m (b, i) => if b then m + 2 ^ i else m) 0

/-- Takes the reasons as they stand, and the profile in force: each reason that becomes active records the time (R279). -/
def World.noteReasons (w : World) : World :=
  let r := w.reasonsNow
  let old := w.meter.reasons
  { w with pt := { w.pt with profile := w.profileNow }, meter := { w.meter with
    reasons := r
    lastAt := w.meter.lastAt.zipIdx.map (fun (t, i) => if bitAt r i && !bitAt old i then w.now else t) } }

/-! The ceiling and the job (R232 to R234, R264). -/

/-- The content of a CEILING block of this engine (R233). -/
def World.ceilingContent (w : World) (p : Pt) : Nat :=
  p.1 + 16 * p.2 + (if w.link.logical = 0 then 64 * w.ownProfile + 512 else 0)

/-- Floods CEILING. -/
def World.floodCeiling (w : World) (p : Pt) : World :=
  let w := { w with link := { w.link with floods := sat32 w.link.floods 1 } }
  w.flood 2 (w.ceilingContent p)

/-- Takes a new ceiling of its own: outside a job the engine moves to it; in a job one below the job's point is flooded, and
the engine moves down at once (R232, R262). -/
def World.takePoint (w : World) (own : Pt) (force : Bool) : World :=
  let w := { w with
    link := { w.link with ownCeil := ptVal own }
    pt := { w.pt with binds := w.floorBinds } }
  let w :=
    if w.inJob then
      let job := ptOf w.link.jobPoint
      let w := if ptBelow own job then
          let low := ptMin own job
          ({ w with link := { w.link with jobPoint := ptVal low } }).floodCeiling low
        else w
      w.moveTo (ptFit (ptMin own (ptOf w.link.jobPoint))) force
    else w.moveTo own force
  w.noteReasons

/-- Takes the ceiling as it stands between samples. -/
def World.takeCeiling (w : World) (force : Bool) : World := w.takePoint w.ceilingNow force

/-- Engine 0's selection of the job profile has changed: it floods a CEILING block at once, and takes the profile itself (R264; log
entry 87). -/
def World.jobProfile (w : World) : World :=
  if w.clocked && w.inJob && w.link.logical = 0 && w.ownProfile ≠ w.job.profile then
    let w := w.floodCeiling (ptOf w.link.jobPoint)
    ({ w with job := { w.job with profile := w.ownProfile, pending := w.job.pending.map (fun p => (p.1, w.ownProfile)) } } : World).takeCeiling false
  else w

/-- What has followed the tasks since: the job profile, and the throttle reasons with the time they became active (R264, R279). -/
def World.follow (w : World) : World :=
  let w := w.jobProfile
  if w.pt.profile ≠ w.profileNow ∨ w.meter.reasons ≠ w.reasonsNow then w.noteReasons else w

/-! Safety sources (R272 to R276). -/

/-- Counts a sample at which a floor binds, or would bind but for a safety source (R280). -/
def World.countFloor (w : World) : World := { w with pt := { w.pt with conf := if w.floorBinds then sat32 w.pt.conf 1 else w.pt.conf } }

/-- A safety source has become active: the sample that falls at once, and a forced descent (R262, R273, R274). -/
def World.forceDown (w : World) : World :=
  (({ w with pt := { w.pt with slow := true }, meter := { w.meter with calRun := false } } : World).countFloor).takeCeiling true

/-- A safety source has released: the sample that falls at once, which raises nothing (R262, R276, Table 11.4). -/
def World.letGo (w : World) : World := w.countFloor.takeCeiling false

/-- The causes of the halt, as 0x2130:05. -/
def OpPoint.causes (p : OpPoint) : Nat := (if p.trip then 1 else 0) + (if p.coolStop then 2 else 0)

/-- Enters a halt for a cause, or adds the cause to one in force (R275). -/
def World.enterHalt (w : World) (f : OpPoint → OpPoint) : World :=
  let was := w.pt.halted
  let w := { w with pt := f w.pt }
  if was then w.forceDown
  else
    let w := { w with
      meter := { w.meter with halts := sat32 w.meter.halts 1, haltAt := w.now }
      pins := { w.pins with faultN := some false } }
    let w := w.forceDown
    (w.event 0x0003 srcMgmt 0 w.pt.causes (ofSigned 64 w.meter.hot)).vector 66

/-- A cause of the halt has released; with the last one the cores resume at OP0 (R275). -/
def World.leaveHalt (w : World) (f : OpPoint → OpPoint) : World :=
  let was := w.pt.causes
  let w := ({ w with pt := f w.pt } : World).letGo
  if w.pt.halted then w
  else
    let w := { w with pins := { w.pins with faultN := some (!w.log.wd) } }
    w.event 0x0004 srcMgmt 0 was ((w.now - w.meter.haltAt) / 1000)

/-- A power alert abandons every step that has not committed (R28, R29, R200). -/
def World.alertSteps (w : World) : World :=
  (w.train.steps.filter (fun s => !s.committed)).foldl (fun w s =>
    if w.multi then
      if s.abandon.isSome then w
      else (w.updStep s.task (fun s => { s with abandon := some 0x0601, agreed := false })).abandonUp s.tenant 0x0601
    else w.applyAbandon s.tenant 0x0601) w

/-- PWR_ALERT_N is recognised low: a forced descent, or the hold in force starts again; each time the steps are abandoned
(R28, R29, R273). -/
def World.powerAlert (w : World) : World :=
  (if w.pt.alert then w else ({ w with pt := { w.pt with alert := true } } : World).forceDown).alertSteps

/-- A regulator alert: a forced descent that abandons no step (R274). -/
def World.regulatorAlert (w : World) : World :=
  if w.pt.regAlert then w else ({ w with pt := { w.pt with regAlert := true } } : World).forceDown

/-- Acts on the alert pins as they stand, as from READY on (R243, R273, R275). -/
def World.readPins (w : World) : World :=
  let w := if !w.pins.pwrAlertN && !w.pt.alert then w.powerAlert else w
  if !w.pins.coolOk && !w.pt.coolStop then w.enterHalt (fun p => { p with coolStop := true }) else w

/-! Samples (R262, R267, R271, R277, R280). -/

/-- The power of a domain against its budget: the numbers P × 10,000 and cap × f. -/
def OpPoint.ratio (p : OpPoint) (doms : List Nat) (d : Nat) : Nat × Nat := (doms.getD d 0 * 10000, p.cap * p.fracNow.getD d 1)

/-- The domain with the largest ratio of power to budget. -/
def OpPoint.worst (p : OpPoint) (doms : List Nat) : Nat :=
  (List.range 4).foldl (fun b d =>
    let x := p.ratio doms d
    let y := p.ratio doms b
    if y.1 * x.2 < x.1 * y.2 then d else b) 0

/-- One lowering of the cap loop for a domain (R267). -/
def OpPoint.lower (p : OpPoint) (dom : Nat) : OpPoint :=
  if dom = 1 ∧ 0 < p.capMem then { p with capMem := p.capMem - 1, lowered := true :: p.lowered }
  else if p.notch < 23 then { p with notch := p.notch + 1, lowered := false :: p.lowered }
  else p

/-- One raise of the cap loop: it undoes the most recent lowering (R267). -/
def OpPoint.raise (p : OpPoint) : OpPoint :=
  match p.lowered with
  | [] => p
  | true :: r => { p with capMem := p.capMem + 1, lowered := r }
  | false :: r => { p with notch := p.notch - 1, lowered := r }

/-- The cap loop at one sample (R267). The excess limits are 5 % and 15 %; raising needs every domain at or below 90 %. -/
def OpPoint.capLoop (p : OpPoint) (doms : List Nat) : OpPoint :=
  let d := p.worst doms
  let (n, b) := p.ratio doms d
  let steps := if n ≤ 100 * b then 0 else if n ≤ 105 * b then 1 else if n ≤ 115 * b then 2 else 4
  let p := (List.range steps).foldl (fun p _ => p.lower d) p
  if n ≤ 90 * b then
    if 7 ≤ p.calm then { p.raise with calm := 0 } else { p with calm := p.calm + 1 }
  else { p with calm := 0 }

/-- The thermal ceiling at one sample (R271); the onset is in °C and the reading in 1/16 °C. -/
def OpPoint.thermal (p : OpPoint) (hot onset : Int) : OpPoint :=
  if 16 * onset ≤ hot then { p with thermCeil := p.thermCeil - 1, cool := 0 }
  else if hot ≤ 16 * (onset - 3) then
    if 7 ≤ p.cool then { p with thermCeil := min 7 (p.thermCeil + 1), cool := 0 } else { p with cool := p.cool + 1 }
  else { p with cool := 0 }

/-- VIN below which the regulators alert, in mV (R274). -/
def vinAlert : Nat := 2900

/-- DVFS_SAMPLE: the powers of the millisecond just ended and VIN, which may raise a regulator alert (R274); a ramp of an earlier
change has ended by now. The rise after a safety source is over once the point has reached its goal (R276). -/
def World.dvfsSample (w : World) (doms : List Nat) (vin : Nat) : World :=
  if !w.clocked || doms.length ≠ 4 then w
  else
    let w := w.rampDone
    let p := (w.pt.capLoop doms).thermal w.meter.hot w.meter.onset
    let w := { w with
      pt := p
      meter := { w.meter with
        energy := add64 w.meter.energy doms.sum
        input := satTo 32 doms.sum
        doms := doms
        vin := vin
        vinLow := min w.meter.vinLow vin } }
    let w := w.jobProfile.countFloor
    let w := w.takePoint w.ceilingNext false
    let w := { w with pt := { w.pt with slow := w.pt.slow && (w.pt.safety || decide ((ptOf w.link.ownCeil).1 < w.goal.1)) } }
    if vin < vinAlert then w.regulatorAlert else w

/-- A retraining falls due on each channel whose last one Tj has since left by 8 °C; the first reading after a wake stands for the
training of the wake (R169; log entry 86). -/
def World.tempRetrain (w : World) : World :=
  (List.range 16).foldl (fun w ch => { w with mem := { w.mem with chans := w.mem.chans.upd {} ch (fun c => match c.trained with
    | none => { c with trained := some w.meter.hot }
    | some t => if 8 * 16 ≤ (w.meter.hot - t).natAbs then { c with dueTrain := true } else c) } }) w

/-- SENSOR_SAMPLE: the 24 junction readings, in 1/16 °C: of cores 0 to 15, then of four places in the slices, the two regulators and
the two link ports (log entry 87). They may trip the engine, raise a regulator alert, and make retraining due (R169, R271, R272,
R274). -/
def World.sensors (w : World) (temps : List Int) : World :=
  if !w.clocked || temps.length ≠ 24 then w
  else
    let hot := temps.foldl max (temps.headD 0)
    let w := { w with meter := { w.meter with
      hot := hot
      cold := temps.foldl min (temps.headD 0)
      hotIx := temps.findIdx (fun t => t == hot)
      regHot := max (temps.getD 20 0) (temps.getD 21 0)
      highest := max w.meter.highest hot } }
    let w := w.tempRetrain
    let w := if 125 * 16 ≤ w.meter.regHot then w.regulatorAlert else w
    if 115 * 16 ≤ hot ∧ !w.pt.trip then w.enterHalt (fun p => { p with trip := true }) else w

/-- Whether every sensor has last read below 95 °C. -/
def World.coolNow (w : World) : Bool := decide (w.meter.hot < 95 * 16)

/-! The meanings. -/

/-- DVFS_SAMPLE (R262). -/
def execDvfsSample (doms : List Nat) (vin : Nat) (st : State) : Host.Outcome State Fault Refusal :=
  .next (st.onW (fun w => w.dvfsSample doms vin))

/-- VOLTAGE_RAMP_DONE (R261). -/
def execVoltageRampDone (st : State) : Host.Outcome State Fault Refusal := .next (st.onW (fun w => w.rampDone.noteReasons))

/-- CURRENT_CLAMP_ENGAGE (R269); at the rail's hard limit of 16 A the regulator alerts too (R274). -/
def execCurrentClampEngage (ma : Nat) (st : State) : Host.Outcome State Fault Refusal :=
  .next (st.onW (fun w =>
    if w.clocked ∧ w.pt.softMa < ma then
      let w := ({ w with pt := { w.pt with clamp := 8 } } : World).noteReasons
      if 16000 ≤ ma then w.regulatorAlert else w
    else w))

/-- CURRENT_CLAMP_RELEASE_STEP (R269): by 2/16, until the clamp reaches the ladder's limit. -/
def execCurrentClampReleaseStep (st : State) : Host.Outcome State Fault Refusal :=
  .next (st.onW (fun w =>
    if w.clocked then
      ({ w with pt := { w.pt with clamp := max w.pt.clamp (min w.pt.ladder (w.pt.clamp + 2)) } }).noteReasons
    else w))

/-- SENSOR_SAMPLE (R271). -/
def execSensorSample (temps : List Int) (st : State) : Host.Outcome State Fault Refusal := .next (st.onW (fun w => w.sensors temps))

/-- THERMAL_TRIP_RELEASE (R272). -/
def execThermalTripRelease (st : State) : Host.Outcome State Fault Refusal :=
  .next (st.onW (fun w => if w.pt.trip && w.coolNow then w.leaveHalt (fun p => { p with trip := false }) else w))

/-- PWR_ALERT_FALL (R273): the pin falls, and from READY on the engine acts on it. -/
def execPwrAlertFall (st : State) : Host.Outcome State Fault Refusal :=
  .next (st.onW (fun w =>
    let was := w.pins.pwrAlertN
    let w := { w with pins := { w.pins with pwrAlertN := false } }
    if w.clocked && was then w.powerAlert else w))

/-- PWR_ALERT_RISE (R273): the release hold begins. -/
def execPwrAlertRise (st : State) : Host.Outcome State Fault Refusal :=
  .next (st.onW (fun w => { w with pins := { w.pins with pwrAlertN := true } }))

/-- PWR_ALERT_HOLD_END (R273). -/
def execPwrAlertHoldEnd (st : State) : Host.Outcome State Fault Refusal :=
  .next (st.onW (fun w => if w.pins.pwrAlertN && w.pt.alert then ({ w with pt := { w.pt with alert := false } } : World).letGo else w))

/-- REGULATOR_ALERT (R274): one that no sample shows, such as a rail's current at its hard limit. -/
def execRegulatorAlert (st : State) : Host.Outcome State Fault Refusal :=
  .next (st.onW (fun w => if w.clocked then w.regulatorAlert else w))

/-- REGULATOR_ALERT_CLEAR (R274): where neither VIN nor a regulator's temperature, as last read, is still a cause. -/
def execRegulatorAlertClear (st : State) : Host.Outcome State Fault Refusal :=
  .next (st.onW (fun w =>
    if w.pt.regAlert && decide (vinAlert ≤ w.meter.vin) && decide (w.meter.regHot < 125 * 16) then
      ({ w with pt := { w.pt with regAlert := false } } : World).letGo
    else w))

/-- COOL_OK_FALL (R275). -/
def execCoolOkFall (st : State) : Host.Outcome State Fault Refusal :=
  .next (st.onW (fun w =>
    let w := { w with pins := { w.pins with coolOk := false } }
    if w.clocked then w.readPins else w))

/-- COOL_OK_RISE (R275): the release hold begins. -/
def execCoolOkRise (st : State) : Host.Outcome State Fault Refusal :=
  .next (st.onW (fun w => { w with pins := { w.pins with coolOk := true } }))

/-- HALT_RELEASE (R275). -/
def execHaltRelease (st : State) : Host.Outcome State Fault Refusal :=
  .next (st.onW (fun w => if w.pt.coolStop && w.pins.coolOk && w.coolNow then w.leaveHalt (fun p => { p with coolStop := false }) else w))

/-- REGULATOR_CALIBRATION_START (R278). -/
def execRegulatorCalibrationStart (st : State) : Host.Outcome State Fault Refusal :=
  .next (st.onW (fun w =>
    if w.power.st == .idle && !w.pt.safety && decide (60 < w.meter.calAge) then { w with meter := { w.meter with calRun := true } } else w))

/-- REGULATOR_CALIBRATION_DONE (R278). -/
def execRegulatorCalibrationDone (st : State) : Host.Outcome State Fault Refusal :=
  .next (st.onW (fun w =>
    if w.meter.calRun then { w with meter := { w.meter with calRun := false, calAge := 0, calNs := 0, stale := false } } else w))

/-- CALIBRATION_STALE (R405): once each time the age passes 3,600 s. -/
def execCalibrationStale (st : State) : Host.Outcome State Fault Refusal :=
  .next (st.onW (fun w =>
    if w.clocked && decide (3600 < w.meter.calAge) && !w.meter.stale then
      { w.event 0x0041 srcMgmt 0 w.meter.calAge 0 with meter := { w.meter with stale := true } }
    else w))

/-- PWR_BAND_CONFLICT (R281). -/
def execPwrBandConflict (st : State) : Host.Outcome State Fault Refusal :=
  .next (st.onW (fun w =>
    if w.clocked && w.pt.conf != w.pt.confSeen then
      { w.event 0x0022 srcMgmt 0 0 w.pt.conf with pt := { w.pt with confSeen := w.pt.conf } }
    else w))

/-- DOZE_ENERGY_INTEGRATION (R277). -/
def execDozeEnergyIntegration (uj : Nat) (st : State) : Host.Outcome State Fault Refusal :=
  .next (st.onW (fun w => if w.power.st = .doze then { w with meter := { w.meter with energy := add64 w.meter.energy uj } } else w))

end Sys2Proof.Machine
end

