-- ==== Sys2Proof/Machine/Otp.lean ====
section
/-! DEFINITION. What the OTP array holds and what wake stage 4 takes from it (R259, R299, R367 to R370, R410). -/

namespace Sys2Proof.Machine

/-! Words read by majority, and the session counter (R368). -/

/-- A logical bit: the majority of its three physical bits. -/
def majority (v i : Nat) : Bool := decide (2 ≤ popCount 3 (v / 2 ^ (3 * i)))

/-- The logical value of `n` bits. -/
def logicalBits (n v : Nat) : Nat := ((List.range n).map (fun i => if majority v i then 2 ^ i else 0)).sum

/-- The physical bits of `n` logical ones. -/
def physicalBits (n bits : Nat) : Nat := ((List.range n).map (fun i => if bitAt bits i then 7 * 8 ^ i else 0)).sum

/-- The key-slot marks: [3:0] valid, [7:4] revoked (Table 15.1). -/
def Otp.markBits (o : Otp) : Nat := logicalBits 8 o.marks

/-- The security word: [0] debug locked, [1] debug disabled, [2] factory level retired (Table 15.1). -/
def Otp.secBits (o : Otp) : Nat := logicalBits 3 o.sec

/-- The session counter: 1 plus the index of the highest programmed bit (R368). -/
def Otp.session (o : Otp) : Nat := if o.sess = 0 then 0 else Nat.log2 o.sess + 1

/-- The number of session bits (Table 15.1). -/
def sessionBits : Nat := 12288

/-- The 4,096 bytes of the array by the map of Table 15.1; reserved bytes read 0 (R367). -/
def Otp.image (o : Otp) : Bytes :=
  let n := fun (k : Nat) (b : Bytes) => slice b 0 k
  n 512 o.factory ++ (List.range 4).flatMap (fun g => n 128 (o.records.getD g [])) ++ (List.range 4).flatMap (fun s => n 32 (o.hashes.getD s [])) ++
    leBytes 4 o.marks ++ leBytes 4 o.sec ++ zeros 120 ++ leBytes 1536 o.sess ++ zeros 1280

/-- Whether a key slot is valid and not revoked (R373, R374). -/
def usableSlot (marks slot : Nat) : Bool := bitAt marks slot && !bitAt marks (slot + 4)

/-! Records and the factory area (Tables 15.2, 15.3). -/

/-- The state of a generation: 0 blank, 1 valid, 2 spoilt (R370). -/
def recordState (r : Bytes) : Nat :=
  if allZero r then 0 else if leAt r 0 4 = 0x47464359 ∧ leAt r 124 4 = crc32 (slice r 0 124) then 1 else 2

/-- A staged record with its marker and its CRC (R371). -/
def recordOf (staged : Bytes) : Bytes :=
  let b := leBytes 4 0x47464359 ++ slice staged 4 120
  b ++ leBytes 4 (crc32 b)

/-- The states of the four generations. -/
def Otp.genStates (o : Otp) : List Nat := o.records.map recordState

/-- The valid generation with the highest number (R370). -/
def Otp.liveGen (o : Otp) : Option Nat := (List.range 4).reverse.find? (fun g => o.genStates.getD g 0 == 1)

/-- The lowest blank generation (R371). -/
def Otp.blankGen (o : Otp) : Option Nat := (List.range 4).find? (fun g => o.genStates.getD g 1 == 0)

/-- Whether the factory area passes wake stage 4: its CRC holds, and its trimmed voltages are near the typical ones and rise
with the point (R259, R369). -/
def factoryOk (f : Bytes) : Bool :=
  let mv := fun (i : Nat) => 400 + 5 * leAt f (16 + i) 1
  leAt f 508 4 == crc32 (slice f 0 508) &&
    (List.range 8).all (fun i => decide (mv i ≤ typicalMv i + 50) && decide (typicalMv i ≤ mv i + 50)) &&
    (List.range 7).all (fun i => decide (mv i < mv (i + 1)))

/-- What wake stage 4 takes from OTP and the straps: SLOT_ID in [3:0], NODE_STRAP in [8:4] (R299, Table 15.3). -/
def Otp.load (o : Otp) (straps : Nat) : Live :=
  let r := (o.liveGen).elim [] (fun g => o.records.getD g [])
  let b := leAt r 5 1
  { cls := if o.liveGen.isSome then leAt r 4 1 else 0xFF
    gen := o.liveGen.getD 0xFF
    record := r
    nodeId := if bitAt b 5 then fld b 0 5 else fld straps 4 5
    nodeSrc := if bitAt b 5 then 0 else 1
    clkreq := bitAt b 6
    segEnd := bitAt b 7
    straps := fld straps 0 9
    hasRec := o.liveGen.isSome
    trims := (List.range 8).map (fun i => leAt o.factory (16 + i) 1)
    factory := o.factory }

/-- The defaults that the product class changes (Table 17.1, R410). -/
def World.classDefaults (w : World) : World :=
  let c := w.live.cls
  { w with
    power := { w.power with dozeSrc := if c = 2 then 0 else 3 }
    sched := { w.sched with semHome := if c = 1 ∨ c = 2 then 0 else 0xFF }
    link := { w.link with jobSize := if c = 1 then 2 else if c = 2 then 8 else 1, slotId := fld w.live.straps 0 4 } }

/-- Wake stage 4 completes: OTP is read, and the timestamp starts (R8, Table 10.3). -/
def World.otpLoad (o : Otp) (w : World) (straps : Nat) : World :=
  ({ w with live := o.load straps, clock := { w.clock with ns := 0 } } : World).classDefaults

/-- Whether OTP may be programmed now (R368): Active or Idle, VIN at 3.0 V or more, and every sensor from 0 to 85 °C. -/
def World.otpConditions (w : World) : Bool :=
  (w.power.st == .active || w.power.st == .idle) && decide (3000 ≤ w.meter.vin) && decide (0 ≤ w.meter.cold) && decide (w.meter.hot ≤ 85 * 16)

end Sys2Proof.Machine
end

