-- ==== Sys2Proof/Machine/Power.lean ====
section
/-! DEFINITION. Waking, unwinding, Idle, Doze, powering down and power loss (R235 to R258; 10_power_states_and_waking.md). -/

namespace Sys2Proof.Machine

/-! Power off and the start of a wake. -/

/-- What is left when the power is gone: the levels of the input pins, and the model's own outbox and counts of free values
(R240, Table 10.2). -/
def World.dark (w : World) : World :=
  { pins := { wake := w.pins.wake, resetN := w.pins.resetN, perstN := w.pins.perstN, pwrAlertN := w.pins.pwrAlertN, coolOk := w.pins.coolOk }
    sec := { drawn := w.sec.drawn, used := w.sec.used }
    out := w.out }

/-- A wake from Dormant starts at stage 1 (Table 10.3). -/
def World.beginWake (w : World) : World := w.dark.setSt .up |> fun w => { w with power := { w.power with stage := 1, attempts := [1, 0, 0, 0, 0, 0] } }

/-- The engine is in Dormant; a wake follows at once if WAKE is high and RESET_N does not hold it off (R250, R255, R256). -/
def World.dormant (w : World) : World := if w.pins.wake && w.pins.resetN then w.beginWake else w.dark

/-- The power is cut: D1 to D4 are skipped, and D5 and D6 follow (R255, R256). -/
def World.cut (w : World) : World := { w.dark with power := { st := .down, dstep := 5 } }

/-! The wake stages (R242). -/

/-- The next wake stage starts with its first attempt. -/
def World.nextStage (w : World) : World :=
  { w with power := { w.power with stage := w.power.stage + 1, attempts := setAt w.power.attempts w.power.stage 1 } }

/-- An attempt of the present stage has failed: a settle follows, or after the third the unwind to Wake-Failed (R242, R244). -/
def World.stageFails (w : World) : World :=
  if w.power.attempts.getD (w.power.stage - 1) 0 < 3 then { w with power := { w.power with settling := true } }
  else { w with power := { w.power with failed := w.power.stage, toFail := true } }.setSt .unwind

/-- READY rises: Active at OP0; the alert pins are acted on from now (R243). -/
def World.readyUp (w : World) : World :=
  let w := { w with
    power := { w.power with stage := 0, lastWakeUs := w.power.wakeUs }
    pins := { w.pins with ready := true }
    pt := { w.pt with op := 0, mem := 0, coreMv := w.trimMv 0 } }
  (w.setSt .active).readPins

/-- The trims are applied: the rails run at the trimmed voltage of OP0 (R259, Table 10.3). -/
def World.trimmed (w : World) : World := { w with pt := { w.pt with coreMv := w.trimMv 0 } }

/-- A wake stage is complete (Table 10.3). In stage 4 `straps` has the levels of the strap balls in [8:0], and from bit 9 on those of the 12
reserved balls, of which one that is held above 0.6 V makes the attempt fail (R346, R355). -/
def World.stageDone (o : Otp) (w : World) (straps : Nat) : World :=
  if w.power.st ≠ .up || w.power.settling then w
  else match w.power.stage with
    | 2 => { w with pins := { w.pins with vio := true, faultN := some true }, pt := { w.pt with coreMv := 600 } }.nextStage
    | 4 => if factoryOk o.factory && decide (straps < 2 ^ 9) then (w.otpLoad o straps).trimmed.nextStage else w.stageFails
    | 6 => w.readyUp
    | _ => w.nextStage

/-! Idle (R237, R238). -/

/-- Whether no task is on a core, or leaving one. -/
def World.quiet (w : World) : Bool := w.sched.tasks.all (fun t => t.cores.all (fun c => !t.busy c))

/-- Cores given to tasks that have not entered them are taken back: a task that ran on none of its cores is READY again, any
other SUSPENDED (R237). -/
def World.dropComing (w : World) : World :=
  { w with sched := { w.sched with tasks := w.sched.tasks.map (fun (t : Task) =>
    if t.coming.isEmpty then { t with preempt := false }
    else if t.out.isEmpty then { t with coming := [], cores := [], st := .ready, preempt := false, asked := none }
    else ({ t with coming := [], out := t.cores, preempt := false, asked := none } : Task).settle) } }

/-- Entry to Idle is complete: every task has been switched out (R237). -/
def World.idleEntered (w : World) : World :=
  if w.power.st == .active && w.power.entering && w.quiet then
    { w.dropComing with power := { w.power with entering := false } }.setSt .idle
  else w

/-! Powering down (R247, R248). -/

/-- A power-down begins from Active or Idle; every segmented transfer ends (R297). -/
def World.beginDown (w : World) (byReq toDoze : Bool) : World :=
  { w with
    power := { w.power with dstep := 1, toDoze := toDoze, byReq := byReq, entering := false, follow := none }
    meter := { w.meter with calRun := false }
    stn := { w.stn with transfers := [] } }.setSt .down

/-- In Active or Idle the engine makes for its target (R236). -/
def World.goTarget (w : World) : World :=
  if w.power.st ≠ .active ∧ w.power.st ≠ .idle then w
  else if !w.pins.wake then w.beginDown false (w.power.lowTarget == 1)
  else match w.power.req with
    | 0 => { w with power := { w.power with entering := false } }.leaveIdle
    | 1 => if w.power.st = .active then { w with power := { w.power with entering := true } } else w
    | _ => w.beginDown true true

/-- A power-down is abandoned before the self-refresh point (R251, R252). -/
def World.abortDown (w : World) : World :=
  let w := { w with power := { w.power with aborted := sat32 w.power.aborted 1, dstep := 0 } }
  if w.power.req = 1 ∧ w.quiet then w.dropComing.setSt .idle
  else (w.setSt .active).readyPosted.goTarget

/-- Writes back every dirty sector; the lines stay, clean (Table 10.6, R251). -/
def Mem.flush (m : Mem) : Mem :=
  let lines := m.sets.flatMap (fun s => s.2.ways.flatten)
  let m := lines.foldl (fun m l => if l.remote then m else (maskBits 4 l.dirty).foldl (fun m i => m.writeBack (4 * l.addr + i)) m) m
  { m with sets := m.sets.mapAll {} (fun _ s => { s with ways := s.ways.map (fun w => w.map (fun (l : Line) => { l with dirty := 0 })) }) }

/-- Every task completes with POWER_DOWN; a step that has committed completes as committed (R199, R248). -/
def World.releaseTasks (w : World) : World :=
  w.sched.tasks.foldl (fun w t =>
    match w.task? t.id with
    | none => w
    | some t =>
      let open_ := (w.step? t.id).any (fun s => !s.committed)
      let done := (w.step? t.id).elim false (·.committed)
      let w := if w.multi && open_ then w.abandonUp (t.tenant.getD 0) 0x0602 else w
      if (w.task? t.id).isNone then w else (w.dropCkpt t.id).finish t (if done then 0 else 0x0602)) w

/-- A port that goes down forgets what it was sending (R203). -/
def Port.down (p : Port) : Port :=
  { p with st := 0, stage := 0, attempt := 0, txSeq := 0, rxSeq := 0, credits := [64, 96, 128, 16, 64, 96, 128, 16], owed := List.replicate 8 0,
           nak := none, unacked := [], queue := [], passed := 0, faulted := false, held := [0, 0, 0, 0] }

/-- What a queue keeps through Doze: its values that host software wrote, its enable with them, and its sequences; a doorbell that no
fetch has followed is lost (R241, Table 10.2; log entry 33). -/
def Queue.released (q : Queue) : Queue := { q with p := q.f, cancel := none, unsig := 0, resetting := false, posts := [] }

/-- D3: tasks complete, the link ports go down, the TDM ports stop, READY falls, and what the queues had in the engine is
lost (R248, R341, Table 10.6). -/
def World.release (w : World) : World :=
  let w := w.releaseTasks
  { w with
    power := { w.power with dstep := 3 }
    pins := { w.pins with ready := false }
    link := { w.link with ports := w.link.ports.map Port.down }
    job := { w.job with reads := [], toSend := [] }
    mem := { w.mem with rwrites := [] }
    host := { w.host with
      tdms := w.host.tdms.mapAll {} (fun _ t => { t with st := 0, good := 0 })
      ctxs := w.host.ctxs.mapAll {} (fun _ c => if c.uses 0 || c.uses 1 then { c with gapFlag := true, capture := false } else c)
      queues := w.host.queues.mapAll {} (fun _ q => q.released) } }

/-- What Doze does not keep: caches, staging, levels of clients, and the alerts in force (Table 10.2, R311, Table 14.6). -/
def World.intoDoze (w : World) : World :=
  ({ w with
    mem := { w.mem with sets := [], slices := [], l1 := [], far := [], given := [], slicePoison := [], staging := [] }
    stn := { w.stn with clients := w.stn.clients.map (fun (c : Client) => { c with level := 0 }) }
    pins := { w.pins with faultN := some true }
    pt := { w.pt with op := 0, mem := 0, ramp := none, coreMv := w.trimMv 0, clamp := 16, alert := false, regAlert := false, coolStop := false, trip := false, slow := false } } : World).noteReasons

/-- A return from Doze starts: 0 goes to the requested state, and the cause is recorded (R239). -/
def World.startExit (w : World) (cause : Nat) : World :=
  { w with power := { w.power with exiting := some cause, heldExit := none, req := 0, dozeCause := cause, dozeExits := sat32 w.power.dozeExits 1 } }

/-- An exit event in Doze: it acts only while WAKE is high, and waits for the residency (R239, R254, R258). -/
def World.exitEvent (w : World) (cause : Nat) : World :=
  if w.power.st ≠ .doze || !w.pins.wake || w.power.exiting.isSome then w
  else if w.power.resided then w.startExit cause
  else { w with power := { w.power with heldExit := some (w.power.heldExit.getD cause) } }

/-- Doze is reached; an exit that already waits goes on after the residency (R251, R252). -/
def World.reachDoze (w : World) : World :=
  let f := w.power.follow
  let w := { w.intoDoze with power := { w.power with
    dstep := 0
    resided := false
    heldExit := f
    exiting := none
    follow := none
    rewoken := if f.isSome then sat32 w.power.rewoken 1 else w.power.rewoken } }
  w.setSt .doze

/-- The return from Doze ends with READY rising and the engine in Active (R239, R241). -/
def World.dozeReturn (w : World) : World :=
  let w := { w with
    power := { w.power with exiting := none }
    pins := { w.pins with ready := true, faultN := some (!w.log.wd) }
    host := { w.host with tdms := w.host.tdms.mapAll {} (fun _ t => if t.en then { t with st := if t.role = 1 then 2 else 1, enAt := w.now } else t) } }
  ((w.setSt .active).readPins).goTarget

/-- A power-down step completes (Table 10.6). D2 writes back what is dirty as it begins, so that an abort within it leaves the lines
clean (R251), and what has become dirty meanwhile as it ends. D1 does not wait for cores that a halt has stopped (R284). -/
def World.downStep (w : World) : World :=
  if w.power.st ≠ .down then w
  else match w.power.dstep with
    | 1 => if w.quiet || w.pt.halted then { w with power := { w.power with dstep := 2 }, mem := w.mem.flush } else w
    | 2 => { w with mem := w.mem.flush }.release
    | 3 => { w with power := { w.power with dstep := 4 } }
    | 4 =>
      if (if w.pins.wake then w.power.toDoze else w.power.lowTarget == 1) then w.reachDoze
      else { w with power := { w.power with dstep := 5 }, pins := { w.pins with vio := false, faultN := none }, tap := {} }
    | 5 => { w with power := { w.power with dstep := 6 } }
    | _ => w.dormant

/-! WAKE (R249 to R252). -/

/-- A high level of WAKE is recognised. -/
def World.wakeUp (w : World) : World :=
  if w.pins.wake then w
  else
    let w := { w with pins := { w.pins with wake := true } }
    match w.power.st with
    | .dormant => w.beginWake
    | .doze => w.exitEvent 0
    | .down =>
      if w.power.dstep ≤ 2 then
        (if w.power.byReq ∧ w.power.req = 2 then { w with power := { w.power with toDoze := true } } else w.abortDown)
      else { w with power := { w.power with follow := some 0 } }
    | _ => w

/-- A low level of WAKE is recognised. -/
def World.wakeDown (w : World) : World :=
  let w := { w with pins := { w.pins with wake := false } }
  match w.power.st with
  | .active => w.goTarget
  | .idle => w.goTarget
  | .up => { w with power := { w.power with settling := false } }.setSt .unwind
  | .down => if w.power.dstep ≤ 2 then { w with power := { w.power with toDoze := w.power.lowTarget == 1 } } else w
  | .doze => if w.power.lowTarget = 1 || w.power.exiting.isSome then w
      else { w with power := { w.power with dstep := 5, toDoze := false, byReq := false, heldExit := none }, pins := { w.pins with vio := false, faultN := none }, tap := {} }.setSt .down
  | _ => w

/-- A power-up has been unwound: Dormant, or Wake-Failed with its first burst (R244, R245, R250). -/
def World.unwound (w : World) : World :=
  if w.power.st ≠ .unwind then w
  else if w.power.toFail then
    ({ w.dark with power := { failed := w.power.failed }, pins := { w.dark.pins with faultN := some false } }.setSt .wakeFailed).send (.pulses w.power.failed)
  else w.dormant

/-! The requested state (R236, R252). -/

/-- A write of 0x2000:01 in the state it meets. -/
def World.requestState (w : World) (v : Nat) : World :=
  let w := { w with power := { w.power with req := v } }
  if !w.pins.wake then w
  else match w.power.st with
    | .down =>
      if w.power.byReq ∧ v ≤ 1 then
        (if w.power.dstep ≤ 2 then w.abortDown
         else { w with power := { w.power with follow := some (Config.lateCause % 3) } })
      else w
    | _ => w.goTarget

/-! The meanings. -/

/-- WAKE_RISE (R249, R251). -/
def execWakeRise (st : State) : Host.Outcome State Fault Refusal := .next (st.onW World.wakeUp)

/-- WAKE_FALL (R249, R250). -/
def execWakeFall (st : State) : Host.Outcome State Fault Refusal := .next (st.onW World.wakeDown)

/-- WAKE_STAGE_DONE (R242, R243). -/
def execWakeStageDone (straps : Nat) (st : State) : Host.Outcome State Fault Refusal :=
  .next (st.onOW (fun o _ w => w.stageDone o straps))

/-- WAKE_STAGE_TIMEOUT (R242). -/
def execWakeStageTimeout (st : State) : Host.Outcome State Fault Refusal :=
  .next (st.onW (fun w => if w.power.st == .up && !w.power.settling then w.stageFails else w))

/-- RETRY_SETTLE_END (R242): the stage is attempted again, with its WAKE_RETRY event. -/
def execRetrySettleEnd (st : State) : Host.Outcome State Fault Refusal :=
  .next (st.onW (fun w =>
    if w.power.st == .up && w.power.settling then
      let n := w.power.attempts.getD (w.power.stage - 1) 0 + 1
      { w with power := { w.power with settling := false, attempts := setAt w.power.attempts (w.power.stage - 1) n } }.event 0x0002 srcAlwaysOn 0 w.power.stage n
    else w))

/-- READY_BURST (R245). -/
def execReadyBurst (st : State) : Host.Outcome State Fault Refusal :=
  .next (st.onW (fun w => if w.power.st = .wakeFailed then w.send (.pulses w.power.failed) else w))

/-- WAKE_FAILED_EXIT (R246). -/
def execWakeFailedExit (st : State) : Host.Outcome State Fault Refusal :=
  .next (st.onW (fun w => if w.power.st = .wakeFailed ∧ !w.pins.wake then w.dark else w))

/-- UNWIND_DONE (R244, R250). -/
def execUnwindDone (st : State) : Host.Outcome State Fault Refusal := .next (st.onW World.unwound)

/-- IDLE_ENTRY_DONE (R237). -/
def execIdleEntryDone (st : State) : Host.Outcome State Fault Refusal := .next (st.onW World.idleEntered)

/-- DOZE_EXIT_PCIE (R239, R317). -/
def execDozeExitPcie (st : State) : Host.Outcome State Fault Refusal :=
  .next (st.onW (fun w => if bitAt w.power.dozeSrc 0 && w.live.clkreq && decide (w.host.speed ≠ 0) then w.exitEvent 1 else w))

/-- DOZE_RESIDENCY_END (R254). -/
def execDozeResidencyEnd (st : State) : Host.Outcome State Fault Refusal :=
  .next (st.onW (fun w =>
    if w.power.st ≠ .doze || w.power.resided then w
    else
      let w := { w with power := { w.power with resided := true } }
      match w.power.heldExit with
      | some c => if w.pins.wake then w.startExit c else { w with power := { w.power with heldExit := none } }
      | none => w))

/-- What a change of the power state does to the tenants: none survives once memory has lost its power (Table 10.2). -/
def Vault.after (v : Vault) (w : World) : Vault :=
  if w.power.st == .active || w.power.st == .idle || w.power.st == .doze || (w.power.st == .down && decide (w.power.dstep < 5)) then v
  else resetVault

/-- POWER_DOWN_STEP_DONE (R247, R248). -/
def execPowerDownStepDone (st : State) : Host.Outcome State Fault Refusal :=
  .next (st.onVW (fun v w => (v.after w.downStep, w.downStep)))

/-- RESET_N_LOW (R255): ignored in Dormant and Wake-Failed. -/
def execResetNLow (st : State) : Host.Outcome State Fault Refusal :=
  .next (st.onVW (fun v w =>
    let w := { w with pins := { w.pins with resetN := false } }
    let w := if w.power.st = .dormant ∨ w.power.st = .wakeFailed then w else w.cut
    (v.after w, w)))

/-- RESET_N_RELEASE (R255). -/
def execResetNRelease (st : State) : Host.Outcome State Fault Refusal :=
  .next (st.onW (fun w =>
    let w := { w with pins := { w.pins with resetN := true } }
    if w.power.st = .dormant then w.dormant else w))

/-- VIN_LOSS (R256). -/
def execVinLoss (st : State) : Host.Outcome State Fault Refusal :=
  .next (st.onVW (fun v w =>
    let w := if w.power.st = .dormant then w else w.cut
    (v.after w, w)))

end Sys2Proof.Machine
end

