-- ==== Sys2Proof/Machine/Sec.lean ====
section
/-! DEFINITION. OTP programming, firmware, tenants and sessions (R367 to R397; 15_fuses_tenants_security.md). -/

namespace Sys2Proof.Machine

/-! OTP programming (R368, R371, R374, R394). -/

/-- A pending write ends with a status. -/
def State.done (st : State) (p : Option Pend) (status : Nat) : State := st.onW (fun w => w.writeDone? p status)

/-- Queues a programming request behind those in progress, where the conditions of R368 hold. -/
def State.program (st : State) (p : Pend) (j : OtpJob) : State :=
  if st.w.otpConditions then st.onW (fun w => { w with sec := { w.sec with otpJobs := w.sec.otpJobs ++ [(j, some p)] } })
  else st.done (some p) 0x0707

/-- The lowest blank generation that no request in progress programs (R371). -/
def State.nextGen (st : State) : Option Nat :=
  (List.range 4).find? (fun g => st.otp.genStates.getD g 1 == 0 && !st.w.sec.otpJobs.any (fun j => match j.1 with | .record h _ _ => h == g | _ => false))

/-- PROGRAM_STAGED_RECORD (R371, R372). -/
def State.programRecord (st : State) (p : Pend) : State :=
  match st.w.sec.staged with
  | none => st.done (some p) 0x0812
  | some r =>
    match st.nextGen with
    | none => st.done (some p) 0x0706
    | some g => st.program p (.record g (recordOf r) 0)

/-- Whether a slot's hash has been programmed, or is being programmed. -/
def State.slotUsed (st : State) (slot : Nat) : Bool :=
  !allZero (st.otp.hashes.getD slot []) || bitAt st.otp.markBits slot ||
    st.w.sec.otpJobs.any (fun j => match j.1 with | .hash s _ _ => s == slot | _ => false)

/-- PROGRAM_KEY_SLOT (R368, R374): a slot is programmed once. -/
def State.programSlot (st : State) (p : Pend) (slot : Nat) (hash : Bytes) : State :=
  if st.slotUsed slot then st.done (some p) 0x0706 else st.program p (.hash slot (slice hash 0 32) 0)

/-- The key-slot marks, with the revocations that are still being programmed (R374). -/
def State.marksDue (st : State) : Nat :=
  st.w.sec.otpJobs.foldl (fun m j => match j.1 with | .mark b => Nat.lor m (b / 16 * 16) | _ => m) st.otp.markBits

/-- REVOKE_KEY_SLOT (R374): one usable slot must be left. -/
def State.revokeSlot (st : State) (p : Pend) (slot : Nat) : State :=
  if (List.range 4).any (fun s => decide (s ≠ slot) && usableSlot st.marksDue s) then st.program p (.mark (2 ^ (slot + 4)))
  else st.done (some p) 0x0709

/-- A 32-bit word of a run of bytes, ORed with a word of data. -/
def orWord (b : Bytes) (k : Nat) (data : Nat) : Bytes :=
  b.take (4 * k) ++ leBytes 4 (Nat.lor (leAt b (4 * k) 4) data) ++ b.drop (4 * k + 4)

/-- What one word that was given `data` holds of it: all where it verified, otherwise bits that nothing constrains (R368). -/
def wordTaken (n data : Nat) (ok : Bool) : Nat := if ok then data else Nat.land data (Config.otpBits n)

/-- OTP after the present word of a programming request. -/
def Otp.word (o : Otp) (j : OtpJob) (n : Nat) (ok : Bool) : Otp :=
  match j with
  | .record g d k => { o with records := modAt o.records g (fun r => orWord r k (wordTaken n (leAt d (4 * k) 4) ok)) }
  | .hash s d k => { o with hashes := modAt o.hashes s (fun r => orWord r k (wordTaken n (leAt d (4 * k) 4) ok)) }
  | .mark b => { o with marks := Nat.lor o.marks (wordTaken n (physicalBits 8 b) ok) }
  | .security b => { o with sec := Nat.lor o.sec (wordTaken n (physicalBits 3 b) ok) }
  | .session i => if ok then { o with sess := Nat.lor o.sess (2 ^ i) } else o

/-- What follows a word: the request as it goes on, or its final status. -/
def Otp.follow (o : Otp) (j : OtpJob) (ok : Bool) : OtpJob ⊕ Nat :=
  match j with
  | .record g d k =>
    if k < 31 then .inl (.record g d (k + 1))
    else .inr (if recordState (o.records.getD g []) = 1 then 0 else 0x0707)
  | .hash s d k =>
    if k < 7 then .inl (.hash s d (k + 1))
    else if o.hashes.getD s [] = d then .inl (.mark (2 ^ s)) else .inr 0x0707
  | .mark _ => .inr (if ok then 0 else 0x0707)
  | .security _ => .inr (if ok then 0 else 0x0707)
  | .session i => if ok then .inr 0 else if i + 1 < sessionBits then .inl (.session (i + 1)) else .inr 0x0706

/-! Memory of tenants (R378, R382, R384). -/

/-- The base and length of each area of a tenant (R378). -/
def Tenant.areas (t : Tenant) : List (Nat × Nat) :=
  [(t.param, 2 * alignUp t.genLen 4096), (t.act, t.actLen), (t.scr, t.scrLen), (t.str, t.strLen)]

/-- Zeroes a range of memory; its sectors become good again (R163). -/
def Mem.zero (m : Mem) (a n : Nat) : Mem :=
  let out := fun (k : Nat) => decide (k < a) || decide (a + n ≤ k)
  { m with
    mem := m.mem.keep (fun k _ => out k)
    dram := m.dram.keep (fun k _ => out k)
    poison := m.poison.filter (fun s => out (32 * s))
    dramPoison := m.dramPoison.filter (fun s => out (32 * s))
    slicePoison := m.slicePoison.filter (fun s => out (32 * s)) }

/-- Names the tenant of every granule of a range in the seal map, or clears the entries (R378). -/
def Mem.seal (m : Mem) (e a n : Nat) : Mem := { m with seals := (granulesOf a n).foldl (fun t g => t.set 0 g e) m.seals }

/-- Zeroes every area of a tenant and clears its seal-map entries (R384, R387). -/
def World.unsealAreas (w : World) (t : Tenant) : World :=
  t.areas.foldl (fun w a => { w with mem := (w.mem.zero a.1 a.2).seal 0 a.1 a.2 }) w

/-- Seals the areas of a tenant; all but the first generation of the parameter area are zeroed (R382, R386). -/
def World.sealAreas (w : World) (id : Nat) (t : Tenant) : World :=
  let gs := alignUp t.genLen 4096
  let w := ((t.param + gs, gs) :: t.areas.drop 1).foldl (fun w a => { w with mem := w.mem.zero a.1 a.2 }) w
  t.areas.foldl (fun w a => { w with mem := w.mem.seal (id + 1) a.1 a.2 }) w

/-- Whether areas may be given to a tenant: each in the host region, none overlapping another or a sealed granule (R382). -/
def World.areasOk (w : World) (t : Tenant) : Bool :=
  let as_ := t.areas.filter (fun a => decide (0 < a.2))
  as_.all (fun a => inHost a.1 a.2 && !w.anySealed a.1 a.2) &&
    as_.zipIdx.all (fun (a, i) => as_.zipIdx.all (fun (b, j) => i == j || decide (a.1 + a.2 ≤ b.1) || decide (b.1 + b.2 ≤ a.1)))

/-- A tenant's table entry. -/
def Vault.tenant (v : Vault) (id : Nat) : Tenant := v.tenants.get {} id

/-- Changes a tenant's table entry. -/
def Vault.put (v : Vault) (id : Nat) (t : Tenant) : Vault := { v with tenants := v.tenants.set {} id t }

/-- Whether a task names a tenant, or an open stream context is bound to it (R384, R387). -/
def World.tenantBusy (w : World) (id : Nat) : Bool :=
  w.sched.tasks.any (fun t => t.tenant == some id) ||
    w.host.ctxs.any (fun c => c.2.isOpen && bitAt c.2.tenant 15 && c.2.tenant % 4096 == id)

/-! Creation, import and retirement (R382, R384, R386). -/

/-- The tenant that a creation record describes, armed (Table 15.7). -/
def tenantOfRecord (d : Bytes) : Tenant :=
  { st := 2
    np := leAt d 4 4
    param := leAt d 8 8
    act := leAt d 16 8
    actLen := 4096 * leAt d 24 4
    scrLen := 4096 * leAt d 28 4
    scr := leAt d 32 8
    str := leAt d 40 8
    strLen := 4096 * leAt d 48 4
    budget := leAt d 56 8
    secret := slice d 64 32 }

/-- The record that describes a tenant's areas and identity (Table 15.7). -/
def Tenant.record (t : Tenant) (id : Nat) : Bytes :=
  leBytes 2 id ++ zeros 2 ++ leBytes 4 t.np ++ leBytes 8 t.param ++ leBytes 8 t.act ++ leBytes 4 (t.actLen / 4096) ++
    leBytes 4 (t.scrLen / 4096) ++ leBytes 8 t.scr ++ leBytes 8 t.str ++ leBytes 4 (t.strLen / 4096) ++ zeros 4 ++
    leBytes 8 t.budget ++ slice t.secret 0 32 ++ zeros 32

/-- The checks of a creation record at its fields (R286, R378, R382; positions are byte offsets). -/
def World.recordFails (w : World) (d : Bytes) : List Fail :=
  let t := tenantOfRecord d
  let base := fun (off : Nat) => failIf (decide (leAt d off 8 % 4096 ≠ 0)) off 0x0812
  failIf (decide (4095 < leAt d 0 2)) 0 0x0812 ++ failIf (decide (leAt d 2 2 ≠ 0)) 2 0x0801 ++
    failIf (decide (t.np = 0) || decide (2 ^ 24 < t.np)) 4 0x0812 ++ base 8 ++ base 16 ++
    failIf (decide (t.actLen = 0)) 24 0x0812 ++ base 32 ++ base 40 ++
    failIf (!w.areasOk t) 50 0x0812 ++ failIf (decide (leAt d 52 4 ≠ 0)) 52 0x0801 ++ failIf (!allZero (slice d 96 32)) 96 0x0801

/-- Notes the final status of a tenant command; its write-done notification follows. -/
def State.tenantStatus (st : State) (p : Pend) (status : Nat) : State :=
  st.onW (fun w => { w with sec := { w.sec with tenReqs := w.sec.tenReqs ++ [(status, p)] } })

/-- CREATE_TENANT: generation 0 is the initial live generation, the other areas are zeroed, and all are sealed (R382). -/
def State.createTenant (st : State) (p : Pend) (d : Bytes) : State :=
  let id := leAt d 0 2
  if !st.w.sec.session then st.tenantStatus p 0x070F
  else if (st.vault.tenant id).st ≠ 0 then st.tenantStatus p 0x070B
  else
    let t := tenantOfRecord d
    { st with vault := st.vault.put id t, w := st.w.sealAreas id t }.tenantStatus p 0

/-- The bytes of an export blob (Table 15.10). -/
def World.blob (w : World) (id : Nat) (t : Tenant) (session : Nat) : Bytes :=
  let body := leBytes 4 t.np ++ leBytes 4 (t.actLen / 4096) ++ leBytes 4 (t.scrLen / 4096) ++ leBytes 4 (t.strLen / 4096) ++
    leBytes 8 t.budget ++ leBytes 8 t.spent ++ leBytes 4 t.steps ++ [byteOf t.codes] ++ zeros 3 ++ slice t.secret 0 32 ++
    zeros 24 ++ w.load (t.genBase t.live) t.genLen
  let nonce := leBytes 4 session ++ leBytes 2 id ++ zeros 6
  let head := leBytes 4 0x58544659 ++ leBytes 2 id ++ zeros 2 ++ leBytes 4 session ++ zeros 4 ++ slice w.live.factory 0 8 ++
    nonce ++ leBytes 4 body.length
  let (ct, tag) := gcmSeal w.exportKey nonce head body
  head ++ ct ++ tag

/-- The number of bytes of a tenant's blob. -/
def Tenant.blobLen (t : Tenant) : Nat := 152 + t.genLen

/-- The tenant of a blob's plaintext, on fresh areas (Table 15.10). -/
def tenantOfBlob (pt : Bytes) (armed : Bool) (bases : Nat → Nat) : Tenant :=
  { st := if armed then 2 else 1
    np := leAt pt 0 4
    param := bases 0
    act := bases 1
    actLen := 4096 * leAt pt 4 4
    scr := bases 2
    scrLen := 4096 * leAt pt 8 4
    str := bases 3
    strLen := 4096 * leAt pt 12 4
    budget := leAt pt 16 8
    spent := leAt pt 24 8
    steps := leAt pt 32 4
    codes := leAt pt 36 1
    secret := slice pt 40 32 }

/-- The plaintext of the blob at an address, where its digest, its chip and its tag are right (R386, R397). -/
def World.openBlob (w : World) (e : ManEntry) (a : Nat) : Option Bytes :=
  if !inHost a e.len || decide (e.len < 152) then none
  else
    let b := w.load a e.len
    if sha256 b ≠ e.digest || leAt b 0 4 ≠ 0x58544659 || leAt b 4 2 ≠ e.id || slice b 16 8 ≠ slice w.live.factory 0 8 ||
        leAt b 36 4 + 56 ≠ e.len then none
    else gcmOpen w.exportKey (slice b 24 12) (slice b 0 40) (slice b 40 (leAt b 36 4)) (slice b (e.len - 16) 16)

/-- TENANT_IMPORT (R386): the command's bytes are op, tenant, blob address and four bases (Table 15.13). -/
def State.importTenant (st : State) (p : Pend) (d : Bytes) : State :=
  let id := leAt d 2 2
  let w := st.w
  if !w.sec.session then st.tenantStatus p 0x070F
  else match w.sec.entries.find? (fun e => e.id == id) with
    | none => st.tenantStatus p 0x070B
    | some e =>
      if e.done || (st.vault.tenant id).st ≠ 0 then st.tenantStatus p 0x070B
      else match w.openBlob e (leAt d 8 8) with
        | none => st.tenantStatus p 0x070B
        | some pt =>
          let t := tenantOfBlob pt e.armed (fun i => leAt d (16 + 8 * i) 8)
          if pt.length ≠ 96 + t.genLen then st.tenantStatus p 0x070B
          else if !w.areasOk t then st.tenantStatus p 0x0812
          else
            let w := (w.sealAreas id t).store (t.genBase 0) (slice pt 96 t.genLen)
            let w := { w with sec := { w.sec with entries := w.sec.entries.map (fun (x : ManEntry) => if x.id = id then { x with done := true } else x) } }
            { st with vault := st.vault.put id t, w := w }.tenantStatus p 0

/-- TENANT_RETIRE (R384): the tenant becomes absent for good. -/
def State.retireTenant (st : State) (p : Pend) (d : Bytes) : State :=
  let id := leAt d 2 2
  if (st.vault.tenant id).st = 0 then st.tenantStatus p 0x070B
  else if st.w.tenantBusy id then st.tenantStatus p 0x070D
  else
    let w := st.w.unsealAreas (st.vault.tenant id)
    let w := { w with sec := { w.sec with entries := w.sec.entries.filter (fun e => decide (e.id ≠ id)) } }
    { st with vault := st.vault.put id {}, w := w }.tenantStatus p 0

/-- TENANT_COMMAND_DONE: the oldest tenant command's final status reaches its client (R289). -/
def World.tenantDone (w : World) : World :=
  match w.sec.tenReqs with
  | [] => w
  | (status, p) :: r => { w with sec := { w.sec with tenReqs := r, tenStatus := status } }.writeDone p status

/-! Sessions (R385, R387, R395, R396). -/

/-- The bytes of a manifest (Table 15.9): its kind is 1 open or 2 close; `fresh` names the entries with a blob here. -/
def World.manifest (w : World) (session kind : Nat) (es : List (ManEntry × Bool)) : Bytes :=
  let b := leBytes 4 0x4E4D4659 ++ leBytes 4 session ++ [byteOf kind] ++ zeros 7 ++ slice w.live.factory 0 8 ++
    leBytes 4 es.length ++ zeros 4 ++
    es.flatMap (fun (e, fresh) => leBytes 2 e.id ++ leBytes 2 ((if e.armed then 1 else 0) + (if fresh then 2 else 0)) ++
      leBytes 4 e.len ++ leBytes 8 e.off ++ slice e.digest 0 32)
  b ++ hmac w.manifestKey b

/-- The entries of a basis that may be imported, where the basis passes its checks (R385). -/
def World.basis (w : World) (counter a : Nat) : Option (List ManEntry) :=
  let n := leAt (w.load a 32) 24 4
  let len := 64 + 48 * n
  if !inHost a 64 || decide (4096 < n) || !inHost a len then none
  else
    let b := w.load a len
    let kind := leAt b 8 1
    if leAt b 0 4 ≠ 0x4E4D4659 || leAt b 4 4 ≠ counter || (kind ≠ 1 && kind ≠ 2) || !allZero (slice b 9 7) ||
        slice b 16 8 ≠ slice w.live.factory 0 8 || leAt b 28 4 ≠ 0 || hmac w.manifestKey (slice b 0 (len - 32)) ≠ slice b (len - 32) 32 then none
    else
      let es := (List.range n).map (fun i =>
        let o := 32 + 48 * i
        (({ id := leAt b o 2, len := leAt b (o + 4) 4, off := leAt b (o + 8) 8, digest := slice b (o + 16) 32 } : ManEntry), bitAt (leAt b (o + 2) 2) 0))
      some ((es.filter (fun e => !(kind == 1 && e.2))).map (·.1))

/-- The checks of a session request at its fields (R286, Table 15.8). -/
def World.sessionFails (w : World) (d : Bytes) : List Fail :=
  let op := leAt d 0 1
  failIf (op ≠ 1 && op ≠ 2) 0 0x0812 ++ failIf (decide (leAt d 1 3 ≠ 0)) 1 0x0801 ++
    (if op = 1 then failIf (!inHost (leAt d 16 8) 512) 16 0x0812 else []) ++
    failIf (!inHost (leAt d 24 8) (leAt d 4 4) || w.anySealed (leAt d 24 8) (leAt d 4 4)) 24 0x0812

/-- Starts to advance the session counter for a request (R368, R385, R387). -/
def State.advance (st : State) (p : Option Pend) : State :=
  st.onW (fun w => { w with sec := { w.sec with otpJobs := w.sec.otpJobs ++ [(.session st.otp.session, p)] } })

/-- SESSION_OPEN: the basis is checked, and the counter starts to advance (R385). -/
def State.openSession (st : State) (p : Pend) (d : Bytes) : State :=
  let w := st.w
  let a := leAt d 8 8
  if w.sec.session || w.sec.req.isSome then st.done (some p) 0x070F
  else match (if a = 0 then some [] else w.basis st.otp.session a) with
    | none => st.done (some p) 0x070B
    | some es =>
      let arm := w.load (leAt d 16 8) 512
      let es := es.map (fun (e : ManEntry) => { e with armed := bitAt (leAt arm (e.id / 8) 1) (e.id % 8) })
      if leAt d 4 4 < 64 + 48 * es.length then st.done (some p) 0x0813
      else if sessionBits ≤ st.otp.session then st.done (some p) 0x0706
      else if !w.otpConditions then st.done (some p) 0x0707
      else
        (st.onW (fun w => { w with sec := { w.sec with req := some ({ op := 1, outLen := leAt d 4 4, out := leAt d 24 8, entries := es }, p) } })).advance (some p)

/-- The tenants in ascending ID. -/
def Vault.held (v : Vault) : List (Nat × Tenant) := v.tenants.filter (fun e => decide (e.2.st ≠ 0))

/-- The armed tenants with the offsets of their blobs behind a manifest of `n` entries, and the bytes of the whole. -/
def blobPlaces (armed : List (Nat × Tenant)) (n : Nat) : List (Nat × Tenant × Nat) × Nat :=
  armed.foldl (fun (l, off) (id, t) => (l ++ [(id, t, off)], alignUp (off + t.blobLen) 32)) ([], alignUp (64 + 48 * n) 32)

/-- The end of the last blob, without the padding after it. -/
def blobsEnd (l : List (Nat × Tenant × Nat)) (n : Nat) : Nat := (l.getLast?).elim (64 + 48 * n) (fun e => e.2.2 + e.2.1.blobLen)

/-- SESSION_CLOSE: the blobs are written, and the counter starts to advance (R387). -/
def State.closeSession (st : State) (p : Pend) (d : Bytes) : State :=
  let w := st.w
  let held := st.vault.held
  if !w.sec.session || w.sec.req.isSome || held.any (fun e => w.tenantBusy e.1) then st.done (some p) 0x070F
  else
    let armed := held.filter (fun e => e.2.st == 2)
    let kept := w.sec.entries.filter (fun e => !armed.any (fun a => a.1 == e.id))
    let n := armed.length + kept.length
    let out := leAt d 24 8
    let (places, _) := blobPlaces armed n
    if leAt d 4 4 < blobsEnd places n then st.done (some p) 0x0813
    else if sessionBits ≤ st.otp.session then st.done (some p) 0x0706
    else if !w.otpConditions then st.done (some p) 0x0707
    else
      let blobs := places.map (fun (id, t, off) => (id, off, w.blob id t (st.otp.session + 1)))
      let w := blobs.foldl (fun w (_, off, b) => w.store (out + off) b) w
      let fresh := blobs.map (fun (id, off, b) => ({ id := id, len := b.length, off := off, digest := sha256 b, done := true } : ManEntry))
      let carried := kept.map (fun (e : ManEntry) => { e with armed := false, done := false })
      let all := fresh.foldl (fun l e => l.takeWhile (fun x => decide (x.id < e.id)) ++ [e] ++ l.dropWhile (fun x => decide (x.id < e.id))) carried
      { st with w := { w with sec := { w.sec with
        req := some ({ op := 2, outLen := blobsEnd places n, out := out, entries := all }, p) } } }.advance (some p)

/-- The session counter has advanced for the request in progress: the open manifest is written and the session opens, or the
close manifest is written and every tenant is released (R385, R387). A spare's restore opens a session of its own (R389). -/
def State.sessionAdvanced (st : State) : State :=
  match st.w.sec.req with
  | none => st.onW (fun w => { w with sec := { w.sec with session := true, entries := [] } })
  | some (q, _) =>
    let w := { st.w with sec := { st.w.sec with req := none } }
    if q.op = 1 then
      let w := w.store q.out (w.manifest st.otp.session 1 (q.entries.map (fun e => (e, false))))
      { st with w := { w with sec := { w.sec with session := true, entries := q.entries } } }
    else
      let w := w.store q.out (w.manifest st.otp.session 2 (q.entries.map (fun e => (e, e.done))))
      let w := st.vault.held.foldl (fun w e => w.unsealAreas e.2) w
      { st with
        vault := { tenants := [] }
        w := { w with sec := { w.sec with session := false, entries := [], closeBytes := q.outLen } } }

/-- OTP_WORD_PROGRAMMED: the request at the front takes its word, and goes on or ends (R368). -/
def State.otpWord (st : State) (ok : Bool) : State :=
  match st.w.sec.otpJobs with
  | [] => st
  | (j, p) :: rest =>
    let sec := st.w.sec
    let o := st.otp.word j sec.used ok
    let sec := { sec with verFail := if ok then sec.verFail else sat32 sec.verFail 1, used := if ok then sec.used else sec.used + 1 }
    match o.follow j ok with
    | .inl j' => { st with otp := o, w := { st.w with sec := { sec with otpJobs := (j', p) :: rest } } }
    | .inr status =>
      let st := { st with otp := o, w := { st.w with sec := { sec with
        otpJobs := rest
        unlocked := sec.unlocked && !bitAt o.secBits 1 } } }
      match j with
      | .session _ =>
        (if status = 0 then st.sessionAdvanced
         else st.onW (fun w => { w with sec := { w.sec with req := none } })).done p status
      | _ => st.done p status

/-! Signed firmware (R14, R373). -/

/-- The magic number of an image. -/
def fwMagic : Nat := 0x4D574659

/-- The status of verifying an image: 0, SIGNATURE_INVALID or KEY_REVOKED (R373). -/
def Otp.verify (o : Otp) (img : Bytes) : Nat :=
  let l := leAt img 8 4
  let slot := leAt img 12 1
  if leAt img 0 4 ≠ fwMagic || !allZero (slice img 13 3) || !allZero (slice img 144 16) || l = 0 || decide (2 ^ 23 < l) ||
      img.length ≠ 160 + l then 0x0708
  else if !(decide (slot < 4) && usableSlot o.markBits slot) then 0x0709
  else if sha256 (slice img 16 64) ≠ o.hashes.getD slot [] then 0x0708
  else if !ecdsaOk (beVal (slice img 16 32)) (beVal (slice img 48 32)) (beVal (slice img 80 32)) (beVal (slice img 112 32))
      (slice img 0 80 ++ slice img 160 l) then 0x0708
  else 0

/-- FIRMWARE_LOAD: the image is copied, and 0x1000:04 reads 0 until it has verified (R14, R373). -/
def World.loadFirmware (w : World) (p : Pend) (addr len : Nat) : World :=
  let idle := w.power.st == .idle && w.sched.tasks.isEmpty && w.link.jobState == 0
  if w.sec.loading.isSome then w.writeDone p 0x0816
  else if w.sec.fw ≠ 0 ∧ !idle then w.writeDone p 0x0811
  else { w with sec := { w.sec with loading := some (w.load addr len, p), fwPrev := w.sec.fw, fw := 0 } }

/-- FIRMWARE_LOAD_DONE (R373, R401): doorbell writes that waited for firmware then act (R316). -/
def World.firmwareDone (o : Otp) (w : World) : World :=
  match w.sec.loading with
  | none => w
  | some (img, p) =>
    let status := o.verify img
    let w := { w with sec := { w.sec with
      loading := none
      fwStatus := status
      fw := if status = 0 then leAt img 4 4 else w.sec.fwPrev
      fwSlot := if status = 0 then leAt img 12 1 else w.sec.fwSlot } }
    let w := if status = 0 ∧ w.log.wd then
        { w with log := { w.log with wd := false }, pins := { w.pins with faultN := some (!w.pt.halted) } }
      else w
    (w.writeDone p status).doorbellsDue

/-! Debug (R390 to R393). -/

/-- The debug state of 0x1300:0A (R390). -/
def World.debugState (o : Otp) (w : World) : Nat :=
  if bitAt o.secBits 1 then 3 else if !bitAt o.secBits 0 then 0 else if w.sec.unlocked then 2 else 1

/-- RELOCK_DEBUG: the status, and the chain locked (R393). -/
def World.relock (v : Vault) (w : World) (client : Nat) : World × Nat :=
  if !v.held.isEmpty || w.sec.session then (w, 0x070A)
  else if w.sec.unlocked then ({ w with sec := { w.sec with unlocked := false } }.event 0x0031 srcClient client 0 client, 0)
  else (w, 0)

/-- The next value of the entropy source, as 16 bytes (R375). -/
def World.draw (w : World) : World × Nat := ({ w with sec := { w.sec with drawn := w.sec.drawn + 1 } }, Config.entropy w.sec.drawn % 2 ^ 128)

/-! The meanings. -/

/-- OTP_WORD_PROGRAMMED (R368). -/
def execOtpWordProgrammed (ok : Bool) (st : State) : Host.Outcome State Fault Refusal := .next (st.otpWord ok)

/-- FIRMWARE_LOAD_DONE (R373). -/
def execFirmwareLoadDone (st : State) : Host.Outcome State Fault Refusal := .next (st.onOW (fun o _ w => w.firmwareDone o))

/-- TENANT_COMMAND_DONE (R289). -/
def execTenantCommandDone (st : State) : Host.Outcome State Fault Refusal := .next (st.onW World.tenantDone)

/-- ENTROPY_HEALTH_TEST_FAIL (R375). -/
def execEntropyHealthTestFail (failed : Bool) (st : State) : Host.Outcome State Fault Refusal :=
  .next (st.onW (fun w => if w.clocked then { w with sec := { w.sec with entropyBad := failed } } else w))

end Sys2Proof.Machine
end

