-- ==== Sys2Proof/Machine/Msgs.lean ====
section
/-! DEFINITION. Received messages: the link layer, remote memory, collectives and semaphores
(R140, R141, R204 to R207, R211, R214, R215, R219, R230, R231; 09_skein_and_ensembles.md). -/

namespace Sys2Proof.Machine

/-! Port faults (R207, R215, R398 cause 5). -/

/-- The port on the route to a node. -/
def World.portTo (w : World) (node : Nat) : Option Nat := (w.routeCfg.next w.node node).map (·.1)

/-- Whether a stage waits for something that comes over a port: the answer to a write or a read, a partner of the tree, or
the home of a global semaphore. -/
def World.waitsOn (w : World) (k : Nat) (t : Task) (g : Nat) (st : Stage) : Bool :=
  let past := fun (n : Nat) => w.portTo n == some k
  let logical := fun (l : Nat) => (w.nodeOf l).any past
  let n := w.link.jobSize
  let me := w.link.logical
  match st.phase with
  | .asking _ => logical w.sched.semHome
  | .posting _ => logical w.sched.semHome
  | .collective => (decide (me ≠ 0) && logical (parentOf me)) || (childrenOf n me).any logical
  | .granted => (w.runOf t g st).reads.any (fun x => match x.loc with
      | .far l => !w.mem.farHeld st.since (farAddr l x.addr) x.len && logical l
      | _ => false)
  | _ => false

/-- Whether a task waits on a port. -/
def World.taskOnPort (w : World) (k : Nat) (t : Task) : Bool :=
  w.mem.rwrites.any (fun r => r.task == (t.id.queue, t.id.seq) && w.portTo r.node == some k) ||
    t.stgs.zipIdx.any (fun (st, g) => w.waitsOn k t g st)

/-- A port fault: the port goes down until the job restarts, and the job's tasks that wait on it end with PORT_FAULT
(R207, Table 16.1). -/
def World.portFault (w : World) (k suspect : Nat) : World :=
  let ids := (w.sched.tasks.filter (w.taskOnPort k)).map (·.id)
  let w := (w.updPort k (fun p => { p with st := 0, faulted := true })).jobFault 5 suspect srcPort k
  if w.multi then ids.foldl (fun w id => w.updTask id (fun t => { t with stop := some 0x0501 })) w else w

/-- The node that a port leads to, as its neighbour said in training (Table 9.1). -/
def World.nbrNode (w : World) (k : Nat) : Nat := ((w.port k).nbr.map (·.1)).getD w.node

/-! Receiving (R206, R211, R212, R215). -/

/-- Discards a received flit that is corrupt or not the one expected, with a NAK that names the SEQ expected (R206). -/
def World.nakFlit (w : World) (k : Nat) (crcOk : Bool) : World :=
  let w := w.updPort k (fun p => { p with crc := if crcOk then p.crc else sat32 p.crc 1 })
  w.control k (some (w.port k).rxSeq)

/-- Takes `n` flits of a message that came in order and intact (R204, R206). -/
def World.keepFlits (w : World) (k : Nat) (h : RxHdr) (n : Nat) : World :=
  let w := (w.ackFlits k h.ack).updPort k (fun p => { p with
    rxSeq := (p.rxSeq + n) % 4096
    rcvd := add64 p.rcvd n
    owed := modAt p.owed (creditIx (h.vc % 4) (h.dlc % 2)) (· + n) })
  let w := if 8 ≤ (w.port k).owed.sum then w.control k none else w
  w.pump k

/-- Takes the flits of a received message of `n`, or of what is left of it after a NAK. From the first that is corrupt or not the one
expected they are discarded, with a NAK (R206). The second part is whether the message is whole. -/
def World.rxFlits (w : World) (k : Nat) (h : RxHdr) (n : Nat) : World × Bool :=
  let p := w.port k
  let v := h.vc % 4
  let left := n - p.held.getD v 0
  if p.st ≠ 2 then (w, false)
  else if !h.crcOk || decide (h.reserved ≠ 0) || decide (h.seq ≠ p.rxSeq) then (w.nakFlit k h.crcOk, false)
  else match h.bad.filter (fun b => decide (b.1 < left)) with
    | some (i, crc) => (((w.keepFlits k h i).updPort k (fun p => { p with held := modAt p.held v (· + i) })).nakFlit k (!crc), false)
    | none => ((w.keepFlits k h left).updPort k (fun p => { p with held := modAt p.held v (fun _ => 0) }), true)

/-- Takes a received message of `n` flits whose bytes are `wire`: it is forwarded where another node is its destination, and
discarded where its epoch is old; one that does not authenticate is a port fault. The second part is whether it is for
this engine. -/
def World.receive (w : World) (k : Nat) (h : RxHdr) (m : MsgHdr) (n : Nat) (wire : Bytes) : World × Bool :=
  match w.rxFlits k h n with
  | (w, false) => (w, false)
  | (w, true) =>
    if m.dst ≠ w.node then (w.launchFrom m.src h.vc m.dst wire none, false)
    else if m.epoch ≠ w.link.epoch % 2 ^ 16 then (w, false)
    else if !m.auth then (w.portFault k m.src, false)
    else (w, true)

/-- The bytes of a message as they came. -/
def wireOf (m : MsgHdr) (typ : Nat) (data : Bytes) : Bytes := msgHeader typ m.dst m.src m.srcLog m.tag m.len m.addr m.epoch ++ data

/-- The flits of a message with a header and `m.len` bytes of data. -/
def flitsIn (m : MsgHdr) : Nat := cdiv (16 + m.len) 64

/-- Takes a message with a header and data, and acts on it where it is for this engine. -/
def World.taking (w : World) (k : Nat) (h : RxHdr) (m : MsgHdr) (typ : Nat) (data : Bytes) (f : World → World) : World :=
  match w.receive k h m (flitsIn m) (wireOf m typ data) with
  | (w, true) => f w
  | (w, false) => w

/-! Remote memory (R161, R162, R214). -/

/-- READ_MSG: whole sectors are read at their home in one act; data of a sealed region is answered sealed (R214, R215). -/
def World.serveRead (w : World) (m : MsgHdr) : World :=
  let a := m.addr % 2 ^ 40 / 32 * 32
  let n := alignUp (m.addr % 2 ^ 40 + m.len) 32 - a
  let sealIt := w.anySealed a n
  if !inHost a n || (sealIt && !w.hasLinkSecret) then w
  else w.sendMsg mReadData 1 m.src m.tag m.addr (w.load a n) sealIt

/-- READ_DATA_MSG: the data that a read asked for (R161, R162). -/
def World.takeRead (w : World) (m : MsgHdr) (data : Bytes) : World :=
  match w.job.reads.find? (fun r => r.tag == m.tag && r.node == m.src) with
  | none => w
  | some r =>
    let w := { w with
      job := { w.job with reads := w.job.reads.erase r }
      mem := w.mem.fillFar r.addr (data.take r.len) r.seq (r.epoch == w.mem.remEpoch && !r.stale) }
    w.creditBack

/-- WRITE_MSG: the home applies the write and then acknowledges it (R214). -/
def World.serveWrite (w : World) (m : MsgHdr) (data : Bytes) : World :=
  let a := m.addr % 2 ^ 40
  if !inHost a data.length then w else (w.store a data).sendMsg mWriteAck 1 m.src m.tag m.addr [] false

/-- A task whose completion has waited for its remote writes completes with the last acknowledgement (R159). -/
def World.closed (w : World) (id : TaskId) : World :=
  match w.task? id with
  | none => w
  | some t => match t.closing with
    | some status => if w.unacked id then w else w.finish t status
    | none => w

/-- WRITE_ACK_MSG: a write is acknowledged, and its credit comes back (R159, R215). -/
def World.takeAck (w : World) (m : MsgHdr) : World :=
  match w.mem.rwrites.find? (fun r => r.tag == m.tag && r.node == m.src) with
  | none => w
  | some r => ({ w with mem := { w.mem with rwrites := w.mem.rwrites.erase r } }.creditBack).closed ⟨r.task.1, r.task.2⟩

/-- PUSHPOST_POST_MSG: the messages of one source come in order, so every write of the operation has been applied; its
semaphore is posted and the poster is answered (R138, R214). -/
def World.servePost (w : World) (m : MsgHdr) (sem q slot core : Nat) : World :=
  let (w, ok) := w.postSem false sem 0xFF none
  w.semMsg m.srcLog (if ok then 3 else 4) sem q slot core 0

/-! Collectives (R219, R230, R231). -/

/-- COLLECTIVE_SETUP_MSG: the number, the ID and the leaf-count exponent are those of the collective here, or it stops the
job's tasks (R219). A setup for a collective not issued here yet is judged when it is. -/
def World.serveSetup (w : World) (m : MsgHdr) (lam : Nat) : World :=
  let id := m.addr % 2 ^ 32
  let seq := m.addr / 2 ^ 32 % 2 ^ 16
  match w.job.colls.find? (fun c => c.seq % 2 ^ 16 == seq) with
  | some c => if c.id ≠ id ∨ c.lam ≠ lam then w.mismatch m.src else w
  | none =>
    if w.barrierAt seq then w.mismatch m.src
    else if (seq + 2 ^ 16 - w.job.collSeq % 2 ^ 16) % 2 ^ 16 < 2 ^ 15 || w.train.mode = 1 then w
    else w.mismatch m.src

/-- The content of a setup or skip notice: λ, the node's lowest leaf and span, and the direction (log entry 25). -/
def setupBytes (lam node span : Nat) (down : Bool) : Bytes := [byteOf lam, byteOf node, byteOf span, if down then 1#8 else 0#8]

/-- LATENESS_DEADLINE: in LENIENT mode, a level of a SUM goes on without a late partial (R230). -/
def World.lateNode (w : World) (id : TaskId) (g node : Nat) : World :=
  match w.job.colls.find? (fun c => c.task == id && c.stage == g) with
  | none => w
  | some c =>
    let n := w.link.jobSize
    let owner := leafOwner n c.lam node
    let waits := c.nodes.find? (fun x => x.1 + x.2.1 == node && x.1 % (2 * x.2.1) == 0)
    match waits with
    | none => w
    | some x =>
      if w.train.mode ≠ 1 || c.op ≠ .sum || decide (c.leaves n ≤ node) || owner == w.link.logical || c.skipped.contains node ||
          c.nodes.any (fun y => y.1 == node) then w
      else
        let w := w.updColl c.seq (fun c => { c with skipped := c.skipped ++ [node] })
        let w := { w with link := { w.link with skips := sat32 w.link.skips 1, nondet := true } }
        (w.messageTo mSkip 2 owner 0 (collAddr c.id c.seq) (setupBytes c.lam node x.2.1 false)).advanceColl c.seq

/-! Semaphore messages (R140 to R142, R144; log entry 23). -/

/-- The task that a queue and a ring slot name. -/
def World.taskAt (w : World) (q slot : Nat) : Option Task := w.sched.tasks.find? (fun t => t.id.queue == q && t.slot == slot)

/-- The stage of a task whose first core is given, in a phase. -/
def Task.stageAt (t : Task) (core : Nat) (p : Phase → Bool) : Option Nat :=
  (List.range t.stgs.length).find? (fun g => (t.stageCores g).headD 0 == core && (t.stgs[g]?).any (fun s => p s.phase))

/-- Whether a phase waits for the home's answer on a semaphore. -/
def Phase.asks (n : Nat) : Phase → Bool
  | .asking m => m == n
  | _ => false

/-- Whether a phase waits for the home's answer to a post. -/
def Phase.posts : Phase → Bool
  | .posting _ => true
  | _ => false

/-- A holder here resumes at the rank of the highest waiter elsewhere: steps 3 and 4 of R141. -/
def World.lendFar (w : World) (n : Nat) (h : Task) (core rank : Nat) : World :=
  let was := (w.sched.chains.filter (fun (d : Chain) => d.waiter == farWaiter n)).map (·.rank)
  let c : Chain := {
    waiter := farWaiter n, stage := 0, glob := true, sem := n, since := w.now, rank := was.foldl max rank
    holders := [{ task := h.id, glob := true, sem := n, core := core }] }
  let w := { w with sched := { w.sched with chains := w.sched.chains.filter (fun (d : Chain) => !(d.waiter == c.waiter)) ++ [c] } }
  w.lendTo h.id core

/-- A chain for a waiter elsewhere ends, as at the expiry of its budget: its holders are back at their own ranks (R142). -/
def World.dropFar (w : World) (c : Chain) : World := c.holders.foldl (fun w h => w.yieldCores false h.task) (w.forgetChain c)

/-- A wait that comes to the home of a global semaphore (R140, R141). -/
def World.homeWait (w : World) (src n q slot core rank : Nat) : World :=
  let s := w.sem true n
  if 1 ≤ s.value then
    let w := w.updSem true n (fun s => { s with value := s.value - 1, owner := some { engine := src, task := ⟨q, slot⟩, slot := slot, core := core } })
    w.semMsg src 2 n q slot core rank
  else
    let f : FarWait := { engine := src, queue := q, slot := slot, core := core, rank := rank, ord := w.sched.order }
    let w := w.updSem true n (fun s => { s with far := s.far ++ [f] })
    let w := { w with sched := { w.sched with order := w.sched.order + 1 } }
    match s.owner with
    | none => w
    | some o =>
      if o.engine ≠ w.link.logical then w.semMsg o.engine 5 n o.task.queue o.slot o.core rank
      else match w.task? o.task with
        | some h => if h.st == .suspended || h.st == .parked then (w.lendFar n h o.core rank).semMsg src 6 n q slot core rank else w
        | none => w

/-- The hold budget of a waiter here starts, because its holder on another engine is being resumed (R141). -/
def World.parkAsking (w : World) (t : Task) (g n : Nat) : World :=
  let c : Chain := { waiter := t.id, stage := g, glob := true, sem := n, since := w.now, rank := t.rank, holders := [] }
  let w := { w with sched := { w.sched with chains := w.sched.chains ++ [c] } }
  if w.sched.holdBudget = 0 then w.dropChains (fun x => x.waiter == t.id && x.stage == g) else w.park t.id

/-- The home learns that the holder of a semaphore is being resumed: its waiters here park, and those elsewhere are told. -/
def World.homeResumed (w : World) (n : Nat) : World :=
  let w := (w.sem true n).far.foldl (fun w f => w.semMsg f.engine 6 n f.queue f.slot f.core f.rank) w
  w.sched.tasks.foldl (fun w t =>
    t.stgs.zipIdx.foldl (fun w (s, g) => match s.phase with
      | .waiting true m _ _ =>
        if m = n ∧ !w.sched.chains.any (fun c => c.waiter == t.id && c.stage == g) then w.parkAsking t g n else w
      | _ => w) w) w

/-- A waiter elsewhere has given up: it leaves the home, and its holder returns to its own rank (R142). -/
def World.homeWithdraw (w : World) (src n q slot : Nat) : World :=
  let w := w.updSem true n (fun s => { s with far := s.far.filter (fun f => !(f.engine == src && f.queue == q && f.slot == slot)) })
  match (w.sem true n).owner with
  | none => w
  | some o =>
    if o.engine ≠ w.link.logical then w.semMsg o.engine 7 n o.task.queue o.slot o.core 0
    else (w.sched.chains.filter (fun c => c.waiter == farWaiter n)).foldl World.dropFar w

/-- The owner of a semaphore on another engine has ended: the semaphore is orphaned and its waiters end (R139, R144). -/
def World.homeOrphan (w : World) (src n q slot : Nat) : World :=
  if (w.sem true n).owner.any (fun o => o.engine == src && o.task.queue == q && o.slot == slot) then
    let w := (w.orphan true q n).dropChains (fun c => c.glob && c.sem == n && c.holders.isEmpty)
    w.farHeld n
  else w

/-- A semaphore message at the home engine. -/
def World.homeMsg (w : World) (src op n q slot core rank : Nat) : World :=
  match op with
  | 0 => w.homeWait src n q slot core rank
  | 1 =>
    let (w, ok) := w.postSem true n src (some ⟨q, slot⟩)
    w.semMsg src (if ok then 3 else 4) n q slot core rank
  | 6 => w.homeResumed n
  | 7 => w.homeWithdraw src n q slot
  | 8 => w.homeOrphan src n q slot
  | 9 => (w.dropChains (fun c => c.glob && c.sem == n && c.holders.isEmpty)).farHeld n
  | _ => w

/-- A semaphore message from the home engine. -/
def World.awayMsg (w : World) (op n q slot core rank : Nat) : World :=
  match w.taskAt q slot with
  | none =>
    if op = 2 then w.semMsg w.sched.semHome 8 n q slot core 0 else w
  | some t =>
    match op with
    | 2 =>
      match t.stageAt core (Phase.asks n) with
      | some g => (w.updTask t.id (fun t => { t with owns := t.owns ++ [n] })).unwait t.id g .granted
      | none => w.semMsg w.sched.semHome 8 n q slot core 0
    | 5 =>
      if t.st == .suspended || t.st == .parked then (w.lendFar n t core rank).semMsg w.sched.semHome 6 n q slot core rank else w
    | 6 =>
      match t.stageAt core (Phase.asks n) with
      | some g => if w.sched.chains.any (fun c => c.waiter == t.id && c.stage == g) then w else w.parkAsking t g n
      | none => w
    | 7 =>
      (w.sched.chains.filter (fun c => c.waiter == farWaiter n)).foldl World.dropFar w
    | 9 =>
      match t.stageAt core (Phase.asks n) with
      | some g => w.dropChains (fun c => c.waiter == t.id && c.stage == g)
      | none => w
    | _ => w

/-- The answer to a post: at the home of a global semaphore, or of a PUSHPOST (R103, R214). -/
def World.takePosted (w : World) (q slot core : Nat) (ok : Bool) : World :=
  match w.taskAt q slot with
  | none => w
  | some t =>
    match t.stageAt core Phase.posts with
    | none => w
    | some g =>
      let d := Desc.ofBytes ((t.stgs[g]?).elim [] (·.desc))
      (if d.opc = 0x65 ∧ !d.pgl then w.creditBack else w).posted t.id g ok

/-- SEMAPHORE_MSG (R140). -/
def World.semMessage (w : World) (src op n q slot core rank : Nat) : World :=
  if op = 3 ∨ op = 4 then w.takePosted q slot core (op == 3)
  else if w.semHere && decide (op ≠ 2) && decide (op ≠ 5) then w.homeMsg src op n q slot core rank
  else w.awayMsg op n q slot core rank

/-! The meanings. -/

/-- READ_MSG (R214). A read message is one flit; its length field is the length asked for (log entry 22). -/
def execReadMsg (k : Nat) (h : RxHdr) (m : MsgHdr) (st : State) : Host.Outcome State Fault Refusal :=
  .next (st.onW (fun w => match w.receive k h m 1 (wireOf m mRead []) with
    | (w, true) => w.serveRead m
    | (w, false) => w))

/-- READ_DATA_MSG (R161). -/
def execReadDataMsg (k : Nat) (h : RxHdr) (m : MsgHdr) (data : Bytes) (st : State) : Host.Outcome State Fault Refusal :=
  .next (st.onW (fun w => w.taking k h m mReadData data (fun w => w.takeRead m data)))

/-- WRITE_MSG (R214). -/
def execWriteMsg (k : Nat) (h : RxHdr) (m : MsgHdr) (data : Bytes) (st : State) : Host.Outcome State Fault Refusal :=
  .next (st.onW (fun w => w.taking k h m mWrite data (fun w => w.serveWrite m data)))

/-- WRITE_ACK_MSG (R214). -/
def execWriteAckMsg (k : Nat) (h : RxHdr) (m : MsgHdr) (st : State) : Host.Outcome State Fault Refusal :=
  .next (st.onW (fun w => w.taking k h m mWriteAck [] (fun w => w.takeAck m)))

/-- PUSHPOST_POST_MSG (R214). -/
def execPushpostPostMsg (k : Nat) (h : RxHdr) (m : MsgHdr) (sem q slot core : Nat) (st : State) : Host.Outcome State Fault Refusal :=
  .next (st.onW (fun w => w.taking k h m mPost ([byteOf sem, byteOf q] ++ leBytes 2 slot ++ [byteOf core]) (fun w => w.servePost m (sem % 256) q slot core)))

/-- COLLECTIVE_SETUP_MSG (R219): one flit, with no data of its own. -/
def execCollectiveSetupMsg (k : Nat) (h : RxHdr) (m : MsgHdr) (lam node span : Nat) (down : Bool) (st : State) : Host.Outcome State Fault Refusal :=
  .next (st.onW (fun w => match w.receive k h m 1 (wireOf m mSetup (setupBytes lam node span down)) with
    | (w, true) => w.serveSetup m lam
    | (w, false) => w))

/-- COLLECTIVE_DATA (R216): flits that are all data, whose header came in the setup. -/
def execCollectiveData (k : Nat) (h : RxHdr) (m : MsgHdr) (lam node span : Nat) (down : Bool) (data : Bytes) (st : State) :
    Host.Outcome State Fault Refusal :=
  .next (st.onW (fun w => match w.receive k h m (max 1 (cdiv m.len 64)) data with
    | (w, true) => w.collMsg { id := m.addr % 2 ^ 32, seq := m.addr / 2 ^ 32 % 2 ^ 16, lam := lam, node := if span = 0 then 0 else node, down := down, src := m.src, data := data }
    | (w, false) => w))

/-- LATENESS_DEADLINE (R230). -/
def execLatenessDeadline (q s g node : Nat) (st : State) : Host.Outcome State Fault Refusal :=
  .next (st.onW (fun w => w.lateNode ⟨q, s⟩ g node))

/-- SKIP_NOTICE_MSG (R231). -/
def execSkipNoticeMsg (k : Nat) (h : RxHdr) (m : MsgHdr) (lam node span : Nat) (st : State) : Host.Outcome State Fault Refusal :=
  .next (st.onW (fun w => w.taking k h m mSkip (setupBytes lam node span false) (fun w =>
    w.collMsg { id := m.addr % 2 ^ 32, seq := m.addr / 2 ^ 32 % 2 ^ 16, lam := lam, node := node, skip := true, src := m.src })))

/-- SEMAPHORE_MSG (R140). -/
def execSemaphoreMsg (k : Nat) (h : RxHdr) (m : MsgHdr) (op sem q slot core rank : Nat) (st : State) : Host.Outcome State Fault Refusal :=
  .next (st.onW (fun w => w.taking k h m mSem (semBytes op sem q slot core rank) (fun w => w.semMessage m.srcLog op (sem % 256) q slot core rank)))

end Sys2Proof.Machine
end

