-- ==== Sys2Proof/Machine/Fabric.lean ====
section
/-! DEFINITION. Ports, the sideband, votes over the tree, job start and stop, and the restart of a job
(R11, R12, R202 to R210, R216, R222 to R234, R264, R266, R389; 09_skein_and_ensembles.md). -/

namespace Sys2Proof.Machine

/-! Wiring (Table 9.6). -/

/-- The node and port that a port of this engine is wired to, where its product uses the port. -/
def World.wiredTo (w : World) (k : Nat) : Option (Nat × Nat) :=
  let c := w.routeCfg
  let s := w.link.slotId
  let tray := w.link.tray
  let x := tray % c.tx
  let y := tray / c.tx
  if c.cls = 1 then
    (if k = 0 then some (c.base + (s + 1) % c.ring, 1) else if k = 1 then some (c.base + (s + c.ring - 1) % c.ring, 0) else none)
  else if c.cls = 2 then
    match k with
    | 0 => some (16 * tray + (s + 1) % 9, 1)
    | 1 => some (16 * tray + (s + 8) % 9, 0)
    | 2 => if c.tx = 1 then none
      else some (16 * (y * c.tx + (if s % 2 = x % 2 then x + 1 else x + c.tx - 1) % c.tx) + s, 2)
    | 3 => if c.ty = 1 then none
      else some (16 * ((if s % 2 = y % 2 then y + 1 else y + c.ty - 1) % c.ty * c.tx + x) + s, 3)
    | _ => none
  else none

/-- The ports that a job trains: none for a job of one engine or an engine with no product class (R12, R202). -/
def World.jobPorts (w : World) : List Nat :=
  if w.link.jobSize = 1 then [] else (List.range 4).filter (fun k => (w.wiredTo k).isSome)

/-- The ends, by node and port, of this engine's links that did not train or are down: routes leave them out (R212). -/
def World.cutLinks (w : World) : List (Nat × Nat) :=
  w.jobPorts.flatMap (fun k => if (w.port k).st = 0 ∨ (w.port k).st = 3 then (w.node, k) :: (w.wiredTo k).toList else [])

/-! Job start (R209, R210). -/

/-- A job start ends with a status: the job's state and its status object, and the write-done notification (R210, R289). -/
def World.startFails (w : World) (status : Nat) : World :=
  ({ w with
    link := { w.link with jobState := 0, status := status }
    job := { w.job with startReq := none, members := [] } } : World).writeDone? w.job.startReq status

/-- The nodes of a venue job, without spares, whose place must be taken: those that sent nothing or whose ports did not train
as wired, and for a port that did not train between two engines that are here, the higher node (R210, R224). -/
def World.missingNodes (w : World) : List Nat :=
  let c := w.routeCfg
  let here := w.node :: (w.job.members.filter (·.2)).map (·.1)
  let dead := w.jobPorts.filterMap (fun k => if (w.port k).st = 3 then
      (w.wiredTo k).map (fun e => if here.contains e.1 then max e.1 w.node else e.1)
    else none)
  c.nodes.filter (fun n => !here.contains n || dead.contains n)

/-- The map of a venue job with spares in the places of the nodes given: none where a tray has no spare left. -/
def World.venueMap (w : World) (lost : List Nat) : Option (Tab Nat) :=
  (List.range w.link.jobSize).foldl (fun m l =>
    m.bind (fun m =>
      let tray := l / 8
      let n := 16 * tray + l % 8
      if !lost.contains n then some (m.set 0xFF l n)
      else if lost.contains (16 * tray + 8) || m.any (fun e => e.2 == 16 * tray + 8) then none
      else some (m.set 0xFF l (16 * tray + 8)))) (some [])

/-- The job runs (R210): every object that a start sets, the fractions in force, and the ceilings as they stand
(R232, R264, R266). Logical engine 0 draws the salt; elsewhere it comes with the start exchange (R381). -/
def World.jobRuns (w : World) (map : Tab Nat) (down : List Nat) : World :=
  let (w, salt) := w.draw
  let req := w.job.startReq
  let me := (map.find? (fun e => e.2 == w.node)).elim 0xFF (·.1)
  let w := w.dropCarried
  let w := { w with
    link := { w.link with
      map := map
      logical := me
      jobState := 2
      status := 0
      epoch := 1
      coord := 0
      credits := 1024
      nondet := false
      jobPoint := 0x27
      ckStep := 0xFFFFFFFF
      ckAddr := 0
      ports := w.link.ports.map Port.released }
    job := { nextTag := w.job.nextTag, sbSeq := w.job.sbSeq, seen := w.job.seen, times := w.job.times, salt := salt, down := down, cut := w.cutLinks }
    pt := { w.pt with fracNow := w.pt.frac }
    mem := { w.mem with rwrites := [], given := [] } }
  let w := { w with job := { w.job with diameter := if w.link.jobSize = 1 then 0 else w.routeCfg.diameter, profile := w.ownProfile } }
  (w.takeCeiling false).writeDone? req 0

/-- The wiring check, once no port of the job is training any more (R210). -/
def World.settleStart (w : World) : World :=
  if w.link.jobState ≠ 1 || w.jobPorts.any (fun k => decide ((w.port k).st = 1)) then w
  else
    let bad := w.jobPorts.any (fun k => decide ((w.port k).st = 2) && decide ((w.port k).nbr ≠ w.wiredTo k))
    let nodes := w.node :: w.job.members.map (·.1)
    if bad || w.job.miswired || decide (nodes.eraseDups.length ≠ nodes.length) then w.startFails 0x0208
    else if w.routeCfg.cls = 2 then
      let lost := w.missingNodes
      match w.venueMap lost with
      | some m => w.jobRuns m lost
      | none => w.startFails 0x0208
    else if w.jobPorts.any (fun k => decide ((w.port k).st = 3)) || w.job.members.any (fun e => !e.2) ||
        decide (w.job.members.length + 1 ≠ w.link.jobSize) then w.startFails 0x0208
    else if w.routeCfg.cls ≠ 1 then w.jobRuns [(0, w.node)] []
    else w.jobRuns ((List.range w.link.jobSize).foldl (fun (m : Tab Nat) s => m.set 0xFF s (w.routeCfg.base + s)) []) []

/-- The configuration check of R210. -/
def World.jobConfigOk (w : World) (peers : List Peer) : Bool :=
  let l := w.link
  let tx := l.grid % 16
  let ty := l.grid / 16
  let side := fun (v : Nat) => v == 1 || v == 2 || v == 4
  let slots := fun (s : Nat) => if w.live.cls = 1 then decide (s < l.jobSize) else decide (s ≤ 8)
  (match w.live.cls with
    | 1 => decide (2 ≤ l.jobSize) && decide (l.jobSize ≤ 4)
    | 2 => side tx && side ty && l.jobSize == 8 * tx * ty && decide (l.tray < tx * ty) && peers.all (fun p => decide (p.tray < tx * ty))
    | _ => l.jobSize == 1) &&
  slots l.slotId && peers.all (fun p => slots p.slot && p.size == l.jobSize && p.grid == l.grid && p.cls == w.live.cls && (w.live.cls == 2 || p.tray == l.tray))

/-- The stepping of 0x1000:03, as the factory area holds it. -/
def World.stepping (w : World) : Nat := leAt w.live.factory 12 2

/-- JOB_START: the checks of R210 in their order, and then the ports train. -/
def World.startJob (w : World) (p : Pend) (peers : List Peer) : World :=
  let busy := decide (1 ≤ w.link.jobState) && decide (w.link.jobState ≤ 4)
  let fail := fun (status : Nat) => ({ w with link := { w.link with status := status } } : World).writeDone p status
  if busy then w.writeDone p 0x0816
  else if peers.any (fun q => q.stepping != w.stepping || q.fwHigh != w.sec.fw / 2 ^ 16) then fail 0x0205
  else if w.live.cls = 0xFF || peers.any (fun q => decide (q.cls = 0xFF)) then fail 0x0206
  else if !w.jobConfigOk peers then fail 0x0209
  else
    let w := { w with
      link := { w.link with jobState := 1, map := [], logical := 0xFF }
      job := { w.job with startReq := some p, members := peers.map (fun (q : Peer) => (16 * q.tray + q.slot, q.trained)), miswired := peers.any (fun q => !q.wired), down := [], cut := [] } }
    (w.jobPorts.foldl (fun w k => w.updPort k (fun p => p.attemptOf 1)) w).settleStart

/-- JOB_STOP: the job's tasks are cancelled, what it carried is dropped, and the engine belongs to no job. -/
def World.stopJob (w : World) (p : Pend) : World :=
  let w := if w.link.jobState = 1 then w.startFails 0x020C else w
  let w := (if w.multi then w.stopJobTasks 0x020C else w).dropCarried
  let w := { w with
    link := { w.link with jobState := 0, logical := 0xFF, map := [], coord := 0xFF, credits := 1024, ports := w.link.ports.map Port.released }
    mem := { w.mem with rwrites := [], given := [] }
    job := { nextTag := w.job.nextTag, sbSeq := w.job.sbSeq, seen := w.job.seen, times := w.job.times } }
  w.writeDone p 0

/-! Training (R202). -/

/-- PORT_TRAINING_STAGE_DONE. -/
def World.stageTrained (w : World) (k : Nat) (nbr : Nbr) : World :=
  let p := w.port k
  if p.st ≠ 1 || !w.clocked then w
  else if p.stage < 6 then
    w.updPort k (fun p => { p with
      stage := p.stage + 1
      nbr := if p.stage = 5 then some (16 * nbr.tray + nbr.slot, nbr.port) else p.nbr })
  else (w.updPort k (fun p => { p with st := 2, stage := 0, attempt := 0 })).settleStart

/-- PORT_TRAINING_TIMEOUT: the port tries again, or after its third attempt is marked failed. A port that fails in a restart
loses the engine with the higher node number (R224, log entry 26). -/
def World.trainTimeout (w : World) (k : Nat) : World :=
  let p := w.port k
  if p.st ≠ 1 || !w.clocked then w
  else if p.attempt < 3 then w.updPort k (fun p => p.attemptOf (p.attempt + 1))
  else
    let w := w.updPort k (fun p => { p with st := 3, stage := 0, attempt := 0 })
    if w.link.jobState = 1 then w.settleStart
    else if w.link.jobState = 3 then w.jobFault 5 (max w.node ((w.wiredTo k).elim 0 (·.1))) srcPort k
    else w

/-! Flits (R204, R206, R207). -/

/-- CONTROL_FLIT: its acknowledgement, the credits it returns and its NAK (Table 9.3). -/
def World.takeControl (w : World) (k : Nat) (h : RxHdr) (credits : List Nat) (nak : Nat) : World :=
  let p := w.port k
  if p.st ≠ 2 then w
  else if !h.crcOk || decide (h.reserved ≠ 0) then
    (w.updPort k (fun p => { p with crc := if h.crcOk then p.crc else sat32 p.crc 1 })).control k (some p.rxSeq)
  else
    let w := (w.ackFlits k h.ack).updPort k (fun p => { p with
      rcvd := add64 p.rcvd 1
      credits := p.credits.zipIdx.map (fun (c, i) => c + credits.getD i 0) })
    let w := if bitAt nak 15 then w.resendFrom k (nak % 4096) else w
    let w := w.pump k
    if (w.port k).unacked.any (fun e => decide (8 ≤ e.2)) then w.portFault k (w.nbrNode k) else w

/-! Neighbours (R222). -/

/-- The content of a HEARTBEAT: the alive bit, then the ceiling (log entry 21). -/
def World.heartbeatContent (w : World) : Nat :=
  (if w.log.wd then 0 else 1) + 2 * (w.link.ownCeil % 16) + 32 * (w.link.ownCeil / 16 % 4)

/-- A neighbour is declared lost; the home of the global semaphores counts as lost too where it is that neighbour
(R222, R398 causes 7 and 8). -/
def World.neighbourLost (w : World) (k : Nat) : World :=
  let node := w.nbrNode k
  let w := { w with link := { w.link with nbrLost := sat32 w.link.nbrLost 1 } }
  let w := w.updPort k (fun p => { p with st := 0, faulted := true })
  let w := if w.nodeOf w.sched.semHome = some node then w.countFault 8 node srcPort k else w
  w.jobFault 7 node srcPort k

/-- Lowers the least ceiling received since the raise vote began (R234). -/
def World.heardCeiling (w : World) (p : Pt) : World :=
  { w with job := { w.job with least := ptVal (ptMin (ptOf w.job.least) p) } }

/-- HEARTBEAT. -/
def World.takeHeartbeat (w : World) (k blk : Nat) : World :=
  if (w.port k).st ≠ 2 then w
  else match w.readBlock 1 blk with
    | none => w
    | some r => if !bitAt r.content 0 then w.neighbourLost k else w.heardCeiling (fld r.content 1 4, fld r.content 5 2)

/-! Ceilings of the job (R232 to R234, R264). -/

/-- CEILING: a lowering, or a raise of logical engine 0 that no ceiling received since contradicts, waits for its delay with
the profile it carries. -/
def World.takeCeilingBlock (w : World) (k blk : Nat) : World :=
  if (w.port k).st ≠ 2 then w
  else match w.readBlock 2 blk with
    | none => w
    | some r =>
      if !r.fresh then w
      else
        let w := w.passOn k blk r
        if r.epoch ≠ w.link.epoch % 256 || !w.inJob then w
        else
          let p : Pt := ptOf r.content
          let now := ptOf ((w.job.pending.map (·.1)).getD w.link.jobPoint)
          let prof := (w.job.pending.map (·.2)).getD w.job.profile
          if bitAt r.content 9 then
            let prof := fld r.content 6 3
            let goal := if ptBelow (ptOf w.job.least) p then ptMin p now else p
            { w.heardCeiling p with job := { (w.heardCeiling p).job with pending := some (ptVal goal, prof) } }
          else { w.heardCeiling p with job := { (w.heardCeiling p).job with pending := some (ptVal (ptMin p now), prof) } }

/-- CEILING_APPLY: the point and the profile that waited take effect (R232, R264). -/
def World.applyCeiling (w : World) : World :=
  match w.job.pending with
  | none => w
  | some (p, prof) =>
    let w := { w with
      link := { w.link with jobPoint := p }
      job := { w.job with pending := none, profile := prof } }
    w.takeCeiling false

/-- The vote of the ceilings goes up; at logical engine 0 its result is flooded as CEILING, and applied there where no
ceiling received since contradicts it (R233, R234). -/
def World.settleCeilings (w : World) : World :=
  match w.tally 6 0 with
  | (w, some v) =>
    let p := v.own.getD 0
    let w := w.floodCeiling (ptOf p)
    let goal := if ptBelow (ptOf w.job.least) (ptOf p) then w.link.jobPoint else p
    ({ w with
      link := { w.link with jobPoint := goal }
      job := { w.job with pending := none, profile := w.ownProfile } } : World).takeCeiling false
  | (w, none) => if (w.vote? 6 0).any (·.sent) then w.dropVote 6 0 else w

/-- CEILING_VOTE: this engine's ceiling joins the vote of the millisecond (R233). -/
def World.voteCeiling (w : World) : World :=
  if !w.inJob || decide (w.link.logical = 0xFF) || decide (w.link.jobState = 3) then w
  else
    let w := { w with job := { w.job with least := 0x27 } }
    (w.updVote 6 0 (fun v => { v with own := some w.link.ownCeil, sent := false })).settleCeilings

/-! The restart of a job (R223 to R228). -/

/-- This engine's ports that face the port which a FAULT names of its origin: both ends of the link train again (R202; log entry 21). -/
def World.facing (w : World) (r : SbRx) : List Nat :=
  let p := r.content / 2 ^ 16
  (List.range 4).filter (fun k => decide (4 ≤ p) && w.wiredTo k == some (r.origin, p % 4))

/-- FAULT: flooded on; the first of this engine's epoch begins the restart, or stops the job's tasks for a mismatch
(R219, R223). -/
def World.takeFault (w : World) (k blk : Nat) : World :=
  if (w.port k).st ≠ 2 then w
  else match w.readBlock 3 blk with
    | none => w
    | some r =>
      if !r.fresh then w
      else
        let w := w.passOn k blk r
        let cause := r.content / 256 % 256
        if r.epoch ≠ w.link.epoch % 256 || !w.inJob then w
        else if cause = 9 then w.mismatchStop
        else w.beginRestart cause (r.content % 256) (w.facing r)

/-- The bytes of a scale slot in a checkpoint copy. -/
def Slot.bytes (s : Slot) : Bytes :=
  let ex := fun (e : Option Int) => leBytes 4 (ofSigned 32 (e.getD (-2147483648)))
  [byteOf (ofSigned 8 s.s), if s.pinned then 1#8 else 0#8, byteOf (s.d.getD 255), byteOf (s.h.getD 255),
    byteOf (ofSigned 8 s.lo), byteOf (ofSigned 8 s.hi), 0#8, 0#8] ++ leBytes 4 s.updates ++ leBytes 4 s.nonfin ++ ex s.pending ++ s.hist.flatMap ex

/-- A scale slot of a checkpoint copy: 84 bytes. -/
def slotOf (b : Bytes) : Slot :=
  let ex := fun (o : Nat) => let v := toSigned 32 (leAt b o 4); if v = -2147483648 then none else some v
  let opt := fun (o : Nat) => if leAt b o 1 = 255 then none else some (leAt b o 1)
  { s := toSigned 8 (leAt b 0 1), pinned := leAt b 1 1 == 1, d := opt 2, h := opt 3, lo := toSigned 8 (leAt b 4 1), hi := toSigned 8 (leAt b 5 1),
    updates := leAt b 8 4, nonfin := leAt b 12 4, pending := ex 16, hist := (List.range 16).map (fun i => ex (20 + 4 * i)) }

/-- What the copy for a spare carries (R225, R389; log entry 27): the length of the whole, the step counter, the slots, and
for each tenant its record, the address and the bytes of its checkpoint, and the spend committed since. -/
def World.copyBytes (v : Vault) (w : World) (c : Ckpt) : Bytes :=
  let slots := c.slots.flatMap (fun e => leBytes 4 e.1 ++ e.2.bytes)
  let tens := c.tenants.flatMap (fun e =>
    let t := v.tenant e.1
    t.record e.1 ++ leBytes 8 e.2.1 ++ leBytes 8 t.since ++ w.load e.2.1 (128 + t.genLen))
  let body := leBytes 4 c.stepCtr ++ leBytes 4 c.slots.length ++ leBytes 4 c.tenants.length ++ leBytes 4 0 ++ slots ++ tens
  leBytes 8 (8 + body.length) ++ body

/-- The logical engine that a spare takes its copy from (R225). -/
def copySource (l : Nat) : Nat := if l = 0 then 1 else l - 1

/-- Sends the copy of the last checkpoint to a spare, in messages of 32 KiB over the collective channel, sealed (R215, R225). -/
def World.sendCopy (v : Vault) (w : World) (dst : Nat) : World :=
  match w.job.ckpt with
  | none => w
  | some c => if !w.hasLinkSecret then w else (chunks 32768 (w.copyBytes v c)).foldl (fun w b => w.sendMsg mCkpt 2 dst 0 0 b true) w

/-- The spares of this restart that take their copy from this engine, by node (R225). -/
def World.copyTo (w : World) : List Nat :=
  (List.range w.link.jobSize).filterMap (fun l =>
    let s := 16 * (l / 8) + 8
    if (w.job.restart.any (fun r => bitAt r.remapped (l / 8))) && w.nodeOf l == some s && w.link.logical == copySource l then some s else none)

/-- Sends its copy to every such spare. -/
def World.sendCopies (v : Vault) (w : World) : World := w.copyTo.foldl (fun w n => w.sendCopy v n) w

/-- A logical ID passes to a node, or a node with none is left out of the routes; the routes and their diameter follow
(R209, R212, R224, R232). -/
def World.remapTo (v : Vault) (w : World) (l node : Nat) : World :=
  let old := if l = 0xFF then node else (w.nodeOf l).getD node
  let w := { w with
    link := { w.link with map := if l = 0xFF then w.link.map else w.link.map.set 0xFF l node }
    job := { w.job with
      down := if w.job.down.contains old then w.job.down else w.job.down ++ [old]
      restart := w.job.restart.map (fun (r : Restart) =>
        if l = 0xFF ∨ bitAt r.remapped (l / 8) then r else { r with remapped := r.remapped + 2 ^ (l / 8) }) } }
  let w := { w with job := { w.job with cut := w.cutLinks } }
  let w := { w with job := { w.job with diameter := w.routeCfg.diameter } }
  if l = 0xFF then w
  else
    let w := if w.node = node then { w with link := { w.link with logical := l } }.requestState 0 else w
    if w.link.logical = copySource l then w.sendCopy v node else w

/-- The content of a REMAP: the logical ID in [7:0], 0xFF for a node that none takes the place of; the node in [15:8]
(log entry 21). -/
def remapContent (l node : Nat) : Nat := l % 256 + 256 * (node % 256)

/-- REMAP. -/
def World.takeRemap (v : Vault) (w : World) (k blk : Nat) : World :=
  if (w.port k).st ≠ 2 then w
  else match w.readBlock 4 blk with
    | none => w
    | some r =>
      if !r.fresh then w
      else
        let w := w.passOn k blk r
        if r.epoch ≠ w.link.epoch % 256 || decide (w.link.jobState ≠ 3) then w
        else w.remapTo v (r.content % 256) (r.content / 256 % 256)

/-- The end of a restart (R224, R226): the job awaits the host, or has failed. -/
def World.endRestart (w : World) (failed : Bool) : World :=
  if w.link.jobState ≠ 3 then w
  else
    let bits := (w.job.restart.map (·.remapped)).getD 0
    let w := { w with job := { w.job with restart := none } }
    if failed then { w with link := { w.link with jobState := 5, status := 0x0512 } }
    else
      let w := { w with link := { w.link with jobState := 4, status := 0, coord := 0, restarts := sat32 w.link.restarts 1 } }
      (w.event 0x0012 srcMgmt 0 w.link.epoch bits).vector 66

/-- The coordinator floods RESUME, whose content says whether the restart failed (R224, R226; log entry 21). -/
def World.floodResume (w : World) (failed : Bool) : World := (w.flood 5 (if failed then 1 else 0)).endRestart failed

/-- RESUME. -/
def World.takeResume (w : World) (k blk : Nat) : World :=
  if (w.port k).st ≠ 2 then w
  else match w.readBlock 5 blk with
    | none => w
    | some r =>
      if !r.fresh then w
      else
        let w := w.passOn k blk r
        if r.epoch ≠ w.link.epoch % 256 then w else w.endRestart (bitAt r.content 0)

/-- The nodes lost in a restart: those that did not answer the census, and those named by ports that did not train (R224). -/
def World.lostNodes (w : World) (r : Restart) : List Nat :=
  w.routeCfg.nodes.filter (fun n => decide (n ≠ w.node) && (!r.answers.contains n || r.lost.contains n))

/-- The logical IDs whose engine is among some nodes. -/
def World.logicalsOf (w : World) (nodes : List Nat) : List Nat :=
  (List.range w.link.jobSize).filter (fun l => (w.nodeOf l).any (fun n => nodes.contains n))

/-- Whether a tray's spare is unused and answers. -/
def World.spareFree (w : World) (lost : List Nat) (tray : Nat) : Bool :=
  let s := 16 * tray + 8
  !lost.contains s && !w.job.down.contains s && !(List.range w.link.jobSize).any (fun l => w.nodeOf l == some s)

/-- Whether the restart fails (R226). -/
def World.restartFails (w : World) (lost : List Nat) : Bool :=
  let ls := w.logicalsOf lost
  (decide (w.live.cls ≠ 2) && !lost.isEmpty) || w.job.ckpt.isNone || decide (w.link.limit < w.job.times.length) ||
    (List.range (w.link.jobSize / 8)).any (fun t => decide ((if w.spareFree lost t then 1 else 0) < ls.countP (fun l => l / 8 == t)))

/-- No census has come: the engine with the next higher logical ID is the lowest that answers, and sends one (R224). -/
def World.nextCoordinator (w : World) (r : Restart) : World :=
  let w := { w with link := { w.link with coord := w.leadFrom (w.link.coord + 1) r.lost } }
  if w.link.logical = w.link.coord then w.sendCensus else w

/-- CENSUS_TIMEOUT: at the coordinator the spares take the places of the lost engines, or the restart fails (R224, R226); an engine
that has heard no census looks for another coordinator. -/
def World.censusEnds (v : Vault) (w : World) : World :=
  match w.job.restart with
  | none => w
  | some r =>
    if w.link.jobState = 3 ∧ !r.heard then w.nextCoordinator r
    else if !r.censusOpen || decide (w.link.logical ≠ w.link.coord) then w
    else
      let lost := w.lostNodes r
      let ls := w.logicalsOf lost
      let w := { w with job := { w.job with restart := some { r with censusOpen := false } } }
      if w.restartFails lost then w.floodResume true
      else
        let w := w.sendCopies v
        let idle := lost.filter (fun n => !(ls.any (fun l => w.nodeOf l == some n)))
        let w := idle.foldl (fun w n => (w.flood 4 (remapContent 0xFF n)).remapTo v 0xFF n) w
        ls.foldl (fun w l => (w.flood 4 (remapContent l (16 * (l / 8) + 8))).remapTo v l (16 * (l / 8) + 8)) w

/-- CENSUS_MSG: a request names its coordinator, unless one with a lower logical ID has asked already, and is answered; an answer is
recorded. A restart that began again sends its copies again (R224, R225). -/
def World.takeCensus (v : Vault) (w : World) (m : MsgHdr) (answer : Bool) : World :=
  if w.link.jobState ≠ 3 then w
  else if answer then
    { w with job := { w.job with restart := w.job.restart.map (fun (r : Restart) =>
      if r.censusOpen && !r.answers.contains m.src then { r with answers := r.answers ++ [m.src] } else r) } }
  else if !w.fwRuns then w
  else
    let known := w.job.restart.any (fun r => r.heard) && decide (w.link.coord < m.srcLog)
    let w := { w with
      link := { w.link with coord := if known then w.link.coord else m.srcLog }
      job := { w.job with restart := w.job.restart.map (fun (r : Restart) => { r with heard := true }) } }
    (w.message mCensus 3 m.src 0 0 [1#8]).sendCopies v

/-! Restoring the checkpoint (R225, R228, R389). -/

/-- A tenant as its checkpoint holds it, on the generation that is not live; in LENIENT mode it keeps what it has been charged
since (R31, R225, R228). -/
def Tenant.restored (t : Tenant) (ck : Bytes) (lenient : Bool) : Tenant :=
  { t with
    np := leAt ck 8 4
    steps := leAt ck 12 4
    budget := leAt ck 16 8
    spent := leAt ck 24 8 + (if lenient then t.since else 0)
    since := if lenient then t.since else 0
    codes := leAt ck 40 1
    live := t.shadow }

/-- Restores this engine's own copy of the last checkpoint. -/
def State.restoreOwn (st : State) (c : Ckpt) : State :=
  let lenient := st.w.train.mode == 1
  let st := c.tenants.foldl (fun (st : State) e =>
    let t := st.vault.tenant e.1
    let ck := st.w.load e.2.1 (128 + t.genLen)
    { st with
      vault := st.vault.put e.1 (t.restored ck lenient)
      w := st.w.store (t.genBase t.shadow) (ck.drop 128) }) st
  st.onW (fun w => { w with
    train := { w.train with stepCtr := c.stepCtr }
    num := { w.num with slots := c.slots } })

/-- One tenant of a checkpoint copy at an offset: its ID, its address, its spend since, its bytes, and the next offset. -/
def copyTenant (b : Bytes) (o : Nat) : Nat × Tenant × Nat × Nat × Bytes × Nat :=
  let t := tenantOfRecord (slice b o 128)
  (leAt b o 2, t, leAt b (o + 128) 8, leAt b (o + 136) 8, slice b (o + 144) (128 + t.genLen), o + 144 + 128 + t.genLen)

/-- Creates one tenant of a copy, armed, with its checkpoint in its scratch area (R389). -/
def State.adoptTenant (acc : State × Ckpt × Nat) (b : Bytes) : State × Ckpt × Nat :=
  let (st, c, o) := acc
  let (id, t, a, since, ck, o') := copyTenant b o
  let lenient := st.w.train.mode == 1
  let t := { ({ t with since := since } : Tenant).restored ck lenient with live := 0, st := 2 }
  let w := ((st.w.sealAreas id t).store a ck).store (t.genBase 0) (ck.drop 128)
  ({ st with vault := st.vault.put id t, w := w }, { c with tenants := c.tenants ++ [(id, a, leAt ck 32 8)] }, o')

/-- Restores the copy that the link carried (R225, R389). -/
def State.restoreCopy (st : State) (b : Bytes) : State :=
  let n := leAt b 12 4
  let slots := (List.range n).foldl (fun (s : Tab Slot) i => s.set {} (leAt b (24 + 88 * i) 4) (slotOf (slice b (28 + 88 * i) 84))) []
  let (st, c, _) := (List.range (leAt b 16 4)).foldl (fun acc _ => State.adoptTenant acc b)
    (st, ({ slots := slots, stepCtr := leAt b 8 4 } : Ckpt), 24 + 88 * n)
  st.onW (fun w => { w with
    train := { w.train with stepCtr := c.stepCtr }
    num := { w.num with slots := slots }
    job := { w.job with ckpt := some c }
    link := { w.link with ckStep := c.stepCtr, ckAddr := (c.tenants.getLast?).elim 0 (fun t => t.2.1) } })

/-- Whether the copy for this spare has come whole. -/
def Restart.whole (r : Restart) : Bool := decide (8 ≤ r.copy.length) && decide (leAt r.copy 0 8 ≤ r.copy.length)

/-- CHECKPOINT_COPY_MSG: when the copy is whole, a spare with no session opens one, which advances its counter (R389). -/
def State.takeCopy (st : State) (data : Bytes) : State :=
  match st.w.job.restart with
  | none => st
  | some r =>
    if r.whole then st
    else
      let r := { r with copy := r.copy ++ data }
      let st := st.onW (fun w => { w with job := { w.job with restart := some r } })
      if r.whole && !st.w.sec.session && decide (st.otp.session < sessionBits) then st.advance none else st

/-! Votes (R26, R200, R216 to R219, R224, R233). -/

/-- Combines the votes of readiness: the answer reaches the coordinator, which floods RESUME (R224). -/
def World.settleReady (w : World) : World :=
  match w.tally 5 w.link.epoch with
  | (w, some v) =>
    let status := v.own.getD 0
    if w.link.coord = 0 then w.floodResume (decide (status ≠ 0)) else w.sendVote w.link.coord 5 true status w.link.epoch
  | (w, none) => w

/-- CHECKPOINT_RESTORE_DONE: this engine has restored the last checkpoint, from its own copy or from the one the link carried,
and votes ready; a spare that has restored sends the copy on where another spare takes it from there (R224, R225). -/
def State.restoreDone (st : State) : State :=
  let w := st.w
  match w.job.restart with
  | none => st
  | some r =>
    if w.link.jobState ≠ 3 || r.restored || decide (w.link.logical = 0xFF) then st
    else
      let ready := fun (st : State) (status : Nat) => st.onW (fun w =>
        (({ w with job := { w.job with restart := some { r with restored := true, copy := [] } } } : World).updVote 5 w.link.epoch
          (fun v => { v with own := some status })).settleReady)
      match w.job.ckpt with
      | some c => ready (st.restoreOwn c) (if !w.copyTo.isEmpty && !w.hasLinkSecret then 0x0512 else 0)
      | none =>
        if !r.whole then st
        else if w.sec.session then
          ready ((st.restoreCopy r.copy).onRW (fun v w => w.sendCopies v)) (if !w.copyTo.isEmpty && !w.hasLinkSecret then 0x0512 else 0)
        else if st.otp.session < sessionBits then st
        else ready st 0x0512

/-- A vote that came up from a child. -/
def World.voteUp (w : World) (m : MsgHdr) (kind status value : Nat) : World :=
  let id := m.addr % 2 ^ 32
  match kind with
  | 2 => w.abandonUp value status
  | 3 =>
    let here := w.vote? 3 value
    let clash := here.any (fun v => v.own.isSome && decide (v.id ≠ id)) || w.job.colls.any (fun c => c.seq % 2 ^ 16 == value) ||
      (here.isNone && decide (2 ^ 15 ≤ (value + 2 ^ 16 - w.job.collSeq % 2 ^ 16) % 2 ^ 16))
    if clash then w.mismatch m.src else w.hearVote 3 value id m.srcLog status
  | 5 => if value = w.link.epoch then (w.hearVote 5 value 0 m.srcLog status).settleReady else w
  | 6 => (w.hearVote 6 0 0 m.srcLog status).settleCeilings
  | _ => w.hearVote kind value 0 m.srcLog status

/-- An answer that came down the tree, or the outcome of readiness for the coordinator. -/
def World.voteCame (w : World) (kind status value : Nat) : World :=
  match kind with
  | 2 => ((w.voteDown 2 status value).dropVote 1 value).applyAbandon value status
  | 5 => if w.link.coord = w.link.logical then w.floodResume (decide (status ≠ 0)) else w
  | 6 => w
  | _ =>
    let v := w.vote? kind value
    let w := (w.voteDown kind status value).dropVote kind value
    match v with
    | some v => w.actVote v status
    | none => w

/-! The meanings. -/

/-- PORT_TRAINING_STAGE_DONE (R202). -/
def execPortTrainingStageDone (k : Nat) (nbr : Nbr) (st : State) : Host.Outcome State Fault Refusal :=
  .next (st.onW (fun w => w.stageTrained k nbr))

/-- PORT_TRAINING_TIMEOUT (R202). -/
def execPortTrainingTimeout (k : Nat) (st : State) : Host.Outcome State Fault Refusal := .next (st.onW (fun w => w.trainTimeout k))

/-- CONTROL_FLIT (R204, R206). -/
def execControlFlit (k : Nat) (h : RxHdr) (credits : List Nat) (nak : Nat) (st : State) : Host.Outcome State Fault Refusal :=
  .next (st.onW (fun w => w.takeControl k h credits nak))

/-- CREDIT_RETURN_TIMER (R204). -/
def execCreditReturnTimer (k : Nat) (st : State) : Host.Outcome State Fault Refusal :=
  .next (st.onW (fun w => if (w.port k).st = 2 ∧ 0 < (w.port k).owed.sum then w.control k none else w))

/-- ACK_PROGRESS_TIMEOUT (R207). -/
def execAckProgressTimeout (k : Nat) (st : State) : Host.Outcome State Fault Refusal :=
  .next (st.onW (fun w => if (w.port k).st = 2 ∧ !(w.port k).unacked.isEmpty then w.portFault k (w.nbrNode k) else w))

/-- HEARTBEAT_SEND (R222). -/
def execHeartbeatSend (st : State) : Host.Outcome State Fault Refusal :=
  .next (st.onW (fun w => w.forwardBlock none (sbBlock 1 w.node 0 w.link.epoch w.heartbeatContent)))

/-- HEARTBEAT (R222). -/
def execHeartbeat (k blk : Nat) (st : State) : Host.Outcome State Fault Refusal := .next (st.onW (fun w => w.takeHeartbeat k blk))

/-- HEARTBEAT_TIMEOUT (R222). -/
def execHeartbeatTimeout (k : Nat) (st : State) : Host.Outcome State Fault Refusal :=
  .next (st.onW (fun w => if (w.port k).st = 2 then w.neighbourLost k else w))

/-- CEILING (R232, R234). -/
def execCeiling (k blk : Nat) (st : State) : Host.Outcome State Fault Refusal := .next (st.onW (fun w => w.takeCeilingBlock k blk))

/-- CEILING_APPLY (R232, R264). -/
def execCeilingApply (st : State) : Host.Outcome State Fault Refusal := .next (st.onW World.applyCeiling)

/-- CEILING_VOTE (R233). -/
def execCeilingVote (st : State) : Host.Outcome State Fault Refusal := .next (st.onW World.voteCeiling)

/-- FAULT (R223). -/
def execFaultFlood (k blk : Nat) (st : State) : Host.Outcome State Fault Refusal := .next (st.onW (fun w => w.takeFault k blk))

/-- REMAP (R224). -/
def execRemap (k blk : Nat) (st : State) : Host.Outcome State Fault Refusal := .next (st.onRW (fun v w => w.takeRemap v k blk))

/-- RESUME (R224). -/
def execResume (k blk : Nat) (st : State) : Host.Outcome State Fault Refusal := .next (st.onW (fun w => w.takeResume k blk))

/-- CENSUS_TIMEOUT (R224). -/
def execCensusTimeout (st : State) : Host.Outcome State Fault Refusal := .next (st.onRW (fun v w => w.censusEnds v))

/-- CENSUS_MSG (R224). -/
def execCensusMsg (k : Nat) (h : RxHdr) (m : MsgHdr) (answer : Bool) (st : State) : Host.Outcome State Fault Refusal :=
  .next (st.onRW (fun v w => w.taking k h m mCensus [if answer then 1#8 else 0#8] (fun w => w.takeCensus v m answer)))

/-- CHECKPOINT_COPY_MSG (R225). -/
def execCheckpointCopyMsg (k : Nat) (h : RxHdr) (m : MsgHdr) (data : Bytes) (st : State) : Host.Outcome State Fault Refusal :=
  .next (match st.w.receive k h m (flitsIn m) (wireOf m mCkpt data) with
    | (w, true) => ({ st with w := w } : State).takeCopy data
    | (w, false) => { st with w := w })

/-- CHECKPOINT_RESTORE_DONE (R225). -/
def execCheckpointRestoreDone (st : State) : Host.Outcome State Fault Refusal := .next st.restoreDone

/-- VOTE_MSG (R26, R200, R217). -/
def execVoteMsg (k : Nat) (h : RxHdr) (m : MsgHdr) (kind : Nat) (down : Bool) (status value : Nat) (st : State) :
    Host.Outcome State Fault Refusal :=
  .next (st.onJob (fun w => w.taking k h m mVote (voteBytes kind down status value) (fun w =>
    if down then w.voteCame kind status value else w.voteUp m kind status value)))

end Sys2Proof.Machine
end

