-- ==== Sys2Proof/Machine/Slices.lean ====
section
/-! DEFINITION. The commands of cache slices, channels and memory loops (R132, R148 to R156, R163, R164, R166 to R173;
07_memory_and_last_level_cache.md). -/

namespace Sys2Proof.Machine

/-- A slice's trackers. -/
def Mem.slice (m : Mem) (n : Nat) : Slice := m.slices.get {} n

/-- Changes a slice's trackers. -/
def Mem.updSlice (m : Mem) (n : Nat) (f : Slice → Slice) : Mem := { m with slices := m.slices.upd {} n f }

/-- Changes a channel. -/
def World.updChan (w : World) (ch : Nat) (f : Chan → Chan) : World :=
  { w with mem := { w.mem with chans := w.mem.chans.upd {} ch f } }

/-- Changes memory and its slices. -/
def World.onMem (w : World) (f : Mem → Mem) : World := { w with mem := f w.mem }

/-! Streams (R154, R155). -/

/-- The train length in force: none where no stream is bypassed. -/
def Mem.train (m : Mem) : Option Nat :=
  if m.strMode = 1 then none else if m.strMode = 2 then some m.strLo else some m.strN

/-- The stream of a core that a line belongs to or continues: its place in the list. A slice serves one line of every 16, so
the successive lines that it serves lie 16 apart (R147, R154). -/
def Slice.streamOf (s : Slice) (core la : Nat) : Option Nat :=
  s.streams.findIdx? (fun x => x.core == core &&
    (x.last == la || ((x.up || x.run ≤ 1) && la / 16 == x.last / 16 + 1) || ((!x.up || x.run ≤ 1) && la / 16 + 1 == x.last / 16)))

/-- Whether the filter has a line. -/
def Slice.passed (s : Slice) (la : Nat) : Bool := s.filter.any (fun e => e.1 == la)

/-- A request that hits the filter, from whichever core, ends the bypass of the stream that the line was delivered to, and counts as
a re-reference (R154; log entry 86). -/
def Slice.rereference (s : Slice) (la : Nat) : Slice :=
  match s.filter.find? (fun e => e.1 == la) with
  | none => s
  | some e => { s with
    rerefs := s.rerefs + 1
    streams := s.streams.map (fun (x : Strm) => if x.num = e.2 then { x with bypassed := false, run := 0 } else x) }

/-- A stream's next line: its run grows unless the line was found, and at the train length the stream becomes bypassed; a line of
the filter ends its bypass (R154). -/
def Strm.next (x : Strm) (train : Option Nat) (la : Nat) (found again : Bool) : Strm :=
  let run := if found then 0 else x.run + 1
  { x with
    last := la
    up := decide (x.last < la)
    run := run
    bypassed := !again && train.isSome && (x.bypassed || train.any (fun n => decide (n ≤ run))) }

/-- Notes a request in its stream: `found` where its sectors are in the slice. The second part is the bypassed stream, by number,
that the request belongs to. -/
def Slice.watch (s : Slice) (train : Option Nat) (core la : Nat) (found : Bool) : Slice × Option Nat :=
  let again := s.passed la
  let s := s.rereference la
  match s.streamOf core la with
  | none =>
    let x : Strm := { core := core, num := s.nextNum, last := la, run := if found || again then 0 else 1 }
    ({ s with streams := (s.streams ++ [x]).drop (s.streams.length + 1 - 16), nextNum := s.nextNum + 1 }, none)
  | some i =>
    let x := s.streams.getD i { core := core, last := la }
    let y := if x.last = la then { x with bypassed := x.bypassed && !again } else x.next train la (found || again) again
    ({ s with streams := setAt s.streams i y }, if y.bypassed && train.isSome then some y.num else none)

/-- A line has been delivered to a stream without allocation: it enters the filter (R154). -/
def Mem.passedBy (m : Mem) (slice la num : Nat) : Mem :=
  { m.updSlice slice (fun s => { s with
      filter := ((la, num) :: s.filter.filter (fun e => e.1 != la)).take 64
      delivered := s.delivered + 1 }) with
    notAlloc := add64 m.notAlloc 1 }

/-! Requests (R132, R148, R152, R153). -/

/-- Whether a stage has begun a REEL and has not completed it. -/
def Stage.reeling (g : Stage) : Bool :=
  (Desc.ofBytes g.desc).opc == 0x54 && (match g.phase with | .granted | .part | .executed _ => true | _ => false)

/-- The task on whose behalf a requester asks: of a compute core, 0 to 15, the task on it; of an optimiser unit, 16 to 31, the step
task whose REEL runs (R132). Requests of the host window and of other engines come under higher numbers and are of no task (R149). -/
def World.onCore (w : World) (core : Nat) : Option Task :=
  if core < 16 then w.sched.tasks.find? (fun t => t.on core)
  else if core < 32 then w.sched.tasks.find? (fun t => t.kind == 1 && t.stgs.any Stage.reeling)
  else none

/-- Whether the regulator of the request's partition lets `n` sectors go (R132). -/
def World.mayIssue (w : World) (core n : Nat) : Bool :=
  match w.onCore core with
  | none => true
  | some t => let p := w.part t.part; p.inForce == 0 || decide (32 * n ≤ p.tokens)

/-- Charges `n` sectors to the partition of a requester's task (R132). -/
def World.charge (w : World) (core n : Nat) : World :=
  match w.onCore core with
  | none => w
  | some t => w.mapParts (fun i p =>
      if i = t.part then { p with tokens := if p.inForce = 0 then p.tokens else p.tokens - 32 * n, bytes := add64 p.bytes (32 * n) } else p)

/-- Counts a request in the compression samples of its slice (R172; log entry 28). -/
def Slice.sampled (s : Slice) (key : Nat) (missed : Bool) : Slice :=
  { s with
    sample := s.sample + 1
    missOn := if key % 8 = 0 ∧ missed then s.missOn + 1 else s.missOn
    missOff := if key % 8 = 1 ∧ missed then s.missOff + 1 else s.missOff }

/-- Whether the miss tracker has an entry for a request: 64 entries, of which 8 take serving requests only, so that requests of
other tasks open at most what the serving ones have left of 56 (R152). -/
def Slice.room (s : Slice) (serving : Bool) : Bool :=
  let other := s.misses.countP (fun x => !x.opened)
  let srv := s.misses.countP (fun x => x.opened)
  decide (s.misses.length < 64) && (serving || decide (other + (srv - 8) < 56))

/-- Whether a channel issues: not while a calibration or retraining runs (R169). -/
def Mem.issues (m : Mem) (ch : Nat) : Bool := !(m.chans.get {} ch).running

/-- An entry takes one more request: a sector not yet asked for joins the fetch, or is fetched by a second one under the same entry
(R152, R153). A write that merges needs its line (R154). -/
def Miss.join (x : Miss) (h : Held) (need : Nat) (issues : Bool) : Miss :=
  { x with
    want := Nat.lor x.want need
    issued := if issues then Nat.lor x.issued need else x.issued
    merge := if h.write then Nat.lor x.merge need else x.merge
    who := x.who ++ [h.core]
    serving := x.serving || h.serving
    bypass := if h.write then none else x.bypass }

/-- A request for sectors of a line that are not valid: it merges, takes an entry, or waits at the slice input (R152, R153). The
buffer of a slice for bypassed streams holds four lines (R154). -/
def Mem.miss (m : Mem) (slice : Nat) (h : Held) (need : Nat) : Mem :=
  let la := h.addr / 128
  let s := m.slice slice
  let wait := { m.updSlice slice (fun s => { s with waiting := s.waiting ++ [h] }) with fullWaits := sat32 m.fullWaits 1 }
  match s.misses.find? (fun x => x.line == la) with
  | some x =>
    if 16 ≤ x.who.length then wait
    else { m.updSlice slice (fun s => { s with misses := s.misses.map (fun (y : Miss) =>
        if y.line == la then y.join h need (m.issues slice) else y) }) with
      merged := add64 m.merged 1 }
  | none =>
    if !s.room h.serving || (h.bypass.isSome && decide (4 ≤ s.misses.countP (fun x => x.bypass.isSome))) then wait
    else
      let x := ({ line := la, opened := h.serving, bypass := h.bypass } : Miss).join h need (m.issues slice)
      m.updSlice slice (fun s => { s with misses := s.misses ++ [x] })

/-- The valid sectors of a local line in its slice. -/
def Mem.validIn (m : Mem) (la : Nat) : Nat := ((m.sets.get {} (setKey (128 * la))).line? la false).elim 0 (·.valid)

/-- The sectors of a line that a request needs and that are not valid in its slice (R148). -/
def Mem.lacking (m : Mem) (la mask : Nat) : Nat :=
  (List.range 4).foldl (fun n i => if bitAt mask i && !bitAt (m.validIn la) i then n + 2 ^ i else n) 0

/-- Points the tree of a line's set away from its way (R148). -/
def Mem.used (m : Mem) (la : Nat) (remote : Bool) : Mem :=
  let key := setKey (128 * la)
  let c := m.sets.get {} key
  match c.find la remote with
  | some i => { m with sets := m.sets.set {} key { c with plru := plruTouch c.plru i } }
  | none => m

/-- A request at its slice: what it needs is there, or is missed (R148, R152). -/
def Mem.takeIn (m : Mem) (h : Held) : Mem :=
  let la := h.addr / 128
  let need := m.lacking la h.mask
  let m := if h.write then m.touch la 0 (Nat.land h.mask (m.validIn la)) else m
  if need = 0 then m.used la false else m.miss (sliceOf h.addr) h need

/-- A read of a compute core passes through its L1, which allocates the line (R158). -/
def Mem.throughL1 (m : Mem) (core la : Nat) (remote : Bool) : Mem := if core < 16 then m.allocL1 core la remote else m

/-- A read request at its slice (R148, R152, R154). -/
def Mem.readAtSlice (m : Mem) (h : Held) : Mem :=
  let la := h.addr / 128
  let slice := sliceOf h.addr
  let need := m.lacking la h.mask
  let (s, by_) := (m.slice slice).watch m.train h.core la (decide (need = 0))
  let m := m.updSlice slice (fun _ => s.sampled (setKey h.addr) (decide (need ≠ 0)))
  (m.takeIn { h with bypass := by_ }).throughL1 h.core la false

/-- The engine whose memory a 48-bit global address names: none where it is this one (R108, R161). -/
def World.engineOf (w : World) (addr : Nat) : Option Nat :=
  let l := addr / 2 ^ 40
  if l = 0xFF ∨ l = w.link.logical then none else some l

/-- The 64-B halves of a line that a mask of sectors touches are asked for at their home, unless they are held or on their way
(R161). Nothing that was delivered to a waiting operation serves. -/
def World.fetchSectors (w : World) (l la mask : Nat) : World :=
  [0, 1].foldl (fun w h => if Nat.land mask (3 * 4 ^ h) = 0 then w
    else w.fetchFar (w.mem.farSeq + 1) l ((128 * la + 64 * h) % 2 ^ 40) 64) w

/-- A read of another engine's memory at this engine's slice: a line held in this epoch, or a fill from its home (R161). -/
def World.readFar (w : World) (core l addr mask : Nat) : World :=
  let la := addr / 128
  let there := (maskBits 4 mask).all (fun i => w.mem.farValid (128 * la + 32 * i) 32)
  let w := w.onMem (fun m => m.throughL1 core la true)
  if there then w.onMem (fun m => m.used la true) else w.fetchSectors l la mask

/-- SLICE_READ: a request that its regulator lets go reaches its slice (R132, R148). -/
def World.sliceRead (w : World) (core addr mask : Nat) (serving : Bool) : World :=
  let mask := mask % 16
  let n := popCount 4 mask
  if !w.clocked || mask = 0 || !inHost (addr % 2 ^ 40 / 128 * 128) 128 || !w.mayIssue core n then w
  else match (if addr < 2 ^ 40 then none else w.engineOf addr) with
    | some l => (w.charge core n).readFar core l addr mask
    | none => (w.charge core n).onMem (fun m => m.readAtSlice { core := core, addr := addr % 2 ^ 40, mask := mask, serving := serving })

/-- The sectors of its line that a write covers in part. -/
def partMask (addr n : Nat) : Nat :=
  (List.range 4).foldl (fun m i =>
    let sec := addr / 128 * 4 + i
    if (sectorsOf addr n).contains sec && !(wholeSectors addr n).contains sec then m + 2 ^ i else m) 0

/-- A write at its slice: its bytes are the coherent value at once (R149); a sector written whole becomes valid and dirty, and one
written in part is fetched first where it is not valid (R148). -/
def Mem.writeAtSlice (m : Mem) (h : Held) (data : Bytes) : Mem :=
  let la := h.addr / 128
  let part := m.lacking la (partMask h.addr data.length)
  let mask := touchMask la h.addr data.length - part
  let m := m.storeValue h.addr data
  let m := if mask = 0 then m else m.touch la mask mask
  if part = 0 then m else m.miss (sliceOf h.addr) { h with mask := part, write := true } part

/-- SLICE_WRITE: the write is applied at its slice, or goes round it for whole sectors of a bypassed stream (R148, R154). -/
def World.sliceWrite (w : World) (core addr : Nat) (data : Bytes) (serving : Bool) : World :=
  let la := addr / 128
  let n := (sectorsOf addr data.length).length
  let owner := match w.onCore core with | some t => t.tenant | none => none
  if !w.clocked || data.isEmpty || decide (la ≠ (addr + data.length - 1) / 128) || !inHost addr data.length || !w.mayIssue core n ||
      (core < 32 && (w.onCore core).isNone) || !w.tenantOk owner addr data.length then w
  else
    let slice := sliceOf addr
    let held := (w.mem.sets.get {} (setKey (128 * la))).line? la false
    let (s, by_) := (w.mem.slice slice).watch w.mem.train core la held.isSome
    let w := (w.charge core n).onMem (fun m => m.updSlice slice (fun _ => s.sampled (setKey addr) held.isNone))
    if by_.isSome && held.isNone && decide ((wholeSectors addr data.length).length = n) then w.onMem (fun m => m.storeAround addr data)
    else w.onMem (fun m => m.writeAtSlice { core := core, addr := addr, mask := 0, serving := serving } data)

/-! Checks of memory, and fills (R163). -/

/-- Counts what a check of a sector of memory finds: 1 corrected, 2 uncorrectable, which is logged with its source and how it was
found (R163, R402). -/
def World.countEcc (w : World) (sec ecc src n how : Nat) : World :=
  match ecc with
  | 1 => { w with mem := { w.mem with corr := sat32 w.mem.corr 1 } }
  | 2 => ({ w with mem := { w.mem with ue := sat32 w.mem.ue 1, ueAddr := 32 * sec } } : World).event 0x0011 src n (32 * sec) how
  | _ => w

/-- The outcome of a check of a sector of memory: 0 good, 1 corrected, 2 uncorrectable, 3 the poison word; a sector whose place
holds the poison word already is found so (R163). -/
def World.checkSector (w : World) (sec ecc src n how : Nat) : World :=
  if w.mem.dramPoison.contains sec then w
  else if ecc < 2 then w.countEcc sec ecc src n how
  else ((w.onMem (fun m => m.poisonSector sec false)).countEcc sec ecc src n how)

/-- The requests at a slice input try again, in their order, after an entry has ended (R152). -/
def Mem.retry (m : Mem) (slice : Nat) : Mem :=
  let hs := (m.slice slice).waiting
  let n := m.fullWaits
  { hs.foldl Mem.takeIn (m.updSlice slice (fun s => { s with waiting := [] })) with fullWaits := n }

/-- The fill of an entry has ended: a bypassed line enters the filter, a marked one is dropped, and the requests at the slice input
try again (R152, R154, R156). -/
def Mem.endFill (m : Mem) (slice : Nat) (x : Miss) : Mem :=
  let m := m.updSlice slice (fun s => { s with misses := s.misses.filter (fun y => y.line != x.line) })
  let m := match x.bypass with | some num => m.passedBy slice x.line num | none => m
  let m := match x.drop with | some cores => m.dropNow cores false x.line | none => m
  m.retry slice

/-- An entry's sector has come. -/
def Miss.came (x : Miss) (sector : Nat) : Miss :=
  { x with want := x.want - 2 ^ sector, issued := x.issued - 2 ^ sector, merge := if bitAt x.merge sector then x.merge - 2 ^ sector else x.merge }

/-- SECTOR_FILL: a sector whose fetch was issued arrives, with the outcome of its check. Every waiting requester has it, and the
line is allocated unless its stream is bypassed (R152, R154). A sector that was written whole meanwhile stands: only the check's
counts follow (log entry 86). -/
def World.sectorFill (w : World) (slice line sector ecc : Nat) : World :=
  match (w.mem.slice slice).misses.find? (fun x => x.line == line && bitAt x.issued sector && decide (sector < 4)) with
  | none => w
  | some x =>
    let sec := 4 * line + sector
    let w := if !w.clocked then w
      else if bitAt (w.mem.validIn line) sector then w.countEcc sec ecc srcSlice slice 0
      else w.checkSector sec ecc srcSlice slice 0
    let w := if x.bypass.isSome then w else w.onMem (fun m => m.touch line (2 ^ sector) (if bitAt x.merge sector then 2 ^ sector else 0))
    if (x.came sector).want = 0 then w.onMem (fun m => m.endFill slice x)
    else w.onMem (fun m => m.updSlice slice (fun s => { s with misses := s.misses.map (fun (y : Miss) => if y.line == line then y.came sector else y) }))

/-! Memory loops (R155, R171 to R173). -/

/-- A train length within the band that stands (R155, R171). -/
def Mem.inBand (m : Mem) (n : Nat) : Nat := min m.strHi (max m.strLo n)

/-- STREAM_BYPASS_WINDOW: the adaptive rule after 1,024 lines delivered without allocation (R155, Table 7.8). -/
def Mem.bypassWindow (m : Mem) (slice : Nat) : Mem :=
  let s := m.slice slice
  if s.delivered < 1024 then m
  else
    let want := if 16 ≤ s.rerefs then 2 * m.strN else if s.rerefs = 0 then m.strN / 2 else m.strN
    let n := m.inBand want
    let prevented := decide (want ≠ m.strN) && (m.strMode != 0 || decide (want ≠ n))
    let m := m.updSlice slice (fun s => { s with delivered := 0, rerefs := 0, n := if m.strMode = 0 then n else s.n })
    let m := if prevented then { m with strConf := sat32 m.strConf 1 } else m
    if m.strMode = 0 then { m with strN := m.inBand ((List.range 16).foldl (fun b i => max b (m.slice i).n) 0) } else m

/-- COMPRESSION_SAMPLE_END: the decision after 65,536 requests (R172, Table 7.8). -/
def Mem.sampleEnd (m : Mem) (slice : Nat) : Mem :=
  let s := m.slice slice
  if s.sample < 65536 then m
  else
    let on := decide (16 * s.missOn ≤ 15 * s.missOff) && decide (0 < s.missOff)
    let m := m.updSlice slice (fun s => { s with sample := 0, missOn := 0, missOff := 0 })
    if m.cmpMode = 0 then
      { m with cmpOn := if on = bitAt m.cmpOn slice then m.cmpOn else if on then m.cmpOn + 2 ^ slice else m.cmpOn - 2 ^ slice }
    else if on != (m.cmpMode == 2) then { m with cmpConf := sat32 m.cmpConf 1 } else m

/-- MEM_BAND_CONFLICT: one event for each counter that has changed since the comparison before (R173). -/
def World.memConflicts (w : World) : World :=
  let now := [w.mem.strConf, w.mem.cmpConf]
  let w := (List.range 2).foldl (fun w i =>
    if now.getD i 0 = w.mem.seen.getD i 0 then w else w.event 0x0021 srcMgmt 0 i (now.getD i 0)) w
  { w with mem := { w.mem with seen := now } }

/-- NUM_BAND_CONFLICT, in the same way for the numeric loops (R97). -/
def World.numConflicts (w : World) : World :=
  let now := [w.num.confScale, w.num.confWiden, w.num.confReplay]
  let w := (List.range 3).foldl (fun w i =>
    if now.getD i 0 = w.num.seen.getD i 0 then w else w.event 0x0020 srcMgmt 0 i (now.getD i 0)) w
  { w with num := { w.num with seen := now } }

/-! Scrubbing, refresh and calibration (R164, R166 to R169). -/

/-- Whether no request waits at a slice or for its channel, and the channel issues (R167 to R169). -/
def Mem.idle (m : Mem) (ch : Nat) : Bool := (m.slice ch).misses.isEmpty && (m.slice ch).waiting.isEmpty && m.issues ch

/-- PATROL_SCRUB_READ, into an empty queue: the outcome is as for a fill; an uncorrectable sector is poisoned and logged once (R167, R402). The last
read of a pass counts it, and counts it as overdue where it took more than twice the interval. -/
def World.patrolRead (w : World) (ch addr ecc : Nat) (last overdue : Bool) : World :=
  let sec := addr / 32
  if !w.clocked || decide (sliceOf addr ≠ ch) || !decide (addr < hostRegion + 2 ^ 28) || !w.mem.idle ch then w
  else
    let w := w.checkSector sec ecc srcChannel ch 1
    let w := w.updChan ch (fun c => { c with patrol := if last then 0 else 32 * sec + 32 })
    if last then { w with mem := { w.mem with
      patrolDone := sat32 w.mem.patrolDone 1
      patrolLate := if overdue then sat32 w.mem.patrolLate 1 else w.mem.patrolLate } } else w

/-- Fetches again what a slice held of a clean line, which it has invalidated: without a requester (R164). -/
def World.refetch (w : World) (slice : Nat) (l : Line) (mask : Nat) : World :=
  if l.remote then (if l.epoch = w.mem.remEpoch then w.fetchSectors (l.addr / 2 ^ 33) l.addr mask else w)
  else w.onMem (fun m => m.updSlice slice (fun s =>
    let ask := fun (x : Miss) => { x with want := Nat.lor x.want mask, issued := if m.issues slice then Nat.lor x.issued mask else x.issued }
    if s.misses.any (fun x => x.line == l.addr)
    then { s with misses := s.misses.map (fun (x : Miss) => if x.line == l.addr then { ask x with bypass := none } else x) }
    else { s with misses := s.misses ++ [ask { line := l.addr }] }))

/-- Takes a sector of a held local line back to invalid. -/
def Mem.invalidate (m : Mem) (la sector : Nat) : Mem :=
  let key := setKey (128 * la)
  let c := m.sets.get {} key
  match c.find la false with
  | some i => m.putSet key (c.setWay i ((c.way i).map (fun (l : Line) =>
      if l.addr == la && !l.remote && bitAt l.valid sector then { l with valid := l.valid - 2 ^ sector, enc := 0 } else l)))
  | none => m

/-- An uncorrectable error in a slice's arrays: a dirty sector becomes poisoned; a clean line is invalidated and fetched again, and
of a line that is dirty elsewhere its one sector is (R164; log entry 86). -/
def World.arrayError (w : World) (slice : Nat) (l : Line) (sector : Nat) : World :=
  if !l.remote && bitAt l.dirty sector then
    let sec := 4 * l.addr + sector
    (w.onMem (fun m => m.poisonSector sec true)).countEcc sec 2 srcSlice slice 0
  else
    let w := { w with mem := { w.mem with sliceUe := sat32 w.mem.sliceUe 1 } }
    if !bitAt l.valid sector then w
    else if l.dirty = 0 then (w.onMem (fun m => ((if l.remote then m.evict l else m) : Mem).remove l.addr l.remote)).refetch slice l l.valid
    else (w.onMem (fun m => m.invalidate l.addr sector)).refetch slice l (2 ^ sector)

/-- SLICE_SCRUB: one line is checked, unless a request needs the slice and the pass is not forced, and an error in one of its sectors
is corrected, or ends as R164 states; `sector` counts on into a way's second line. The last way of the last set ends a forced pass
(R168). -/
def World.scrubLine (w : World) (slice set way sector ecc : Nat) : World :=
  if !w.clocked || decide (16 ≤ slice) || decide (256 ≤ set) || (!(w.mem.slice slice).forced && !w.mem.idle slice) then w
  else
    let w' := if set = 255 ∧ way = 15 then w.onMem (fun m => m.updSlice slice (fun s => { s with forced := false })) else w
    match ((w.mem.sets.get {} (256 * slice + set)).way way)[sector / 4]?, ecc with
    | none, _ => w'
    | _, 0 => w'
    | _, 1 => { w' with mem := { w'.mem with sliceCorr := sat32 w'.mem.sliceCorr 1 } }
    | some l, _ => w'.arrayError slice l (sector % 4)

/-! The meanings. -/

/-- SLICE_READ (R148). -/
def execSliceRead (core addr mask : Nat) (serving : Bool) (st : State) : Host.Outcome State Fault Refusal :=
  .next (st.onW (fun w => w.sliceRead core addr mask serving))

/-- SLICE_WRITE (R148). -/
def execSliceWrite (core addr : Nat) (data : Bytes) (serving : Bool) (st : State) : Host.Outcome State Fault Refusal :=
  .next (st.onW (fun w => w.sliceWrite core addr data serving))

/-- SECTOR_FILL (R152, R163). -/
def execSectorFill (slice line sector ecc : Nat) (st : State) : Host.Outcome State Fault Refusal :=
  .next (st.onW (fun w => w.sectorFill slice line sector ecc))

/-- STREAM_BYPASS_WINDOW (R155). -/
def execStreamBypassWindow (slice : Nat) (st : State) : Host.Outcome State Fault Refusal :=
  .next (st.onW (fun w => w.onMem (fun m => m.bypassWindow slice)))

/-- COMPRESSION_SAMPLE_END (R172). -/
def execCompressionSampleEnd (slice : Nat) (st : State) : Host.Outcome State Fault Refusal :=
  .next (st.onW (fun w => w.onMem (fun m => m.sampleEnd slice)))

/-- PATROL_SCRUB_READ (R167). -/
def execPatrolScrubRead (ch addr ecc : Nat) (last overdue : Bool) (st : State) : Host.Outcome State Fault Refusal :=
  .next (st.onW (fun w => w.patrolRead ch addr ecc last overdue))

/-- SLICE_SCRUB (R168). -/
def execSliceScrub (slice set way sector ecc : Nat) (st : State) : Host.Outcome State Fault Refusal :=
  .next (st.onW (fun w => w.scrubLine slice set way sector ecc))

/-- FORCED_SCRUB_SPELL (R168). -/
def execForcedScrubSpell (slice : Nat) (st : State) : Host.Outcome State Fault Refusal :=
  .next (st.onW (fun w =>
    if !w.clocked || decide (16 ≤ slice) || (w.mem.slice slice).forced then w
    else { w with mem := { w.mem.updSlice slice (fun s => { s with forced := true }) with forcedScrub := sat32 w.mem.forcedScrub 1 } }))

/-- REFRESH (R166): postponed at most 8 intervals. -/
def execRefresh (ch : Nat) (postpone : Bool) (st : State) : Host.Outcome State Fault Refusal :=
  .next (st.onW (fun w => if w.clocked then w.updChan ch (fun c => { c with postponed := if postpone && decide (c.postponed < 8) then c.postponed + 1 else 0 }) else w))

/-- Whether a calibration is due on a channel: ZQ calibration, or retraining. -/
def Chan.isDue (c : Chan) (retrain : Bool) : Bool := if retrain then c.dueTrain else c.due

/-- A calibration or retraining falls due on a channel (R169). -/
def Chan.falls (c : Chan) (retrain : Bool) : Chan := if retrain then { c with dueTrain := true } else { c with due := true }

/-- A due calibration or retraining begins: the channel stops issuing, and a retraining notes Tj (R169). -/
def Chan.begins (c : Chan) (retrain forced : Bool) (tj : Int) : Chan :=
  if retrain then { c with dueTrain := false, running := true, forced := forced, trained := some tj }
  else { c with due := false, running := true, forced := forced }

/-- CALIBRATION_DUE (R169). -/
def execCalibrationDue (c : Calib) (st : State) : Host.Outcome State Fault Refusal :=
  .next (st.onW (fun w => if w.clocked then w.updChan c.ch (fun x => x.falls c.retrain) else w))

/-- CALIBRATION_RUN (R169), where the channel's queue is empty: the deferral so far enters the longest one. -/
def execCalibrationRun (c : Calib) (deferUs : Nat) (st : State) : Host.Outcome State Fault Refusal :=
  .next (st.onW (fun w =>
    if w.clocked && (w.mem.chans.get {} c.ch).isDue c.retrain && w.mem.idle c.ch then
      let w := w.updChan c.ch (fun x => x.begins c.retrain false w.meter.hot)
      { w with mem := { w.mem with longDefer := max w.mem.longDefer (min deferUs 32000) } }
    else w))

/-- FORCED_CALIBRATION (R169, R175): the channel issues nothing new, whatever waits. -/
def execForcedCalibration (c : Calib) (st : State) : Host.Outcome State Fault Refusal :=
  .next (st.onW (fun w =>
    if w.clocked && (w.mem.chans.get {} c.ch).isDue c.retrain && w.mem.issues c.ch then
      let w := w.updChan c.ch (fun x => x.begins c.retrain true w.meter.hot)
      ({ w with mem := { w.mem with forcedCal := sat32 w.mem.forcedCal 1, longDefer := max w.mem.longDefer 32000 } } : World).noteReasons
    else w))

/-- What could not be issued while a channel was calibrated is issued (R152, R169). -/
def Mem.issueAll (m : Mem) (ch : Nat) : Mem :=
  m.updSlice ch (fun s => { s with misses := s.misses.map (fun (x : Miss) => { x with issued := x.want }) })

/-- CALIBRATION_END (R169, R279): the stall of a forced one accrues to throttle reason CALIBRATION, channel by channel. -/
def execCalibrationEnd (ch stallUs : Nat) (st : State) : Host.Outcome State Fault Refusal :=
  .next (st.onW (fun w =>
    let c := w.mem.chans.get {} ch
    if w.clocked && c.running then
      let w := (w.updChan ch (fun c => { c with running := false, forced := false })).onMem (fun m => m.issueAll ch)
      let w := if c.forced then { w with meter := { w.meter with accrued := modAt w.meter.accrued 9 (· + stallUs) } } else w
      w.noteReasons
    else w))

/-- MEM_BAND_CONFLICT (R173). -/
def execMemBandConflict (st : State) : Host.Outcome State Fault Refusal := .next (st.onW (fun w => if w.clocked then w.memConflicts else w))

/-- NUM_BAND_CONFLICT (R97). -/
def execNumBandConflict (st : State) : Host.Outcome State Fault Refusal := .next (st.onW (fun w => if w.clocked then w.numConflicts else w))

/-- TELEMETRY_SAMPLE_DROPPED (R170). -/
def execTelemetrySampleDropped (st : State) : Host.Outcome State Fault Refusal :=
  .next (st.onW (fun w => if w.clocked then { w with mem := { w.mem with telDrops := sat32 w.mem.telDrops 1 } } else w))

end Sys2Proof.Machine
end

