-- ==== Sys2Proof/Machine/Faults.lean ====
section
/-! DEFINITION. The watchdog, core errors, the event log's ring and the test access port
(R361, R362, R398 to R404; 14_package_balls_electrical.md, 16_faults_counters_long_runs.md). -/

namespace Sys2Proof.Machine

/-! Faults (R400, R401). -/

/-- Every task that is not DONE completes with a status. -/
def World.endAll (w : World) (status : Nat) : World :=
  w.sched.tasks.foldl (fun w t =>
    match w.task? t.id with
    | none => w
    | some t => (w.dropCkpt t.id).finish t status) w

/-- WATCHDOG: the management core restarts into its boot ROM, every task ends with DEVICE_FAULT, and FAULT_N is low until
firmware has verified again (R401). A load in progress ends with the management core. -/
def World.watchdogFires (w : World) : World :=
  if !w.clocked then w
  else
    let w := (w.countFault 10 w.node srcMgmt 0).endAll 0x0404
    let load := w.sec.loading
    let w := { w with
      sec := { w.sec with fw := 0, fwPrev := 0, fwSlot := 0xFF, loading := none }
      log := { w.log with wd := true }
      pins := { w.pins with faultN := some false } }
    w.writeDone? (load.map (·.2)) 0x0404

/-- Whether a task has its share on a core, or leaves it. -/
def Task.runsOn (t : Task) (c : Nat) : Bool := t.on c || t.draining.contains c || t.saving.contains c

/-- CORE_ERROR: the core's task stops with CORE_ERROR, which restarts the job of a job task; the core's staging SRAM and L1 are
cleared, and the tasks switched out there end when they would next be placed (R399, R400). -/
def World.coreFails (w : World) (core : Nat) : World :=
  if !w.clocked || decide (16 ≤ core) then w
  else
    let here := w.sched.tasks.find? (fun t => t.runsOn core)
    let w := match here with
      | some t => w.taskFault t 3 srcCore core
      | none => w.countFault 3 w.node srcCore core
    let w := { w with
      mem := { w.mem with
        staging := w.mem.staging.keep (fun k _ => decide (k / 524288 ≠ core))
        l1 := w.mem.l1.set [] core [] }
      sched := { w.sched with tasks := w.sched.tasks.map (fun (t : Task) => if t.out.contains core then { t with lost := true } else t) } }
    match here with
    | none => w
    | some t => match w.task? t.id with
      | some t => w.finish t 0x0403
      | none => w

/-! The event log (R403, R404). -/

/-- Copies the oldest staged entry to the ring, where it may overwrite one, and sends its notification; then a drop that is still to be recorded stages its
LOG_GAP (R403, R404, R306). -/
def World.copyEvent (w : World) : World :=
  match w.log.staged with
  | [] => w
  | e :: rest =>
    let w := { w with log := { w.log with
      staged := rest
      ring := w.log.ring.set {} (e.seq % 1024) e
      copied := add64 w.log.copied 1
      overs := if (Tab.get ({} : Entry) w.log.ring (e.seq % 1024)).code = 0 then w.log.overs else sat32 w.log.overs 1 } }
    let w := w.noteCarriers 2 3 0 0 ([2#8, 0#8, 0#8, 0#8] ++ e.bytes)
    match w.log.gap with
    | none => w
    | some (n, first) => { w with log := { w.log with gap := none } }.event 0x0040 srcMgmt 0 n first

/-! The test access port (R361, R362, Table 14.9). -/

/-- The levels that the 25 cells capture, in the order of Table 14.3: PERST_N, CLKREQ_N, the TDM balls, the control balls and
the straps (R361; log entry 29). -/
def World.cellLevels (w : World) : Nat :=
  let p := w.pins
  let free := Config.balls w.sec.used
  let b := fun (x : Bool) => if x then 1 else 0
  b p.perstN + 2 * (free % 2 ^ 9) + 2 ^ 10 * b p.wake + 2 ^ 11 * b p.ready + 2 ^ 12 * b (p.faultN.getD true) + 2 ^ 13 * b p.pwrAlertN +
    2 ^ 14 * b p.coolOk + 2 ^ 15 * b p.resetN + 2 ^ 16 * (w.live.straps % 2 ^ 9)

/-- What a ball with a cell shows: the cell in EXTEST and CLAMP, nothing in HIGHZ, and otherwise what the engine drives (R362). -/
def World.shown (w : World) (cell : Nat) (driven : Option Bool) : Option Bool :=
  if !w.tap.takeover then driven else if w.tap.ir = 0x03 then none else some (bitAt w.tap.cells cell)

/-- The level of the READY ball (R362). -/
def World.readyBall (w : World) : Option Bool := w.shown 11 (some w.pins.ready)

/-- The level of the FAULT_N ball (R362). -/
def World.faultBall (w : World) : Option Bool := w.shown 12 w.pins.faultN

/-- An instruction that leaves the balls to the engine is loaded: a takeover is no longer in force, and master ports clock
again (R361, R362). -/
def World.tapTo (w : World) (code : Nat) : World :=
  if !w.pins.vio then w
  else
    let w := if w.tap.takeover then { w with host := { w.host with
      tdms := w.host.tdms.mapAll {} (fun _ t => if t.en && t.role == 1 && t.st == 3 then { t with st := 2 } else t) } } else w
    { w with tap := { w.tap with ir := code, takeover := false } }

/-- An instruction that takes over the single-ended balls is loaded: one event on entry, and every running TDM port loses its
clock (R362). -/
def World.takeover (w : World) (code : Nat) : World :=
  if !w.pins.vio then w
  else
    let was := w.tap.takeover
    let w := { w with tap := { w.tap with ir := code, takeover := true } }
    let lose := fun (w : World) (p : Nat) => if (w.tdm p).st = 2 then w.loseClock p else w
    if was then w else lose (lose (w.event 0x0017 srcMgmt 0 code 0) 0) 1

/-- The public instructions but BYPASS (Table 14.9). -/
def publicCodes : List Nat := [0x00, 0x01, 0x02, 0x03, 0x04]

/-- Whether the vendor debug chain is reached through the test access port (R390). -/
def World.chainOpen (o : Otp) (w : World) : Bool := w.debugState o == 0 || w.debugState o == 2

/-- BYPASS, and every code that is not public while the chain is locked: the bypass register captures 0, and takes the bit shifted in
(R361). What such a code does while the chain is open is not given: it is loaded, and nothing is shifted (log entry 77). -/
def World.tapBypass (o : Otp) (w : World) (x : TapScan) : World :=
  if !w.pins.vio || publicCodes.contains x.code then w
  else
    let w' := w.tapTo x.code
    if x.code ≠ 0xFF ∧ w.chainOpen o then w' else { w' with tap := { w'.tap with byp := x.tdi % 2 } }.send (.tdo 0)

/-! The meanings. -/

/-- WATCHDOG (R401). -/
def execWatchdog (st : State) : Host.Outcome State Fault Refusal := .next (st.onW World.watchdogFires)

/-- CORE_ERROR (R400). -/
def execCoreError (core : Nat) (st : State) : Host.Outcome State Fault Refusal := .next (st.onW (fun w => w.coreFails core))

/-- EVENT_LOG_COPY (R403). -/
def execEventLogCopy (st : State) : Host.Outcome State Fault Refusal := .next (st.onW (fun w => if w.clocked then w.copyEvent else w))

/-- BYPASS (R361). -/
def execTapBypass (x : TapScan) (st : State) : Host.Outcome State Fault Refusal := .next (st.onOW (fun o _ w => w.tapBypass o x))

/-- IDCODE (R361). -/
def execTapIdcode (st : State) : Host.Outcome State Fault Refusal :=
  .next (st.onW (fun w => if w.pins.vio then (w.tapTo 0x01).send (.tdo 0x10416A4B) else w))

/-- SAMPLE/PRELOAD: the cells' levels are shifted out as new values are shifted in (R361). -/
def execTapSample (cells : Nat) (st : State) : Host.Outcome State Fault Refusal :=
  .next (st.onW (fun w =>
    if !w.pins.vio then w
    else
      let v := w.cellLevels
      let w := w.tapTo 0x02
      { w with tap := { w.tap with cells := cells % 2 ^ 25 }, sec := { w.sec with used := w.sec.used + 1 } }.send (.tdo v)))

/-- EXTEST (R362). -/
def execTapExtest (st : State) : Host.Outcome State Fault Refusal := .next (st.onW (fun w => w.takeover 0x00))

/-- HIGHZ (R362). -/
def execTapHighz (st : State) : Host.Outcome State Fault Refusal := .next (st.onW (fun w => w.takeover 0x03))

/-- CLAMP (R362). -/
def execTapClamp (st : State) : Host.Outcome State Fault Refusal := .next (st.onW (fun w => w.takeover 0x04))

/-- TEST_LOGIC_RESET: ends any takeover; the instruction register selects IDCODE (R362). -/
def execTestLogicReset (st : State) : Host.Outcome State Fault Refusal := .next (st.onW (fun w => w.tapTo 0x01))

end Sys2Proof.Machine
end

