-- ==== Sys2Proof/Machine/Dict.lean ====
section
/-! DEFINITION. The object dictionary: its table (Table 18.2), what each object reads, which values a write takes, and what
a write to an object with no row of its own does (R285 to R291, R421 to R428). -/

namespace Sys2Proof.Machine

/-! The index (Tables 12.1, 12.2, 18.2). -/

/-- Access rights (Table 12.3). -/
inductive Access where
  | ro | rw | wo | rwi
  deriving DecidableEq, Repr

/-- Objects of one index at consecutive subindices that share their access, level (0 open, 1 integrator), the pending mark †
(R425) and the length of their value in bytes. -/
structure ObjRun where
  first : Nat
  count : Nat
  acc : Access
  level : Nat
  pend : Bool
  len : Nat
  deriving DecidableEq, Repr

/-- Objects that are only read. -/
def ro (first count len : Nat) : ObjRun := ⟨first, count, .ro, 0, false, len⟩

/-- Objects that are read and written at a level. -/
def rw (level first count len : Nat) : ObjRun := ⟨first, count, .rw, level, false, len⟩

/-- Objects that are written in Idle only, at integrator level. -/
def rwi (first len : Nat) : ObjRun := ⟨first, 1, .rwi, 1, false, len⟩

/-- An object that is only written; `pend` is its † mark. -/
def wo (level : Nat) (pend : Bool) (sub len : Nat) : ObjRun := ⟨sub, 1, .wo, level, pend, len⟩

/-- The objects of each index of the ranges 0x1000 to 0x22FF (Table 18.2). -/
def bootTable : List (Nat × List ObjRun) :=
  [(0x1000, [ro 1 1 4, ro 2 1 10, ro 3 1 2, ro 4 1 4, ro 5 1 1, ro 6 1 8, ro 7 1 4, ro 8 1 2]),
   (0x1100, [ro 1 2 1, rw 1 3 2 1, ro 5 2 8, ro 7 2 4, ro 9 1 1, ro 10 4 4, rw 0 14 1 2, ro 15 1 4, ro 16 1 1]),
   (0x1101, [ro 1 1 16, wo 0 false 2 33, ro 3 1 1, wo 0 false 4 1, rw 1 5 1 2, ro 6 2 4]),
   (0x1102, [rw 0 1 1 64, rw 0 2 2 1, ro 4 1 8, ro 5 3 4]),
   (0x1200, [ro 1 1 1, ro 2 1 4, ro 3 1 128, wo 1 false 4 128, wo 1 true 5 1, ro 6 1 512, ro 7 1 4, wo 1 true 9 1]),
   (0x1300, [wo 0 true 1 16, ro 2 1 2, ro 3 1 128, wo 1 true 4 36, wo 1 true 5 1, ro 6 2 1, ro 8 1 16, wo 0 false 9 33,
     ro 10 1 1, wo 0 false 11 1, wo 1 true 12 1, ro 13 2 1]),
   (0x2000, [rw 0 1 1 1, ro 2 1 1, rw 1 3 1 1, rw 0 4 1 1, ro 5 1 6, ro 6 3 4, ro 9 1 1, rw 1 10 1 1, ro 11 1 4]),
   (0x2100, [ro 1 8 2, ro 9 2 1, ro 11 1 2, ro 12 1 1]),
   (0x2110, [rw 1 1 1 4, rw 1 2 1 4, ro 3 1 4, rw 0 4 1 1, rw 1 5 1 1, rw 1 6 2 2]),
   (0x2120, [rw 0 1 1 16, ro 2 1 1, ro 3 1 4]),
   (0x2130, [ro 1 1 4, ro 2 1 1, ro 3 1 4, rw 1 4 1 1, ro 5 1 1, ro 6 1 4]),
   (0x2200, [ro 1 1 8, ro 2 1 4, ro 3 1 16, ro 4 1 4, ro 5 3 2]),
   (0x2201, [ro 1 10 4]),
   (0x2202, [ro 1 10 8])]

/-- The objects of each index from 0x3000; a set stands at its first index (Table 18.2, R422). -/
def mainTable : List (Nat × List ObjRun) :=
  [(0x3000, [ro 1 1 2, rwi 2 1, ro 3 1 1, ro 5 4 4]),
   (0x3001, [rw 1 1 1 512]),
   (0x3040, [rw 0 1 1 1, rw 0 2 2 8, rw 0 4 1 2, rw 0 5 1 4, rw 1 6 1 1, rw 0 7 2 2, ro 9 2 4, ro 11 1 1, ro 12 2 2]),
   (0x3100, [rw 0 1 7 1, rw 0 8 1 8, rw 0 9 1 1, rw 0 10 1 8, rw 0 11 1 1, rw 0 12 1 2, rw 0 13 1 1, rw 1 14 1 2, rw 0 15 1 4,
     ro 16 1 8, ro 17 1 20]),
   (0x3180, [rw 0 1 2 1, rw 1 3 1 1, rw 0 4 4 1, ro 8 1 1, ro 9 2 4]),
   (0x3200, [rw 0 1 1 2, rwi 2 1, ro 3 1 8, ro 4 6 4]),
   (0x3210, [ro 1 1 8, ro 2 1 4, ro 3 2 2, ro 5 1 4]),
   (0x3220, [rwi 1 2, rwi 2 2, rw 1 3 1 2, rw 1 4 1 1, ro 5 2 2, ro 7 1 8]),
   (0x3230, [rw 0 1 1 2, rw 1 2 1 2, ro 3 1 8, ro 4 1 2]),
   (0x3300, [rw 0 1 3 1, ro 4 2 4, rw 0 6 2 1, ro 8 3 4, rw 0 11 3 1, rw 1 14 1 1, ro 15 1 4, rw 0 16 1 1, ro 17 3 4, rw 0 20 2 1]),
   (0x3301, [rw 0 1 1 2, rw 0 2 1 4, rw 0 3 3 1, rw 0 6 2 4, ro 8 1 64, ro 9 3 4]),
   (0x3400, [ro 1 1 8, ro 3 2 4, ro 5 1 8, ro 6 2 4, rw 1 8 1 1, ro 9 5 4, ro 14 2 8, ro 16 1 4, ro 17 1 8, rwi 18 1, ro 19 2 8, ro 21 1 4]),
   (0x3401, [rw 0 1 3 1, ro 4 1 1, ro 5 1 8, ro 6 1 4]),
   (0x3402, [rw 0 1 1 1, ro 2 1 2, ro 3 1 8, ro 4 2 4]),
   (0x3500, [rwi 1 1, ro 2 7 4]),
   (0x3510, [rw 0 1 1 4, rw 1 2 1 1, ro 3 1 4, rw 1 4 1 4, ro 5 1 4]),
   (0x3511, [rw 0 1 1 2, ro 2 1 32]),
   (0x3520, [rw 0 1 1 2, ro 2 3 8, ro 5 1 4, ro 6 1 1]),
   (0x3521, [ro 1 1 512]),
   (0x3530, [ro 1 1 8]),
   (0x3600, [rwi 1 1, rwi 2 1, rwi 3 1, ro 4 2 1, wo 1 true 6 1, ro 7 1 1, ro 8 1 2, ro 9 1 4, ro 10 1 1]),
   (0x3601, [ro 1 1 128]),
   (0x3610, [ro 1 1 1, ro 2 1 2, ro 3 3 4, ro 6 2 8]),
   (0x3620, [ro 1 1 2]),
   (0x3630, [rwi 1 1, rw 1 2 1 4, ro 3 1 8, ro 4 2 4, ro 6 1 1]),
   (0x3640, [ro 1 2 1, ro 3 1 4]),
   (0x3650, [ro 1 3 4, rw 1 4 1 1]),
   (0x3660, [ro 1 1 4, ro 2 1 8]),
   (0x3700, [ro 1 1 1, ro 2 2 4, wo 1 true 4 32, ro 5 2 2, ro 7 1 8]),
   (0x3701, [rw 0 1 1 2, ro 2 1 1, ro 3 1 49]),
   (0x3702, [wo 1 true 1 128, wo 1 true 2 48, ro 3 1 2]),
   (0x3800, [ro 1 1 2, ro 2 1 8, ro 3 1 4, ro 4 1 32768, ro 5 1 4]),
   (0x3810, [ro 1 10 4]),
   (0x3820, [ro 1 3 8])]

/-- The first index of the set an index belongs to, and the instance (R422). -/
def baseOf (idx : Nat) : Nat × Nat :=
  if 0x3040 ≤ idx ∧ idx ≤ 0x307F then (0x3040, idx - 0x3040)
  else if 0x3100 ≤ idx ∧ idx ≤ 0x317F then (0x3100, idx - 0x3100)
  else if 0x3180 ≤ idx ∧ idx ≤ 0x3181 then (0x3180, idx - 0x3180)
  else if 0x3220 ≤ idx ∧ idx ≤ 0x3227 then (0x3220, idx - 0x3220)
  else if 0x3610 ≤ idx ∧ idx ≤ 0x3613 then (0x3610, idx - 0x3610)
  else (idx, 0)

/-- The objects of an index (R421, R423). -/
def runsOf (idx : Nat) : Option (List ObjRun) := ((bootTable ++ mainTable).find? (fun e => e.1 == (baseOf idx).1)).map (·.2)

/-- The object at a subindex other than 0. -/
def objAt (rs : List ObjRun) (sub : Nat) : Option ObjRun := rs.find? (fun r => decide (r.first ≤ sub) && decide (sub < r.first + r.count))

/-- The highest subindex of an index (R285, R423). -/
def topSub (rs : List ObjRun) : Nat := rs.foldl (fun m r => max m (r.first + r.count - 1)) 0

/-- Whether the boot ROM serves an index (R243). -/
def inBoot (idx : Nat) : Bool := (decide (0x1000 ≤ idx) && decide (idx ≤ 0x13FF)) || (decide (0x2000 ≤ idx) && decide (idx ≤ 0x22FF))

/-! Clients and selectors (R291, R310). -/

/-- A request as the dictionary sees it: the client (a node, or 254 for the window), where its answers go, its transaction ID and
its selector override. -/
structure Rq where
  client : Nat
  mac : Nat := 0
  txn : Nat := 0
  sel : Option Nat := none
  deriving DecidableEq, Repr

/-- A client's record. -/
def World.client (w : World) (id : Nat) : Client := (w.stn.clients.find? (fun c => c.id == id)).getD { id := id }

/-- Changes a client's record. -/
def World.updClient (w : World) (id : Nat) (f : Client → Client) : World :=
  let c := f (w.client id)
  { w with stn := { w.stn with clients := if w.stn.clients.any (fun c => c.id == id) then w.stn.clients.map (fun x => if x.id = id then c else x) else w.stn.clients ++ [c] } }

/-- A client's level in force: integrator for every client while there is no live record (R310, R417). -/
def World.levelOf (w : World) (id : Nat) : Nat := if w.live.hasRec then (w.client id).level else 1

/-- The selectors of a client's carrier (R291). -/
def World.sels (w : World) (client : Nat) : Sels := if client = 254 then w.stn.selP else w.stn.selT

/-- Changes the selectors of a client's carrier. -/
def World.updSels (w : World) (client : Nat) (f : Sels → Sels) : World :=
  if client = 254 then { w with stn := { w.stn with selP := f w.stn.selP } } else { w with stn := { w.stn with selT := f w.stn.selT } }

/-- The first number that names no instance of the selector of an index; none where a selector chooses nothing there. -/
def selLimit (idx : Nat) : Option Nat :=
  if idx = 0x3301 then some 1024 else if idx = 0x3230 then some 512 else if idx = 0x3511 then some 65536
  else if idx = 0x3520 ∨ idx = 0x3701 then some 4096 else none

/-- Whether a selector chooses the object. -/
def selected (idx sub : Nat) : Bool := (selLimit idx).isSome && decide (2 ≤ sub)

/-- The selector stored for an index. -/
def Sels.of (s : Sels) (idx : Nat) : Nat :=
  if idx = 0x3301 then s.slot else if idx = 0x3230 then s.sem else if idx = 0x3511 then s.prog else if idx = 0x3520 then s.ledger else s.tenant

/-- The instance a request addresses (R291). -/
def World.selOf (w : World) (rq : Rq) (idx : Nat) : Nat := rq.sel.getD ((w.sels rq.client).of idx)

/-- Whether a selector names a global semaphore where there is none (R426). -/
def World.noSem (w : World) (rq : Rq) (idx sub : Nat) : Bool :=
  decide (idx = 0x3230) && decide (2 ≤ sub) && bitAt (w.selOf rq idx) 8 && decide (w.sched.semHome = 0xFF)

/-! What objects read. -/

/-- A signed value in four bytes. -/
def i32 (v : Int) : Bytes := leBytes 4 (ofSigned 32 v)

/-- An exponent that may be empty (Table 4.2). -/
def expo (e : Option Int) : Bytes := i32 (e.getD (-2147483648))

/-- A truth value in a byte. -/
def boolByte (b : Bool) : Bytes := [if b then 1#8 else 0#8]

/-- A field of the objects of an index, by its place among numbers of `n` bytes. -/
def nth (n : Nat) (l : List Nat) (sub first : Nat) : Bytes := leBytes n (l.getD (sub - first) 0)

/-- The MAC address: 02-50-4E and the low 24 bits of the chip identity (R298). -/
def World.mac (w : World) : Nat := 0x02504E000000 + leAt w.live.factory 0 8 % 2 ^ 24

/-- Identity and the dictionary protocol, but for the challenges (Tables 0.4, 12.10). -/
def World.readProto (w : World) (rq : Rq) (idx sub : Nat) : Bytes :=
  let a := w.adp
  match idx, sub with
  | 0x1000, 1 => slice w.live.factory 8 4
  | 0x1000, 2 => strBytes "YX-416-M16"
  | 0x1000, 3 => slice w.live.factory 12 2
  | 0x1000, 4 => leBytes 4 w.sec.fw
  | 0x1000, 5 => leBytes 1 w.live.cls
  | 0x1000, 6 => slice w.live.factory 0 8
  | 0x1000, 7 => leBytes 4 0x10416A4B
  | 0x1000, 8 => leBytes 2 w.live.straps
  | 0x1100, 1 => leBytes 1 w.live.nodeId
  | 0x1100, 2 => leBytes 1 w.live.nodeSrc
  | 0x1100, 3 => leBytes 1 a.plcaN
  | 0x1100, 4 => leBytes 1 a.plcaTo
  | 0x1100, 5 => leBytes 8 w.mac
  | 0x1100, 6 => leBytes 8 a.accepted
  | 0x1100, 7 => leBytes 4 a.rxDrops
  | 0x1100, 8 => leBytes 4 a.txDrops
  | 0x1100, 9 => boolByte a.beaconOk
  | 0x1100, 10 => leBytes 4 a.conflicts
  | 0x1100, 11 => leBytes 4 a.dups
  | 0x1100, 12 => leBytes 4 a.svcLast
  | 0x1100, 13 => leBytes 4 a.svcLong
  | 0x1100, 14 => leBytes 2 a.segMs
  | 0x1100, 15 => leBytes 4 a.busyCnt
  | 0x1100, 16 => boolByte w.live.segEnd
  | 0x1101, 3 => leBytes 1 (w.levelOf rq.client)
  | 0x1101, 5 => leBytes 2 a.idleS
  | 0x1101, 6 => leBytes 4 a.wrong
  | 0x1101, 7 => leBytes 4 (cdiv ((w.client rq.client).locked - w.now) 1000000)
  | 0x1102, 1 => a.watch.flatMap (leBytes 4)
  | 0x1102, 2 => leBytes 1 a.noteNode
  | 0x1102, 3 => leBytes 1 a.noteCar
  | 0x1102, 4 => leBytes 8 a.notes
  | 0x1102, s => nth 4 [a.resends, a.unackDrops, a.ringDrops] s 5
  | _, _ => []

/-- A configuration record with its secret fields read as zero (R370). -/
def openRecord (r : Bytes) : Bytes := slice r 0 8 ++ zeros 32 ++ slice r 40 20 ++ zeros 32 ++ slice r 92 36

/-- OTP, firmware and debug (Table 15.13). -/
def World.readFuses (o : Otp) (w : World) (idx sub : Nat) : Bytes :=
  match idx, sub with
  | 0x1200, 1 => leBytes 1 w.live.gen
  | 0x1200, 2 => o.genStates.flatMap (leBytes 1)
  | 0x1200, 3 => openRecord w.live.record
  | 0x1200, 6 => slice w.live.factory 0 64 ++ zeros 40 ++ slice w.live.factory 104 408
  | 0x1200, 7 => leBytes 4 w.sec.verFail
  | 0x1300, 2 => leBytes 2 w.sec.fwStatus
  | 0x1300, 3 => o.hashes.flatMap (fun h => slice h 0 32)
  | 0x1300, 6 => leBytes 1 o.markBits
  | 0x1300, 7 => leBytes 1 w.sec.fwSlot
  | 0x1300, 10 => leBytes 1 (w.debugState o)
  | 0x1300, 13 => leBytes 1 o.secBits
  | 0x1300, 14 => boolByte w.sec.entropyBad
  | _, _ => []

/-- Power states, operating points and telemetry (Tables 10.9, 11.6, 14.10). -/
def World.readPower (w : World) (idx sub : Nat) : Bytes :=
  let p := w.power
  let q := w.pt
  let m := w.meter
  match idx, sub with
  | 0x2000, 1 => leBytes 1 p.req
  | 0x2000, 2 => leBytes 1 p.st.code
  | 0x2000, 3 => leBytes 1 p.lowTarget
  | 0x2000, 4 => boolByte p.leaveIdle
  | 0x2000, 5 => p.attempts.flatMap (leBytes 1)
  | 0x2000, 9 => leBytes 1 p.dozeCause
  | 0x2000, 10 => leBytes 1 p.dozeSrc
  | 0x2000, 11 => leBytes 4 p.lastWakeUs
  | 0x2000, s => nth 4 [p.aborted, p.rewoken, p.dozeExits] s 6
  | 0x2100, 9 => leBytes 1 (q.op + 16 * q.mem)
  | 0x2100, 10 => leBytes 1 q.issue
  | 0x2100, 11 => leBytes 2 q.coreMv
  | 0x2100, 12 => leBytes 1 q.notch
  | 0x2100, s => leBytes 2 (w.trimMv (s - 1))
  | 0x2110, 1 => leBytes 4 q.cap
  | 0x2110, 2 => q.frac.flatMap (leBytes 1)
  | 0x2110, 3 => q.fracNow.flatMap (leBytes 1)
  | 0x2110, 4 => boolByte q.lowE
  | 0x2110, 5 => leBytes 1 q.lowCeil
  | 0x2110, 6 => leBytes 2 q.softMa
  | 0x2110, 7 => leBytes 2 q.holdMs
  | 0x2120, 1 => q.profiles.flatMap (leBytes 2)
  | 0x2120, 2 => leBytes 1 w.profileNow
  | 0x2120, 3 => leBytes 4 q.conf
  | 0x2130, 1 => i32 m.hot
  | 0x2130, 2 => leBytes 1 m.hotIx
  | 0x2130, 3 => i32 m.highest
  | 0x2130, 4 => leBytes 1 m.onset
  | 0x2130, 5 => leBytes 1 q.causes
  | 0x2130, 6 => leBytes 4 m.halts
  | 0x2200, 1 => leBytes 8 m.energy
  | 0x2200, 2 => leBytes 4 m.input
  | 0x2200, 3 => m.doms.flatMap (leBytes 4)
  | 0x2200, 4 => leBytes 4 m.calAge
  | 0x2200, s => nth 2 [w.reasonsNow, m.vin, m.vinLow] s 5
  | 0x2201, s => nth 4 (m.accrued.map (· / 1000)) s 1
  | 0x2202, s => nth 8 m.lastAt s 1
  | _, _ => []

/-- The host port, queues, stream contexts and TDM ports (Table 13.10). -/
def World.readHost (w : World) (idx inst sub : Nat) : Bytes :=
  let h := w.host
  let q := w.queue inst
  let c := w.ctx inst
  let t := w.tdm inst
  match idx, sub with
  | 0x3000, 1 => leBytes 2 (h.speed + 16 * h.width)
  | 0x3000, 2 => leBytes 1 h.target
  | 0x3000, 3 => boolByte w.live.clkreq
  | 0x3000, s => nth 4 [h.sealedRef, h.badEntry, h.resets, h.discarded] s 5
  | 0x3001, _ => h.map.flatMap (leBytes 8)
  | 0x3040, 1 => boolByte q.enabled
  | 0x3040, 2 => leBytes 8 q.taskBase
  | 0x3040, 3 => leBytes 8 q.compBase
  | 0x3040, 4 => leBytes 2 q.e
  | 0x3040, 5 => leBytes 4 q.s
  | 0x3040, 6 => leBytes 1 q.ceil
  | 0x3040, 7 => leBytes 2 q.coalN
  | 0x3040, 8 => leBytes 2 q.coalUs
  | 0x3040, 9 => leBytes 4 q.f
  | 0x3040, 10 => leBytes 4 q.c
  | 0x3040, 11 => leBytes 1 q.st
  | 0x3040, 12 => leBytes 2 q.err
  | 0x3040, 13 => leBytes 2 (w.sched.tasks.countP (fun t => t.id.queue == inst))
  | 0x3100, 8 => leBytes 8 c.inBase
  | 0x3100, 10 => leBytes 8 c.outBase
  | 0x3100, 12 => leBytes 2 c.sems
  | 0x3100, 14 => leBytes 2 c.tenant
  | 0x3100, 15 => leBytes 4 c.latency
  | 0x3100, 16 => leBytes 8 c.next
  | 0x3100, 17 => c.counts.flatMap (leBytes 4)
  | 0x3100, s => nth 1 [if c.isOpen then 1 else 0, c.src, c.srcSlot, c.sink, c.sinkSlot, c.rate, c.fmt, 0, c.nIn, 0, c.nOut, 0, c.queue] s 1
  | 0x3180, 9 => leBytes 4 t.losses
  | 0x3180, 10 => leBytes 4 t.slips
  | 0x3180, s => nth 1 [if t.en then 1 else 0, t.mode, t.role, t.rate, t.slots, t.width, t.timing, t.st] s 1
  | _, _ => []

/-- The owner of a semaphore in the layout of 0x3230:03; bit 29 is set while the owning task is suspended. -/
def World.ownerWord (w : World) (glob : Bool) (s : Sem) : Nat :=
  match s.owner with
  | none => 0
  | some o =>
    let here := !glob || o.engine == w.link.logical
    let away := here && (w.task? o.task).any (fun t => t.st == .suspended)
    o.slot % 4096 + 2 ^ 12 * (o.task.queue % 64) + 2 ^ 18 * (o.core % 16) + 2 ^ 22 * (o.engine % 128) + (if away then 2 ^ 29 else 0) + 2 ^ 63

/-- Scheduling, operations, partitions and semaphores (Tables 5.14, 6.6). -/
def World.readSched (w : World) (rq : Rq) (idx inst sub : Nat) : Bytes :=
  let s := w.sched
  let p := w.part inst
  let n := w.selOf rq 0x3230
  let glob := bitAt n 8
  let k := n % 256
  match idx, sub with
  | 0x3200, 1 => leBytes 2 s.holdBudget
  | 0x3200, 2 => leBytes 1 s.semHome
  | 0x3200, 3 => leBytes 8 s.preempts
  | 0x3200, i => nth 4 [s.resumes, s.expiries, s.longDrains, s.longest, s.failedPl, s.orphans] i 4
  | 0x3210, 1 => leBytes 8 s.opsDone
  | 0x3210, 2 => leBytes 4 s.opsRefused
  | 0x3210, 3 => leBytes 2 s.refStatus
  | 0x3210, 4 => leBytes 2 s.refTag
  | 0x3210, 5 => leBytes 4 s.noReport
  | 0x3220, 4 => leBytes 1 p.depth
  | 0x3220, 7 => leBytes 8 p.bytes
  | 0x3220, i => nth 2 [p.home, p.borrow, p.rate, 0, p.interf, p.stall] i 1
  | 0x3230, 1 => leBytes 2 (w.sels rq.client).sem
  | 0x3230, 2 => leBytes 2 (w.sem glob k).value
  | 0x3230, 3 => leBytes 8 (w.ownerWord glob (w.sem glob k))
  | 0x3230, 4 => leBytes 2 (w.waiters glob k).length
  | _, _ => []

/-- Number formats, dot products and scale slots (Tables 2.8, 3.12, 4.7). -/
def World.readNum (w : World) (rq : Rq) (idx sub : Nat) : Bytes :=
  let n := w.num
  let s := n.slots.get {} (w.selOf rq 0x3301)
  match idx, sub with
  | 0x3300, 15 => leBytes 4 n.reruns
  | 0x3300, 17 => leBytes 4 n.confScale
  | 0x3300, 18 => leBytes 4 n.confWiden
  | 0x3300, 19 => leBytes 4 n.confReplay
  | 0x3300, 4 => leBytes 4 n.opsFlush
  | 0x3300, 5 => leBytes 4 n.opsSat
  | 0x3300, 8 => leBytes 4 n.replays
  | 0x3300, 9 => leBytes 4 n.promos
  | 0x3300, 10 => leBytes 4 n.numStat
  | 0x3300, i => nth 1 [n.ftz, n.sat, n.blk, 0, 0, n.accov, n.grp, 0, 0, 0, n.k4, n.k8, n.k16, n.wcap, 0, n.outT, 0, 0, 0, n.defD, n.defH] i 1
  | 0x3301, 1 => leBytes 2 (w.sels rq.client).slot
  | 0x3301, 2 => i32 s.s
  | 0x3301, 3 => boolByte s.pinned
  | 0x3301, 4 => leBytes 1 (s.d.getD n.defD)
  | 0x3301, 5 => leBytes 1 (s.h.getD n.defH)
  | 0x3301, 6 => i32 s.lo
  | 0x3301, 7 => i32 s.hi
  | 0x3301, 8 => s.hist.flatMap expo
  | 0x3301, 9 => expo s.pending
  | 0x3301, 10 => leBytes 4 s.updates
  | 0x3301, 11 => leBytes 4 s.nonfin
  | _, _ => []

/-- Memory and cache slices (Table 7.9). In mode 2 the length in use is the low bound (R155). -/
def World.readMem (w : World) (idx sub : Nat) : Bytes :=
  let m := w.mem
  match idx, sub with
  | 0x3400, 1 => leBytes 8 hostRegion
  | 0x3400, 3 => leBytes 4 m.corr
  | 0x3400, 4 => leBytes 4 m.ue
  | 0x3400, 5 => leBytes 8 m.ueAddr
  | 0x3400, 6 => leBytes 4 m.sliceCorr
  | 0x3400, 7 => leBytes 4 m.sliceUe
  | 0x3400, 8 => leBytes 1 m.patrolH
  | 0x3400, 14 => leBytes 8 m.dropLines
  | 0x3400, 15 => leBytes 8 m.dropDirty
  | 0x3400, 16 => leBytes 4 m.fullWaits
  | 0x3400, 17 => leBytes 8 m.merged
  | 0x3400, 18 => leBytes 1 m.quota
  | 0x3400, 19 => leBytes 8 m.remFills
  | 0x3400, 20 => leBytes 8 m.acquires
  | 0x3400, 21 => leBytes 4 m.telDrops
  | 0x3400, i => nth 4 [m.patrolDone, m.patrolLate, m.forcedScrub, m.forcedCal, m.longDefer] i 9
  | 0x3401, 1 => leBytes 1 m.strMode
  | 0x3401, 2 => leBytes 1 m.strLo
  | 0x3401, 3 => leBytes 1 m.strHi
  | 0x3401, 4 => leBytes 1 (if m.strMode = 2 then m.strLo else m.strN)
  | 0x3401, 5 => leBytes 8 m.notAlloc
  | 0x3401, 6 => leBytes 4 m.strConf
  | 0x3402, 1 => leBytes 1 m.cmpMode
  | 0x3402, 2 => leBytes 2 (if m.cmpMode = 1 then 0 else if m.cmpMode = 2 then 0xFFFF else m.cmpOn)
  | 0x3402, 3 => leBytes 8 m.cmpLines
  | 0x3402, 4 => leBytes 4 m.cmpMoves
  | 0x3402, 5 => leBytes 4 m.cmpConf
  | _, _ => []

/-- Training, the ledger and the spend table (Table 8.6, R192, R426). -/
def World.readTrain (v : Vault) (w : World) (rq : Rq) (idx sub : Nat) : Bytes :=
  let t := w.train
  let l := v.tenant (w.selOf rq 0x3520)
  match idx, sub with
  | 0x3500, 1 => leBytes 1 t.mode
  | 0x3500, i => nth 4 [t.stepCtr, t.deferred, t.abandoned, t.zeroPath, t.heldEls, t.lastNorm, t.lastClip] i 2
  | 0x3510, 2 => leBytes 1 t.margin
  | 0x3510, i => nth 4 [t.reserve, 0, t.lastCost, t.estNone, t.lastEst] i 1
  | 0x3511, 1 => leBytes 2 (w.sels rq.client).prog
  | 0x3511, 2 =>
    let h := ((t.hist.find? (fun e => e.1 == w.selOf rq 0x3511)).map (·.2)).getD []
    (List.range 8).flatMap (fun i => leBytes 4 (h.getD i 0xFFFFFFFF))
  | 0x3520, 1 => leBytes 2 (w.sels rq.client).ledger
  | 0x3520, 5 => leBytes 4 l.steps
  | 0x3520, 6 => leBytes 1 l.codes
  | 0x3520, i => nth 8 [l.budget, l.spent, l.budget - l.spent] i 2
  | 0x3521, _ => (List.range 128).flatMap (fun i => leBytes 4 (spendOf (i / 8) (i % 8)))
  | 0x3530, _ => leBytes 8 t.rngWords
  | _, _ => []

/-- The link fabric and the job (Table 9.10). -/
def World.readLink (w : World) (idx inst sub : Nat) : Bytes :=
  let l := w.link
  let p := w.port inst
  match idx, sub with
  | 0x3600, 8 => leBytes 2 l.status
  | 0x3600, 9 => leBytes 4 l.epoch
  | 0x3600, i => nth 1 [l.jobSize, l.grid, l.tray, l.slotId, l.logical, 0, l.jobState, 0, 0, l.coord] i 1
  | 0x3601, _ => (List.range 128).flatMap (fun i => leBytes 1 (l.map.get 0xFF i))
  | 0x3610, 1 => leBytes 1 p.st
  | 0x3610, 2 => leBytes 2 (match p.nbr with | some (n, k) => n % 256 + 256 * (k % 4) + 2 ^ 15 | none => 0)
  | 0x3610, 6 => leBytes 8 p.sent
  | 0x3610, 7 => leBytes 8 p.rcvd
  | 0x3610, i => nth 4 [p.crc, p.resent, p.tries] i 3
  | 0x3620, _ => leBytes 2 l.credits
  | 0x3630, 1 => leBytes 1 l.policy
  | 0x3630, 2 => leBytes 4 l.deadline
  | 0x3630, 3 => leBytes 8 l.spoil
  | 0x3630, 4 => leBytes 4 l.carries
  | 0x3630, 5 => leBytes 4 l.skips
  | 0x3630, 6 => boolByte l.nondet
  | 0x3640, 1 => leBytes 1 l.jobPoint
  | 0x3640, 2 => leBytes 1 l.ownCeil
  | 0x3640, 3 => leBytes 4 l.floods
  | 0x3650, 4 => leBytes 1 l.limit
  | 0x3650, i => nth 4 [l.nbrLost, l.restarts, w.log.lastFault] i 1
  | 0x3660, 1 => leBytes 4 l.ckStep
  | 0x3660, 2 => leBytes 8 l.ckAddr
  | _, _ => []

/-- The record of a tenant in 0x3701:03: N_p, then the base and length of each area, lengths in 4 KiB units, then the live
generation (log entry 13). -/
def Tenant.shown (t : Tenant) : Bytes :=
  leBytes 4 t.np ++ leBytes 8 t.param ++ leBytes 8 t.act ++ leBytes 4 (t.actLen / 4096) ++ leBytes 8 t.scr ++ leBytes 4 (t.scrLen / 4096) ++
    leBytes 8 t.str ++ leBytes 4 (t.strLen / 4096) ++ leBytes 1 t.live

/-- Tenants and sessions (Table 15.13). -/
def World.readTenants (o : Otp) (v : Vault) (w : World) (rq : Rq) (idx sub : Nat) : Bytes :=
  let t := v.tenant (w.selOf rq 0x3701)
  match idx, sub with
  | 0x3700, 1 => boolByte w.sec.session
  | 0x3700, 2 => leBytes 4 o.session
  | 0x3700, 3 => leBytes 4 (sessionBits - o.session)
  | 0x3700, 5 => leBytes 2 v.held.length
  | 0x3700, 6 => leBytes 2 (v.held.countP (fun e => e.2.st == 2))
  | 0x3700, 7 => leBytes 8 w.sec.closeBytes
  | 0x3701, 1 => leBytes 2 (w.sels rq.client).tenant
  | 0x3701, 2 => leBytes 1 t.st
  | 0x3701, 3 => t.shown
  | 0x3702, 3 => leBytes 2 w.sec.tenStatus
  | _, _ => []

/-- The event log, the fault counters and the clocks (Table 16.6, R404). -/
def World.readLog (w : World) (idx sub : Nat) : Bytes :=
  let l := w.log
  match idx, sub with
  | 0x3800, 1 => leBytes 2 ((l.staged.head?.elim l.seq (·.seq)) % 1024)
  | 0x3800, 2 => leBytes 8 (l.copied + l.staged.length)
  | 0x3800, 3 => leBytes 4 l.overs
  | 0x3800, 4 => (List.range 1024).flatMap (fun i => (l.ring.get {} i).bytes)
  | 0x3800, 5 => leBytes 4 l.dropped
  | 0x3810, i => nth 4 l.faults i 1
  | 0x3820, i => nth 8 [w.clock.compute, w.clock.fabric, w.clock.ns] i 1
  | _, _ => []

/-- The value of an object that is not a challenge (R290). -/
def World.readObj (o : Otp) (v : Vault) (w : World) (rq : Rq) (index sub : Nat) : Bytes :=
  let (idx, inst) := baseOf index
  if sub = 0 then leBytes 1 (((runsOf index).map topSub).getD 0)
  else if idx < 0x1200 then w.readProto rq idx sub
  else if idx < 0x2000 then w.readFuses o idx sub
  else if idx < 0x3000 then w.readPower idx sub
  else if idx < 0x3200 then w.readHost idx inst sub
  else if idx < 0x3300 then w.readSched rq idx inst sub
  else if idx < 0x3400 then w.readNum rq idx sub
  else if idx < 0x3500 then w.readMem idx sub
  else if idx < 0x3600 then w.readTrain v rq idx sub
  else if idx < 0x3700 then w.readLink idx inst sub
  else if idx < 0x3800 then w.readTenants o v rq idx sub
  else w.readLog idx sub

/-! Which values a write takes (R4, R6, R286). A status of 0 is a value in range. -/

/-- A number within bounds. -/
def within (lo hi v : Nat) : Nat := if lo ≤ v ∧ v ≤ hi then 0 else 0x0812

/-- A number whose bits of a mask must be 0. -/
def noBits (mask v : Nat) : Nat := if Nat.land mask v = 0 then 0 else 0x0801

/-- A value that meets a condition of its home chapter. -/
def must (c : Bool) : Nat := if c then 0 else 0x0812

/-- The first status that is not 0. -/
def firstBad (l : List Nat) : Nat := (l.find? (fun s => decide (s ≠ 0))).getD 0

/-- The numbers of an array of elements of `n` bytes. -/
def elems (n : Nat) (d : Bytes) : List Nat := (List.range (d.length / n)).map (fun i => leAt d (n * i) n)

/-- A point in the layout of 0x2100:09. -/
def pointOk (v : Nat) : Nat := if 7 < fld v 0 4 ∨ fld v 4 2 = 3 then 0x0812 else noBits 0xC0 v

/-- An entry of the profile table: reserved bits and a floor above the ceiling are refused alike (R263). -/
def profileOk (e : Nat) : Bool :=
  let c := profCeil e
  let f := profFloor e
  decide (c.1 ≤ 7) && decide (c.2 ≤ 2) && decide (f.1 ≤ 7) && decide (f.2 ≤ 2) && decide (Nat.land e 0xC0C0 = 0) && decide (f.1 ≤ c.1) && decide (f.2 ≤ c.2)

/-- An entry of the window map (R319). -/
def mapOk (e : Nat) : Nat :=
  if bitAt e 63 ∧ hostRegion / 2 ^ 24 ≤ e % 2 ^ 16 then 0x0812 else if fld e 16 47 ≠ 0 then 0x0801 else 0

/-- A staged record: bytes 0–3 and 124–127 are written as zero (R371, Table 15.3). DESIGN CHOICE (log entry 79): R371 names no status for
a record in which they are not; the model refuses it with 0x0801, as for reserved bytes (R6). -/
def stagedOk (d : Bytes) : Nat :=
  if !allZero (slice d 0 4) then 0x0801 else if 2 < leAt d 4 1 then 0x0812
  else if !allZero (slice d 6 2) || !allZero (slice d 92 36) then 0x0801 else 0

/-- A tenant command's fields (Table 15.13); a retirement's bases and address have no meaning and are not checked (log entry 43). -/
def commandOk (d : Bytes) : Nat :=
  let op := leAt d 0 1
  let base := fun (o : Nat) => decide (leAt d o 8 % 4096 = 0)
  if op ≠ 1 ∧ op ≠ 2 then 0x0812 else if leAt d 1 1 ≠ 0 then 0x0801 else if 4095 < leAt d 2 2 then 0x0812
  else if leAt d 4 4 ≠ 0 then 0x0801
  else if op = 1 then must (base 16 && base 24 && base 32 && base 40) else 0

/-- Values of 0x1100 to 0x22FF. -/
def lowValue (idx sub v : Nat) (d : Bytes) : Nat :=
  match idx, sub with
  | 0x1100, 3 => within 1 32 v
  | 0x1100, 4 => within 2 255 v
  | 0x1100, 14 => within 10 10000 v
  | 0x1101, 2 => within 1 2 (leAt d 0 1)
  | 0x1102, 1 => firstBad ((elems 4 d).map (noBits 0xFF))
  | 0x1102, 2 => must (decide (v ≤ 31) || v == 0xFF)
  | 0x1102, 3 => noBits 0xF0 v
  | 0x1200, 4 => stagedOk d
  | 0x1200, _ => within 1 1 v
  | 0x1300, 1 => if !inHost (leAt d 0 8) (leAt d 8 4) then 0x0812 else noBits 0xFFFFFFFF (leAt d 12 4)
  | 0x1300, 4 => if 3 < leAt d 0 1 then 0x0812 else noBits 0xFFFFFF (leAt d 1 3)
  | 0x1300, 5 => within 0 3 v
  | 0x1300, 9 => within 1 2 (leAt d 0 1)
  | 0x1300, 12 => within 1 1 v
  | 0x2000, 1 => within 0 2 v
  | 0x2000, 3 => within 0 1 v
  | 0x2000, 4 => within 0 1 v
  | 0x2000, 10 => noBits 0xFC v
  | 0x2110, 1 => within 1000 18000 v
  | 0x2110, 2 => must ((elems 1 d).all (fun f => decide (2 ≤ f)) && (elems 1 d).sum == 100)
  | 0x2110, 4 => within 0 1 v
  | 0x2110, 5 => pointOk v
  | 0x2110, 6 => within 4000 15000 v
  | 0x2110, 7 => within 1 1000 v
  | 0x2120, 1 => must ((elems 2 d).all profileOk)
  | 0x2130, 4 => within 70 100 v
  | _, _ => 0

/-- Values of the queues, contexts and ports (Table 13.10). -/
def hostValue (idx sub v : Nat) (d : Bytes) : Nat :=
  match idx, sub with
  | 0x3000, 2 => within 1 4 v
  | 0x3001, _ => firstBad ((elems 8 d).map mapOk)
  | 0x3040, 1 => within 0 2 v
  | 0x3040, 4 => must (decide (16 ≤ v) && decide (v ≤ 4096) && (2 ^ Nat.log2 v == v))
  | 0x3040, 6 => within 0 15 v
  | 0x3040, 7 => within 1 256 v
  | 0x3040, 8 => within 0 1000 v
  | 0x3100, 1 => within 0 1 v
  | 0x3100, 2 => within 0 3 v
  | 0x3100, 3 => within 0 31 v
  | 0x3100, 4 => within 0 3 v
  | 0x3100, 5 => within 0 31 v
  | 0x3100, 6 => within 0 3 v
  | 0x3100, 7 => within 0 1 v
  | 0x3100, 9 => within 2 64 v
  | 0x3100, 11 => within 2 64 v
  | 0x3100, 13 => within 0 63 v
  | 0x3100, 14 => noBits 0x7000 v
  | 0x3100, 15 => within 1000 100000 v
  | 0x3180, 1 => within 0 1 v
  | 0x3180, 2 => within 0 1 v
  | 0x3180, 3 => within 0 1 v
  | 0x3180, 4 => within 0 3 v
  | 0x3180, 5 => within 1 32 v
  | 0x3180, 6 => within 0 2 v
  | 0x3180, 7 => noBits 0xF0 v
  | _, _ => 0

/-- Values of scheduling, numerics and memory. A home mask shares no core with another partition's (R125), and a slot's band
and the bypass bounds are in order (R83, Table 7.9). -/
def World.midValue (w : World) (rq : Rq) (idx inst sub v : Nat) (d : Bytes) : Nat :=
  let s := w.num.slots.get {} (w.selOf rq 0x3301)
  let i := toSigned 32 (leAt d 0 4)
  let s8 := decide (-128 ≤ i) && decide (i ≤ 127)
  match idx, sub with
  | 0x3200, 2 => must (decide (v ≤ 127) || v == 0xFF)
  | 0x3220, 1 => must (w.sched.parts.zipIdx.all (fun e => e.2 == inst || decide (Nat.land e.1.home v = 0)))
  | 0x3220, 3 => within 0 1023 v
  | 0x3220, 4 => within 1 64 v
  | 0x3230, 1 => noBits 0xFE00 v
  | 0x3300, 1 => within 0 1 v
  | 0x3300, 2 => within 0 1 v
  | 0x3300, 3 => within 0 1 v
  | 0x3300, 6 => within 0 1 v
  | 0x3300, 7 => within 0 2 v
  | 0x3300, 11 => within 1 30 v
  | 0x3300, 12 => within 1 30 v
  | 0x3300, 13 => within 1 30 v
  | 0x3300, 14 => within 0 2 v
  | 0x3300, 16 => within 1 7 v
  | 0x3300, 20 => within 1 16 v
  | 0x3300, 21 => within 1 15 v
  | 0x3301, 1 => within 0 1023 v
  | 0x3301, 2 => must s8
  | 0x3301, 3 => within 0 1 v
  | 0x3301, 4 => within 1 16 v
  | 0x3301, 5 => within 1 15 v
  | 0x3301, 6 => must (s8 && decide (i ≤ s.hi))
  | 0x3301, 7 => must (s8 && decide (s.lo ≤ i))
  | 0x3400, 8 => within 1 168 v
  | 0x3400, 18 => within 0 16 v
  | 0x3401, 1 => within 0 2 v
  | 0x3401, 2 => must (decide (2 ≤ v) && decide (v ≤ 64) && decide (v ≤ w.mem.strHi))
  | 0x3401, 3 => must (decide (2 ≤ v) && decide (v ≤ 64) && decide (w.mem.strLo ≤ v))
  | 0x3402, 1 => within 0 2 v
  | _, _ => 0

/-- Values of training, the job and the tenants. -/
def World.highValue (w : World) (idx sub v : Nat) (d : Bytes) : Nat :=
  match idx, sub with
  | 0x3500, 1 => within 0 1 v
  | 0x3520, 1 => within 0 4095 v
  | 0x3600, 1 => within 1 128 v
  | 0x3600, 2 => must ([1, 2, 4].contains (v % 16) && [1, 2, 4].contains (v / 16))
  | 0x3600, 3 => within 0 15 v
  | 0x3600, 6 => within 1 2 v
  | 0x3630, 1 => within 0 1 v
  | 0x3630, 2 => within 1 1000000 v
  | 0x3650, 4 => within 1 255 v
  | 0x3700, 4 => (firstFail (w.sessionFails d)).getD 0
  | 0x3701, 1 => within 0 4095 v
  | 0x3702, 1 => (firstFail (w.recordFails d)).getD 0
  | 0x3702, 2 => commandOk d
  | _, _ => 0

/-- The status of a value of the right length for an object. -/
def World.valueStatus (w : World) (rq : Rq) (index sub : Nat) (d : Bytes) : Nat :=
  let (idx, inst) := baseOf index
  let v := leVal d
  if idx < 0x3000 then lowValue idx sub v d
  else if idx < 0x3200 then hostValue idx sub v d
  else if idx < 0x3500 then w.midValue rq idx inst sub v d
  else w.highValue idx sub v d

/-! What a write to an object does (R289, R290). -/

/-- Writes of 0x1100 to 0x22FF, but for levels, debug and †. -/
def World.writeLow (w : World) (idx sub v : Nat) (d : Bytes) : World :=
  match idx, sub with
  | 0x1100, 3 => { w with adp := { w.adp with plcaN := v } }
  | 0x1100, 4 => { w with adp := { w.adp with plcaTo := v } }
  | 0x1100, 14 => { w with adp := { w.adp with segMs := v } }
  | 0x1101, 5 => { w with adp := { w.adp with idleS := v } }
  | 0x1102, 1 =>
    let l := elems 4 d
    let told := (List.zip l (List.zip w.adp.watch w.adp.told)).map (fun e => if e.1 = e.2.1 then e.2.2 else [])
    { w with adp := { w.adp with watch := l, told := told } }
  | 0x1102, 2 => { w with adp := { w.adp with noteNode := v } }
  | 0x1102, 3 => { w with adp := { w.adp with noteCar := v } }
  | 0x1200, 4 => { w with sec := { w.sec with staged := some d } }
  | 0x2000, 1 => w.requestState v
  | 0x2000, 3 => { w with power := { w.power with lowTarget := v } }
  | 0x2000, 4 => { w with power := { w.power with leaveIdle := decide (v = 1) } }
  | 0x2000, 10 => { w with power := { w.power with dozeSrc := v } }
  | 0x2110, 1 => { w with pt := { w.pt with cap := v } }
  | 0x2110, 2 => { w with pt := { w.pt with frac := elems 1 d } }
  | 0x2110, 4 => ({ w with pt := { w.pt with lowE := decide (v = 1) } } : World).noteReasons
  | 0x2110, 5 => { w with pt := { w.pt with lowCeil := v } }
  | 0x2110, 6 => { w with pt := { w.pt with softMa := v } }
  | 0x2110, 7 => { w with pt := { w.pt with holdMs := v } }
  | 0x2120, 1 => ({ w with pt := { w.pt with profiles := elems 2 d } } : World).noteReasons
  | 0x2130, 4 => { w with meter := { w.meter with onset := v } }
  | _, _ => w

/-- A field of a queue. -/
def Queue.put (q : Queue) (sub v : Nat) : Queue :=
  match sub with
  | 2 => { q with taskBase := v }
  | 3 => { q with compBase := v }
  | 4 => { q with e := v }
  | 5 => { q with s := v }
  | 6 => { q with ceil := v }
  | 7 => { q with coalN := v }
  | 8 => { q with coalUs := v }
  | _ => q

/-- A queue that is enabled: F and P become S, C and A become 0 (R321). -/
def Queue.start (q : Queue) : Queue :=
  { q with enabled := true, st := 1, err := 0, f := q.s, p := q.s, c := 0, a := 0, cancel := none, unsig := 0, posts := [] }

/-- Whether a queue may be enabled: both bases are 64-byte aligned, and E is a power of two from 16 to 4,096 (R321). -/
def Queue.canStart (q : Queue) : Bool :=
  q.taskBase % 64 == 0 && q.compBase % 64 == 0 && decide (16 ≤ q.e) && decide (q.e ≤ 4096) && 2 ^ Nat.log2 q.e == q.e

/-- A write of 0 or 1 to queue control, or of a queue's settings (R321, R328). -/
def World.writeQueue (w : World) (n sub v : Nat) : World × Nat :=
  let q := w.queue n
  if sub = 1 then
    if v = 0 then (w.updQueue n (fun q => { q with enabled := false, st := 0, cancel := none }), 0)
    else if q.resetting then (w, 0x0819)
    else if q.enabled then (w, 0)
    else if q.canStart then (w.updQueue n Queue.start, 0)
    else (w, 0x0812)
  else if sub ≤ 6 ∧ (q.enabled ∨ q.resetting) then (w, 0x0819)
  else (w.updQueue n (fun q => q.put sub v), 0)

/-- A field of a stream context. -/
def Ctx.put (c : Ctx) (sub v : Nat) : Ctx :=
  match sub with
  | 2 => { c with src := v }
  | 3 => { c with srcSlot := v }
  | 4 => { c with sink := v }
  | 5 => { c with sinkSlot := v }
  | 6 => { c with rate := v }
  | 7 => { c with fmt := v }
  | 8 => { c with inBase := v }
  | 9 => { c with nIn := v }
  | 10 => { c with outBase := v }
  | 11 => { c with nOut := v }
  | 12 => { c with sems := v }
  | 13 => { c with queue := v }
  | 14 => { c with tenant := v }
  | 15 => { c with latency := v }
  | _ => c

/-- A write to a stream context: it is opened, closed, or set while it is closed (R335). -/
def World.writeCtx (v : Vault) (w : World) (c sub x : Nat) : World × Nat :=
  let k := w.ctx c
  if sub = 1 then
    if x = 0 then (w.updCtx c (fun k => { k with isOpen := false, capture := false }), 0)
    else if k.isOpen then (w, 0)
    else
      let status := w.openStatus v c k
      if status = 0 then (w.openCtx c, 0) else (w, status)
  else if k.isOpen then (w, 0x0819)
  else (w.updCtx c (fun k => k.put sub x), 0)

/-- A field of a TDM port. -/
def Tdm.put (t : Tdm) (sub v : Nat) : Tdm :=
  match sub with
  | 2 => { t with mode := v }
  | 3 => { t with role := v }
  | 4 => { t with rate := v }
  | 5 => { t with slots := v }
  | 6 => { t with width := v }
  | 7 => { t with timing := v }
  | _ => t

/-- A write to a TDM port: it is enabled, disabled, or set while it is disabled (R332). -/
def World.writeTdm (w : World) (p sub v : Nat) : World × Nat :=
  let t := w.tdm p
  if sub = 1 then
    if v = 0 then (w.updTdm p (fun t => { t with en := false, st := 0, good := 0 }), 0)
    else if t.en then (w, 0)
    else if t.ok then (w.enableTdm p, 0)
    else (w, 0x0812)
  else if t.en then (w, 0x0819)
  else (w.updTdm p (fun t => t.put sub v), 0)

/-- A write to the host port's objects. -/
def World.writeHost (v : Vault) (w : World) (idx inst sub x : Nat) (d : Bytes) : World × Nat :=
  match idx with
  | 0x3000 => ({ w with host := { w.host with target := x } }, 0)
  | 0x3001 => ({ w with host := { w.host with map := elems 8 d } }, 0)
  | 0x3040 => w.writeQueue inst sub x
  | 0x3100 => w.writeCtx v inst sub x
  | 0x3180 => w.writeTdm inst sub x
  | _ => (w, 0)

/-- A field of a partition. -/
def Part.put (p : Part) (sub v : Nat) : Part :=
  match sub with
  | 1 => { p with home := v }
  | 2 => { p with borrow := v }
  | 3 => { p with rate := v }
  | 4 => { p with depth := v }
  | _ => p

/-- A field of a scale slot (R83, R428). -/
def Slot.put (s : Slot) (sub v : Nat) : Slot :=
  let i := toSigned 32 v
  match sub with
  | 2 => { s with s := i }
  | 3 => { s with pinned := decide (v = 1) }
  | 4 => { s with d := some v }
  | 5 => { s with h := some v }
  | 6 => { s with lo := i }
  | 7 => { s with hi := i }
  | _ => s

/-- A default of the numerics objects. -/
def Num.put (n : Num) (sub v : Nat) : Num :=
  match sub with
  | 1 => { n with ftz := v }
  | 2 => { n with sat := v }
  | 3 => { n with blk := v }
  | 6 => { n with accov := v }
  | 7 => { n with grp := v }
  | 11 => { n with k4 := v }
  | 12 => { n with k8 := v }
  | 13 => { n with k16 := v }
  | 14 => { n with wcap := v }
  | 16 => { n with outT := v }
  | 20 => { n with defD := v }
  | 21 => { n with defH := v }
  | _ => n

/-- A write to scheduling, numerics and memory. A semaphore's value is written over its own; its waiters are then released as
SEM_RELEASE gives it (R139). -/
def World.writeMid (w : World) (rq : Rq) (idx inst sub v : Nat) : World :=
  let n := w.selOf rq 0x3230
  match idx, sub with
  | 0x3200, 1 => { w with sched := { w.sched with holdBudget := v } }
  | 0x3200, 2 => { w with sched := { w.sched with semHome := v } }
  | 0x3220, _ => { w with sched := { w.sched with parts := modAt w.sched.parts inst (fun p => p.put sub v) } }
  | 0x3230, 1 => w.updSels rq.client (fun s => { s with sem := v })
  | 0x3230, 2 => w.updSem (bitAt n 8) (n % 256) (fun s => { s with value := v })
  | 0x3300, _ => { w with num := w.num.put sub v }
  | 0x3301, 1 => w.updSels rq.client (fun s => { s with slot := v })
  | 0x3301, _ => { w with num := { w.num with slots := w.num.slots.upd {} (w.selOf rq 0x3301) (fun s => s.put sub v) } }
  | 0x3400, 8 => { w with mem := { w.mem with patrolH := v } }
  | 0x3400, 18 => { w with mem := { w.mem with quota := v } }
  | 0x3401, 1 => { w with mem := { w.mem with strMode := v } }
  | 0x3401, 2 => { w with mem := { w.mem with strLo := v } }
  | 0x3401, 3 => { w with mem := { w.mem with strHi := v } }
  | 0x3402, 1 => { w with mem := { w.mem with cmpMode := v } }
  | _, _ => w

/-- A write to training, the job's settings and the selectors of tenants. -/
def World.writeHigh (w : World) (rq : Rq) (idx sub v : Nat) : World :=
  match idx, sub with
  | 0x3500, 1 => { w with train := { w.train with mode := v } }
  | 0x3510, 1 => { w with train := { w.train with reserve := v } }
  | 0x3510, 2 => { w with train := { w.train with margin := v } }
  | 0x3510, 4 => { w with train := { w.train with estNone := v } }
  | 0x3511, 1 => w.updSels rq.client (fun s => { s with prog := v })
  | 0x3520, 1 => w.updSels rq.client (fun s => { s with ledger := v })
  | 0x3600, 1 => { w with link := { w.link with jobSize := v } }
  | 0x3600, 2 => { w with link := { w.link with grid := v } }
  | 0x3600, 3 => { w with link := { w.link with tray := v } }
  | 0x3630, 1 => { w with link := { w.link with policy := v } }
  | 0x3630, 2 => { w with link := { w.link with deadline := v } }
  | 0x3650, 4 => { w with link := { w.link with limit := v } }
  | 0x3701, 1 => w.updSels rq.client (fun s => { s with tenant := v })
  | _, _ => w

/-- A write that is not pending, and not of a level or of debug: the engine after it, and its status. -/
def World.writeObj (v : Vault) (w : World) (rq : Rq) (index sub : Nat) (d : Bytes) : World × Nat :=
  let (idx, inst) := baseOf index
  let x := leVal d
  if idx < 0x3000 then (w.writeLow idx sub x d, 0)
  else if idx < 0x3200 then w.writeHost v idx inst sub x d
  else if idx < 0x3500 then (w.writeMid rq idx inst sub x, 0)
  else (w.writeHigh rq idx sub x, 0)

end Sys2Proof.Machine
end

