-- ==== Sys2Proof/Machine/Adp.lean ====
section
/-! DEFINITION. The Apdar dictionary protocol: levels and debug unlocking, the checks of a message, its answer, segmented
transfers, and the two carriers (R285 to R314, R390, R391; 12_object_dictionary_and_protocol.md). -/

namespace Sys2Proof.Machine

/-! Security levels (R310 to R312, R417). -/

/-- The byte that names a client in an HMAC message: its node, or 0xFE for the window (R310). -/
def clientByte (id : Nat) : Byte := if id = 254 then 0xFE#8 else byteOf id

/-- How long a lockout lasts after a number of consecutive wrong responses, in ns: 1 s after three, doubling to 64 s (R312). -/
def lockoutNs (n : Nat) : Nat := if n < 3 then 0 else min 64 (2 ^ (n - 3)) * 1000000000

/-- A wrong level response (R310, R312). -/
def World.wrongLevel (w : World) (id : Nat) : World :=
  let w := { w with adp := { w.adp with wrong := sat32 w.adp.wrong 1 } }
  w.updClient id (fun c => { c with chal := none, wrong := c.wrong + 1, locked := if c.wrong + 1 < 3 then c.locked else w.now + lockoutNs (c.wrong + 1) })

/-- Whether a client's level can be kept: the window's, and those of eight nodes (12_object_dictionary_and_protocol.md). -/
def World.keepsLevel (w : World) (id : Nat) : Bool :=
  decide (id = 254) || decide ((w.stn.clients.filter (fun c => decide (c.id ≠ 254) && decide (c.id ≠ id) && decide (c.level ≠ 0))).length < 8)

/-- A level response: the level wanted, and the HMAC-SHA-256 of the challenge, the level, the client and the chip (R310). -/
def World.answerLevel (o : Otp) (w : World) (id : Nat) (d : Bytes) : World × Nat :=
  let lvl := leAt d 0 1
  let c := w.client id
  let key := if lvl = 1 then w.integratorKey else w.factoryPassword
  let m := fun (ch : Nat) => leBytes 16 ch ++ [byteOf lvl, clientByte id] ++ slice w.live.factory 0 8
  if !w.live.hasRec || (lvl == 2 && bitAt o.secBits 2) then (w, 0x0705)
  else if lvl = 2 ∧ w.stn.clients.any (fun x => decide (x.id ≠ id) && x.level == 2) then (w, 0x0816)
  else if c.chal.any (fun ch => decide (hmac key (m ch) = slice d 1 32)) then
    (w.updClient id (fun c => { c with chal := none, wrong := 0, locked := 0, level := if w.keepsLevel id then lvl else 0 }), 0)
  else (w.wrongLevel id, 0x0703)

/-- A fresh challenge for a level (R310, R312, R375): its status and its 16 bytes. -/
def World.challenge (w : World) (id : Nat) : World × Nat × Bytes :=
  if (w.client id).locked ≠ 0 then (w, 0x0704, [])
  else if w.sec.entropyBad then (w, 0x070E, [])
  else
    let (w, ch) := w.draw
    (w.updClient id (fun c => { c with chal := some ch }), 0, leBytes 16 ch)

/-- A client returns to the open level (R311). -/
def World.closeLevel (w : World) (id : Nat) : World := w.updClient id (fun c => { c with level := 0 })

/-! Debug unlocking (R391). -/

/-- A fresh debug challenge. -/
def World.debugChallenge (w : World) (id : Nat) : World × Nat × Bytes :=
  if (w.client id).dlocked ≠ 0 then (w, 0x0704, [])
  else if w.sec.entropyBad then (w, 0x070E, [])
  else
    let (w, ch) := w.draw
    (w.updClient id (fun c => { c with dchal := some ch }), 0, leBytes 16 ch)

/-- Whether a debug response is right for a challenge, by its method. -/
def World.debugRight (w : World) (method ch : Nat) (r : Bytes) : Bool :=
  if method = 1 then hmac w.debugKey (leBytes 16 ch ++ [1#8] ++ slice w.live.factory 0 8 ++ strBytes "DEBUG") == r
  else w.factoryPassword ++ zeros 24 == r

/-- A debug response. -/
def World.answerDebug (o : Otp) (v : Vault) (w : World) (id : Nat) (d : Bytes) : World × Nat :=
  let method := leAt d 0 1
  let c := w.client id
  if bitAt o.secBits 1 then (w, 0x070C)
  else if method = 2 ∧ bitAt o.secBits 2 then (w, 0x0705)
  else if !v.held.isEmpty || w.sec.session || decide (w.link.jobState ≠ 0) then (w, 0x070A)
  else if c.dchal.any (fun ch => w.debugRight method ch (slice d 1 32)) then
    let w := w.updClient id (fun c => { c with dchal := none, dwrong := 0, dlocked := 0 })
    ({ w with sec := { w.sec with unlocked := true } }.event 0x0030 srcClient id method id, 0)
  else (w.updClient id (fun c => { c with dchal := none, dwrong := c.dwrong + 1, dlocked := if c.dwrong + 1 < 3 then c.dlocked else w.now + lockoutNs (c.dwrong + 1) }), 0x0703)

/-! Messages (Table 12.4). -/

/-- A message, its fields read as zero past its end. -/
structure Msg where
  len : Nat
  version : Nat
  kind : Nat
  src : Nat
  dst : Nat
  txn : Nat
  dlen : Nat
  index : Nat
  sub : Nat
  flags : Nat
  aux : Nat
  status : Nat
  data : Bytes
  deriving DecidableEq, Repr

/-- The fields of a message. -/
def msgOf (b : Bytes) : Msg :=
  { len := b.length
    version := leAt b 0 1
    kind := leAt b 1 1
    src := leAt b 2 1
    dst := leAt b 3 1
    txn := leAt b 4 2
    dlen := leAt b 6 2
    index := leAt b 8 2
    sub := leAt b 10 1
    flags := leAt b 11 1
    aux := leAt b 12 2
    status := leAt b 14 2
    data := b.drop 16 }

/-- Kinds of Table 12.5. -/
def kRead : Nat := 0x01
def kWrite : Nat := 0x02
def kReadSeg : Nat := 0x03
def kWriteSeg : Nat := 0x04
def kAbort : Nat := 0x05
def kDiscover : Nat := 0x08
def kAck : Nat := 0x11

/-- Whether the header before the index is malformed (R293). The window names 0xFE at both ends (R304). -/
def Msg.malformed (m : Msg) (window : Bool) : Bool :=
  decide (m.len < 16) || decide (m.version ≠ 1) ||
    !([kRead, kWrite, kReadSeg, kWriteSeg, kAbort, kDiscover, kAck].contains m.kind) ||
    (if window then decide (m.src ≠ 254) || !(m.dst == 254 || (m.dst == 255 && m.kind == kDiscover)) else decide (31 < m.src)) ||
    decide (m.dlen ≠ m.data.length) || decide (1024 < m.dlen) || (decide (m.dlen ≠ 0) && !(m.kind == kWrite || m.kind == kWriteSeg))

/-- Whether a WRITE carries segment 0 of a longer value (R296). -/
def Msg.opens (m : Msg) : Bool := m.kind == kWrite && !bitAt m.flags 1 && m.dlen == 1024

/-- What is owed to a pending write once its answer is sent (R289): the object and the value. -/
structure Owed where
  pend : Pend
  index : Nat
  sub : Nat
  value : Bytes
  deriving DecidableEq, Repr

/-- The answer to a request: the engine after it, and the status, data, flags and Aux of the response. -/
structure Answer where
  st : State
  status : Nat := 0
  data : Bytes := []
  flags : Nat := 0
  aux : Nat := 0
  owed : Option Owed := none

/-- A refusal that changes nothing. -/
def State.refuse (st : State) (status : Nat) : Answer := { st := st, status := status }

/-! Objects (R292). -/

/-- The checks at the index and subindex: firmware presence, whether the object is defined, and, for a read or a whole write, its
access, the Idle condition and the level. A refusal's status, and the object (none for subindex 0). -/
def World.objCheck (w : World) (id index sub : Nat) (write whole : Bool) : Nat × Option ObjRun :=
  if !w.fwRuns && !inBoot index then (0x080D, none)
  else match runsOf index with
    | none => (0x080E, none)
    | some rs =>
      if sub = 0 then (if write && whole then 0x0810 else 0, none)
      else match objAt rs sub with
        | none => (0x080F, none)
        | some r =>
          if !write then (if r.acc = .wo then 0x0810 else 0, some r)
          else if !whole then (0, some r)
          else if r.acc = .ro then (0x0810, some r)
          else if r.acc = .rwi ∧ w.power.st ≠ .idle then (0x0811, some r)
          else if w.levelOf id < r.level then (0x0702, some r)
          else (0, some r)

/-- The check of a selector override at the Aux field, and of a global semaphore where there is none (R291, R426). -/
def World.selCheck (w : World) (rq : Rq) (index sub : Nat) : Nat :=
  if !selected index sub then 0
  else if rq.sel.any (fun s => (selLimit index).any (fun n => decide (n ≤ s))) then 0x0812
  else if w.noSem rq index sub then 0x0809
  else 0

/-- Reads an object: its status and value. A read of a challenge draws one (R310, R391). -/
def State.readOf (st : State) (rq : Rq) (index sub : Nat) : State × Nat × Bytes :=
  if index = 0x1101 ∧ sub = 1 then let r := st.w.challenge rq.client; ({ st with w := r.1 }, r.2)
  else if index = 0x1300 ∧ sub = 8 then let r := st.w.debugChallenge rq.client; ({ st with w := r.1 }, r.2)
  else (st, 0, st.w.readObj st.otp st.vault rq index sub)

/-- Whether a write of an object is answered as pending (R425). -/
def isPending (r : ObjRun) (index sub : Nat) (d : Bytes) : Bool := r.pend || ((baseOf index).1 == 0x3040 && sub == 1 && leVal d == 2)

/-- A write that passed its checks and takes effect before its response: the engine after it, and its status. -/
def State.writeNow (st : State) (rq : Rq) (index sub : Nat) (d : Bytes) : State × Nat :=
  let r :=
    if index = 0x1101 ∧ sub = 2 then st.w.answerLevel st.otp rq.client d
    else if index = 0x1101 ∧ sub = 4 then (st.w.closeLevel rq.client, 0)
    else if index = 0x1300 ∧ sub = 9 then st.w.answerDebug st.otp st.vault rq.client d
    else if index = 0x1300 ∧ sub = 11 then st.w.relock st.vault rq.client
    else st.w.writeObj st.vault rq index sub d
  ({ st with w := r.1 }, r.2)

/-- Writes an object whole: every check in the order of R292, and the effect or the pending answer (R289). -/
def State.writeOf (st : State) (rq : Rq) (index sub : Nat) (d : Bytes) : Answer :=
  match st.w.objCheck rq.client index sub true true with
  | (0, some r) =>
    let sel := st.w.selCheck rq index sub
    if sel ≠ 0 then st.refuse sel
    else if d.length ≠ r.len then st.refuse 0x0813
    else
      let bad := st.w.valueStatus rq index sub d
      if bad ≠ 0 then st.refuse bad
      else if isPending r index sub d then
        { st := st, status := 0x0103, owed := some { pend := { client := rq.client, mac := rq.mac, txn := rq.txn, index := index, sub := sub }, index := index, sub := sub, value := d } }
      else let e := st.writeNow rq index sub d; { st := e.1, status := e.2 }
  | (s, _) => st.refuse s

/-- What a pending write does once it is answered (R289). The peers are what the other engines of a job report at its start. -/
def State.doOwed (st : State) (peers : List Peer) (o : Owed) : State :=
  let p := o.pend
  let d := o.value
  let (idx, inst) := baseOf o.index
  match idx, o.sub with
  | 0x1200, 5 => st.programRecord p
  | 0x1200, 9 => st.program p (.security 4)
  | 0x1300, 1 => st.onW (fun w => w.loadFirmware p (leAt d 0 8) (leAt d 8 4))
  | 0x1300, 4 => st.programSlot p (leAt d 0 1) (slice d 4 32)
  | 0x1300, 5 => st.revokeSlot p (leAt d 0 1)
  | 0x1300, 12 => st.program p (.security 2)
  | 0x3040, 1 => st.onW (fun w => (w.updQueue inst (fun q => { q with resetReq := q.resetReq ++ [p] })).resetQueue inst false)
  | 0x3600, 6 => st.onW (fun w => if leVal d = 1 then w.startJob p peers else w.stopJob p)
  | 0x3700, 4 => if leAt d 0 1 = 1 then st.openSession p d else st.closeSession p d
  | 0x3702, 1 => st.createTenant p d
  | 0x3702, 2 => if leAt d 0 1 = 1 then st.importTenant p d else st.retireTenant p d
  | _, _ => st

/-! Segmented transfers (R295 to R297). -/

/-- A client's open transfer, timed out or not. -/
def World.transfer (w : World) (id : Nat) : Option Transfer := w.stn.transfers.find? (fun t => t.client == id)

/-- Ends a client's transfer. -/
def World.endTransfer (w : World) (id : Nat) : World :=
  { w with stn := { w.stn with transfers := w.stn.transfers.filter (fun t => decide (t.client ≠ id)) } }

/-- Whether a fifth transfer would be opened. -/
def World.transfersFull (w : World) : Bool := decide (4 ≤ (w.stn.transfers.filter (fun t => !t.timedOut)).length)

/-- Opens a transfer. -/
def World.openTransfer (w : World) (t : Transfer) : World := { w with stn := { w.stn with transfers := w.stn.transfers ++ [t] } }

/-- The number of segments of a value. -/
def segCount (d : Bytes) : Nat := cdiv d.length 1024

/-- Changes a client's transfer. -/
def World.updTransfer (w : World) (id : Nat) (f : Transfer → Transfer) : World :=
  { w with stn := { w.stn with transfers := w.stn.transfers.map (fun t => if t.client = id then f t else t) } }

/-- READ (R295): the whole value, or segment 0 of a snapshot. -/
def State.doRead (st : State) (rq : Rq) (m : Msg) : Answer :=
  let (st, status, d) := st.readOf rq m.index m.sub
  if status ≠ 0 then st.refuse status
  else if d.length ≤ 1024 then { st := st, data := d, flags := 2, aux := 1 }
  else
    let w := st.w.endTransfer rq.client
    if w.transfersFull then { st := { st with w := w }, status := 0x0816 }
    else
      { st := { st with w := w.openTransfer { client := rq.client, write := false, index := m.index, sub := m.sub, sel := rq.sel, txn := rq.txn, mac := rq.mac, data := d } }
        data := slice d 0 1024
        aux := segCount d }

/-- WRITE (R289, R296): a whole value, or segment 0 of a longer one. -/
def State.doWrite (st : State) (rq : Rq) (m : Msg) : Answer :=
  if !m.opens then st.writeOf rq m.index m.sub m.data
  else
    let w := st.w.endTransfer rq.client
    if w.transfersFull then { st := { st with w := w }, status := 0x0816 }
    else { st := { st with w := w.openTransfer { client := rq.client, write := true, index := m.index, sub := m.sub, sel := rq.sel, txn := rq.txn, mac := rq.mac, data := m.data } } }

/-- READ_SEG (R295): a segment of the snapshot; the last one ends the transfer (R297). -/
def State.doReadSeg (st : State) (rq : Rq) (m : Msg) (t : Transfer) : Answer :=
  let n := segCount t.data
  let d := (t.data.drop (1024 * m.aux)).take 1024
  if m.aux + 1 = n then { st := st.onW (fun w => w.endTransfer rq.client), data := d, flags := 2, aux := m.aux }
  else { st := st, data := d, aux := m.aux }

/-- WRITE_SEG (R296): a segment is staged; with the last one the whole value is checked and applied. -/
def State.doWriteSeg (st : State) (rq : Rq) (m : Msg) (t : Transfer) : Answer :=
  if bitAt m.flags 1 then
    { (st.onW (fun w => w.endTransfer rq.client)).writeOf { rq with sel := t.sel } t.index t.sub (t.data ++ m.data) with flags := 2, aux := m.aux }
  else if m.dlen ≠ 1024 then { st := st.onW (fun w => w.endTransfer rq.client), status := 0x0814, aux := m.aux }
  else { st := st.onW (fun w => w.updTransfer rq.client (fun t => { t with data := t.data ++ m.data, next := t.next + 1 })), aux := m.aux }

/-- The data of a DISCOVER response (R294). -/
def State.identity (st : State) : Bytes :=
  let w := st.w
  slice w.live.factory 0 8 ++ leBytes 4 w.sec.fw ++ slice w.live.factory 12 2 ++
    [byteOf w.live.cls, byteOf w.power.st.code, byteOf w.live.nodeId, byteOf w.link.logical, 0#8, 0#8]

/-! The answer to a message (R292, R293, R313). -/

/-- The transfer checks of a segment at its index and at its Aux field: a status, or the transfer (R296, R297). -/
def World.segCheck (w : World) (id : Nat) (m : Msg) : Nat × Option Transfer :=
  match w.transfer id with
  | none => (0x0814, none)
  | some t =>
    if t.timedOut then (0x0815, some t)
    else if decide (t.write ≠ (m.kind == kWriteSeg)) || decide (t.index ≠ m.index) || decide (t.sub ≠ m.sub) then (0x0814, some t)
    else if Nat.land m.flags 0xFD ≠ 0 then (0x0817, some t)
    else if (if t.write then decide (m.aux ≠ t.next) else decide (segCount t.data ≤ m.aux)) then (0x0814, some t)
    else if m.status ≠ 0 then (0x0817, some t)
    else (0, some t)

/-- A segment of either direction. What it names is checked as for its READ, and for its WRITE but for what the last segment decides
(R292, R296). A segment out of order of a WRITE, or one of a transfer that timed out, ends the transfer. -/
def State.doSeg (st : State) (rq : Rq) (m : Msg) : Answer :=
  let named := (st.w.objCheck rq.client m.index m.sub (m.kind == kWriteSeg) false).1
  if named ≠ 0 then st.refuse named
  else match st.w.segCheck rq.client m with
  | (0, some t) => if t.write then st.doWriteSeg rq m t else st.doReadSeg rq m t
  | (s, some t) =>
    if s = 0x0815 ∨ (s = 0x0814 ∧ t.write ∧ m.kind = kWriteSeg) then { st := st.onW (fun w => w.endTransfer rq.client), status := s } else st.refuse s
  | (s, none) => st.refuse s

/-- What an ABORT names, where it names an object: 0, or the status of its first failed check (R292; log entry 88). -/
def World.abortCheck (w : World) (id : Nat) (m : Msg) : Nat :=
  if m.index = 0 ∧ m.sub = 0 then 0 else (w.objCheck id m.index m.sub true false).1

/-- The answer to an ABORT: the client's transfer ends (R297). -/
def State.doAbort (st : State) (rq : Rq) (m : Msg) : Answer :=
  let named := st.w.abortCheck rq.client m
  if named ≠ 0 then st.refuse named
  else if Nat.land m.flags 0xFD ≠ 0 ∨ m.status ≠ 0 then st.refuse 0x0817
  else { st := st.onW (fun w => w.endTransfer rq.client) }

/-- The answer to a READ or a WRITE. -/
def State.doObject (st : State) (rq : Rq) (m : Msg) : Answer :=
  let write := m.kind == kWrite
  match st.w.objCheck rq.client m.index m.sub write (!m.opens) with
  | (0, _) =>
    if Nat.land m.flags 0xFC ≠ 0 then st.refuse 0x0817
    else
      let rq := { rq with sel := if bitAt m.flags 0 && selected m.index m.sub then some m.aux else none }
      let sel := st.w.selCheck rq m.index m.sub
      if sel ≠ 0 then st.refuse sel
      else if m.status ≠ 0 then st.refuse 0x0817
      else if write then st.doWrite rq m
      else st.doRead rq m
  | (s, _) => st.refuse s

/-- Whether a message of a client is a NOTIFY_ACK that is well formed, which is not answered (Table 12.5, R307). -/
def Msg.isAck (m : Msg) (window : Bool) : Bool :=
  !m.malformed window && m.kind == kAck && Nat.land m.flags 0xFD == 0 && m.status == 0

/-- The answer to a message of a client; none to a NOTIFY_ACK that is well formed (R293, R307). -/
def State.answer (st : State) (window : Bool) (mac : Nat) (m : Msg) : Option Answer :=
  let client := if window then 254 else m.src
  let rq : Rq := { client := client, mac := mac, txn := m.txn }
  if m.malformed window then some (st.refuse 0x0817)
  else if m.kind = kRead ∨ m.kind = kWrite then some (st.doObject rq m)
  else if m.kind = kReadSeg ∨ m.kind = kWriteSeg then some (st.doSeg rq m)
  else if m.kind = kAbort then some (st.doAbort rq m)
  else if (m.kind = kDiscover ∧ (m.index ≠ 0 ∨ m.sub ≠ 0)) ∨ Nat.land m.flags 0xFD ≠ 0 ∨ m.status ≠ 0 then some (st.refuse 0x0817)
  else if m.kind = kDiscover then some { st := st, data := st.identity }
  else none

/-- NOTIFY_ACK: the notification of the sequence is not sent again (R307). -/
def World.takeAckOf (w : World) (mac seq : Nat) : World :=
  { w with stn := { w.stn with unacked := w.stn.unacked.filter (fun u => !(u.seq == seq && u.mac == mac)) } }

/-- The response to a message: source and destination swapped (R293). -/
def respond (node : Nat) (m : Msg) (status flags aux : Nat) (data : Bytes) : Bytes :=
  adpMsg (m.kind % 128 + 128) (if m.dst = 255 then node else m.dst) m.src m.txn m.index m.sub flags aux status data

/-- Notes the service time of a request that was answered, and one that was refused as BUSY (R300, R308). The spec gives no figure for
the time of a single request but its bound of 1 ms. -/
def World.served (w : World) (status : Nat) : World :=
  let us := min 1000 (Config.freeNs w.sec.used / 1000)
  { w with
    sec := { w.sec with used := w.sec.used + 1 }
    adp := { w.adp with svcLast := us, svcLong := max w.adp.svcLong us, busyCnt := if status = 0x0816 then sat32 w.adp.busyCnt 1 else w.adp.busyCnt } }

/-! The PCIe window (R303 to R305). -/

/-- A run of bytes written over the start of another. -/
def overlay (old new : Bytes) : Bytes := new ++ old.drop new.length

/-- The message in the request buffer: its header and as many bytes as it says follow. -/
def bufferMsg (b : Bytes) : Bytes :=
  let n := leAt b 6 2
  slice b 0 (if n ≤ 1024 then 16 + n else 1040)

/-- BUSY is cleared, DONE is set and vector 64 is sent (R304). -/
def World.windowDone (w : World) : World := { w with stn := { w.stn with busy := false, done := true } }.vector 64

/-- The response is written, and the request is done (R304). -/
def World.windowAnswer (w : World) (resp : Bytes) : World :=
  ({ w with stn := { w.stn with respBuf := overlay w.stn.respBuf resp } }.send (.window resp)).windowDone

/-- Answers a request of the window. Where the window has been cleared since, its response is discarded (R305). -/
def State.serveWindow (st : State) (peers : List Peer) (m : Msg) (lost : Bool) : State :=
  match st.answer true 0 m with
  | none => if lost then st else st.onW World.windowDone
  | some a =>
    let st := a.st.onW (fun w => if lost then w.served a.status else (w.served a.status).windowAnswer (respond 254 m a.status a.flags a.aux a.data))
    a.owed.elim st (fun o => st.doOwed peers o)

/-- A 1 written to GO: the request is copied and waits for the management core, or OVERRUN is set while BUSY is (R304). -/
def World.windowSubmit (w : World) (peers : List Peer) : World :=
  if w.stn.busy then { w with stn := { w.stn with overrun := true } }
  else { w with stn := { w.stn with busy := true, rx := w.stn.rx ++ [.window (bufferMsg w.stn.reqBuf) peers false] } }

/-- A write of the dictionary window: into the request buffer, or, 32 bits wide, of a register. Any other is ignored
(R303, Table 12.7). -/
def World.dictWrite (w : World) (peers : List Peer) (off : Nat) (d : Bytes) : World :=
  let v := leVal d
  if !w.hostUp then w
  else if off + d.length ≤ 1040 then { w with stn := { w.stn with reqBuf := slice w.stn.reqBuf 0 off ++ overlay (w.stn.reqBuf.drop off) d } }
  else if d.length ≠ 4 then w
  else match off with
    | 0xF000 => if v = 1 then w.windowSubmit peers else w
    | 0xF004 => { w with stn := { w.stn with done := w.stn.done && !bitAt v 1, overrun := w.stn.overrun && !bitAt v 2 } }
    | 0xF00C => if v < 256 then { w with stn := { w.stn with tail := v } } else w
    | _ => w

/-- STATUS (Table 12.7). -/
def Stn.status (n : Stn) : Nat := n.busy.toNat + 2 * n.done.toNat + 4 * n.overrun.toNat

/-- A read of `n` bytes of the dictionary window: the response buffer, the notification ring, and, 32 bits wide, a register. `none` is
what the host only writes, whose reading Table 12.7 leaves open; anything else reads 0 (R303). -/
def World.dictRead (w : World) (off n : Nat) : Option Bytes :=
  if off + n ≤ 0x0410 then none
  else if 0x1000 ≤ off ∧ off + n ≤ 0x1410 then some (slice w.stn.respBuf (off - 0x1000) n)
  else if 0x2000 ≤ off ∧ off + n ≤ 0x6000 then
    some ((List.range n).map (fun i => (w.stn.ring.get [] ((off - 0x2000 + i) / 64)).getD ((off - 0x2000 + i) % 64) 0#8))
  else if n ≠ 4 then some (zeros n)
  else match off with
    | 0xF004 => some (leBytes 4 w.stn.status)
    | 0xF008 => some (leBytes 4 w.stn.head)
    | 0xF00C => none
    | _ => some (zeros 4)

/-! 10BASE-T1S (R298 to R302). -/

/-- The ADP group address 03-50-4E-00-00-01. -/
def groupMac : Nat := 0x03504E000001

/-- The EtherType of an ADP frame. -/
def etherType : Nat := 0x88B5

/-- An ADP frame, its header in network order and its payload padded to 46 B; preamble and FCS are the transceiver's (R5, R298). -/
def etherFrame (dst src : Nat) (msg : Bytes) : Bytes :=
  beBytes 6 dst ++ beBytes 6 src ++ beBytes 2 etherType ++ msg ++ zeros (46 - msg.length)

/-- Whether the transceiver runs (R302): in Doze its receiver does. -/
def World.t1sOn (w : World) : Bool := w.power.st == .active || w.power.st == .idle || w.power.st == .doze || (w.power.st == .down && decide (w.power.dstep < 5))

/-- The ADP message of a frame's payload, without the padding to 46 bytes (R298). -/
def unpad (b : Bytes) : Bytes := if b.length ≤ 46 ∧ 16 ≤ b.length then b.take (16 + leAt b 6 2) else b

/-- Keeps a response: for each source MAC those of its eight most recent requests (R301). -/
def World.keepResponse (w : World) (s : Stored) : World :=
  let mine := (w.stn.stored.filter (fun x => x.mac == s.mac)).take 7
  { w with stn := { w.stn with stored := s :: mine ++ w.stn.stored.filter (fun x => decide (x.mac ≠ s.mac)) } }

/-- The stored response of the last second to a repeated request (R301). -/
def World.repeated (w : World) (mac : Nat) (m : Msg) : Option Stored :=
  w.stn.stored.find? (fun x => x.mac == mac && x.node == m.src && x.kind == m.kind && x.txn == m.txn && decide (w.now ≤ x.at_ + 1000000000))

/-- Answers a message that came in an accepted frame: a repeated one from its stored response (R301). -/
def State.serveFrame (st : State) (peers : List Peer) (mac : Nat) (b : Bytes) : State :=
  let m := msgOf b
  match st.w.repeated mac m with
  | some x => st.onW (fun w => ({ w with adp := { w.adp with dups := sat32 w.adp.dups 1 } } : World).queueFrame mac x.msg)
  | none =>
    match st.answer false mac m with
    | none => st.onW (fun w => w.takeAckOf mac m.aux)
    | some a =>
      let resp := respond st.w.live.nodeId m a.status a.flags a.aux a.data
      let st := a.st.onW (fun w => ((w.served a.status).queueFrame mac resp).keepResponse { mac := mac, node := m.src, kind := m.kind, txn := m.txn, at_ := w.now, msg := resp })
      a.owed.elim st (fun o => st.doOwed peers o)

/-- Whether a frame is for this engine (R298). -/
def World.accepts (w : World) (dmac : Nat) (m : Msg) : Bool :=
  (dmac == w.mac || dmac == groupMac) && decide (4 ≤ m.len) && (m.dst == w.live.nodeId || (m.dst == 255 && m.kind == kDiscover))

/-- How many requests that came in frames wait. -/
def Stn.waiting (n : Stn) : Nat := n.rx.countP (fun x => match x with | .frame _ _ _ => true | _ => false)

/-- A request in a frame waits for the management core; the seventeenth is answered BUSY (R300). -/
def World.queueRequest (w : World) (peers : List Peer) (mac : Nat) (b : Bytes) : World :=
  if w.stn.waiting < 16 then { w with stn := { w.stn with rx := w.stn.rx ++ [.frame mac b peers] } }
  else ({ w with adp := { w.adp with busyCnt := sat32 w.adp.busyCnt 1 } } : World).queueFrame mac (respond w.live.nodeId (msgOf b) 0x0816 0 0 [])

/-- An accepted frame: an acknowledgement is noted, and a request waits. In Doze a frame starts the exit of R239, or is dropped where
0x2000:0A[1] is 0 (R298, R302). -/
def World.takeFrame (w : World) (peers : List Peer) (mac : Nat) (b : Bytes) : World :=
  if w.power.st = .doze ∧ !(bitAt w.power.dozeSrc 1 && w.pins.wake) then { w with adp := { w.adp with rxDrops := sat32 w.adp.rxDrops 1 } }
  else
    let w := { w with adp := { w.adp with accepted := add64 w.adp.accepted 1 } }
    let w := if (msgOf b).isAck false then w.takeAckOf mac (msgOf b).aux else w.queueRequest peers mac b
    if w.power.st = .doze then w.exitEvent 2 else w

/-- A frame is received. One of another EtherType is ignored (R298). -/
def World.frameIn (w : World) (peers : List Peer) (dmac smac etype : Nat) (fcsOk : Bool) (payload : Bytes) : World :=
  let b := unpad payload
  let m := msgOf b
  let drop := { w with adp := { w.adp with rxDrops := sat32 w.adp.rxDrops 1 } }
  if !w.t1sOn then w
  else if !fcsOk then drop
  else if etype ≠ etherType then w
  else if (dmac == w.mac || dmac == groupMac) && decide (m.len < 3) then drop
  else
    let w := if 3 ≤ m.len ∧ m.src = w.live.nodeId ∧ smac ≠ w.mac then
        ({ w with adp := { w.adp with conflicts := sat32 w.adp.conflicts 1 } } : World).event 0x0016 srcMgmt 0 w.live.nodeId smac
      else w
    if !w.accepts dmac m then w
    else
      let w := if m.src < 32 then { w with stn := { w.stn with macs := w.stn.macs.set 0 m.src (smac + 1) } } else w
      w.takeFrame peers smac b

/-! The one queue of requests (R290). -/

/-- Answers a request that waited. -/
def State.serveOne (st : State) : Rx → State
  | .window msg peers lost => st.serveWindow peers (msgOf msg) lost
  | .frame mac msg peers => st.serveFrame peers mac msg

/-- Answers every request that waits, in the order of their arrival. -/
def State.serveAll (st : State) : State :=
  st.w.stn.rx.foldl State.serveOne (st.onW (fun w => { w with stn := { w.stn with rx := [] } }))

/-- Answers the oldest request that waits. -/
def State.serveNext (st : State) : State :=
  match st.w.stn.rx with
  | [] => st
  | x :: r => (st.onW (fun w => { w with stn := { w.stn with rx := r } })).serveOne x

/-- Whether the management core answers requests: it has its clock, so not in Doze. -/
def State.serves (st : State) : Bool := st.w.clocked

/-- A message is written to the request buffer, and `n` bytes of `v` to GO. Unless it has to wait, the request is answered with those
before it. -/
def State.windowGo (st : State) (peers : List Peer) (msg : Bytes) (n v : Nat) (wait : Bool) : State :=
  if !st.w.hostUp || 1040 < msg.length then st
  else
    let st := st.onW (fun w => (w.dictWrite peers 0 msg).dictWrite peers 0xF000 (leBytes n v))
    if wait || !st.serves then st else st.serveAll

/-- A message on either carrier. Unless it has to wait, a request is answered with those before it (R290). -/
def State.adpIn (st : State) (peers : List Peer) (car : Carrier) (msg : Bytes) : State :=
  match car with
  | .window => st.windowGo peers msg 4 1 false
  | .frame dmac smac etype fcsOk wait =>
    let st := st.onW (fun w => w.frameIn peers dmac smac etype fcsOk msg)
    if wait || !st.serves then st else st.serveAll

/-- The message of a request on an object, sent as its client would (Table 12.4). -/
def State.request (st : State) (peers : List Peer) (r : Req) (kind index sub : Nat) (d : Bytes) : State :=
  let flags := if r.sel.isSome then 3 else 2
  match r.src with
  | .window => st.adpIn peers .window (adpMsg kind 254 254 r.txn index sub flags (r.sel.getD 0) 0 d)
  | .node n mac => st.adpIn peers (.frame st.w.mac mac etherType true false) (adpMsg kind n st.w.live.nodeId r.txn index sub flags (r.sel.getD 0) 0 d)

/-! Notifications (R305 to R307). -/

/-- Whether the value of an object can be watched: it is defined and can be read without drawing a challenge. -/
def World.watchable (w : World) (index sub : Nat) : Bool :=
  decide ((w.objCheck 254 index sub false true).1 = 0) && w.selCheck { client := 254 } index sub == 0 &&
    !(index == 0x1101 && sub == 1) && !(index == 0x1300 && sub == 8)

/-- Whether a type-1 notification leaves on some carrier (R306, R307). -/
def World.notesReach (w : World) : Bool :=
  bitAt w.adp.noteCar 1 || (bitAt w.adp.noteCar 0 && decide (w.adp.noteNode < 32) && decide (w.stn.macs.get 0 w.adp.noteNode ≠ 0))

/-- Compares one entry of the watch list with the value last notified. -/
def World.watchOne (o : Otp) (v : Vault) (w : World) (i : Nat) : World :=
  let e := w.adp.watch.getD i 0
  let index := e / 2 ^ 16
  let sub := e / 2 ^ 8 % 256
  if e = 0 || (w.adp.watch.take i).contains e || !w.watchable index sub then w
  else
    let d := w.readObj o v { client := 254 } index sub
    if w.adp.told.getD i [] = d then w
    else
      ({ w with adp := { w.adp with told := setAt w.adp.told i d } } : World).noteCarriers 0 1 index sub
        ([1#8, 0#8, 0#8, 0#8] ++ leBytes 2 index ++ [byteOf sub, 0#8] ++ slice d 0 8)

/-- WATCH_COMPARE: every watched object, in the order of the list. -/
def World.compareWatch (o : Otp) (v : Vault) (w : World) : World :=
  if !w.clocked || !w.notesReach then w else (List.range 16).foldl (fun w i => w.watchOne o v i) w

/-- NOTIFY_RESEND: sent again, or dropped after the third resend (R307). -/
def World.resendNote (w : World) (seq : Nat) : World :=
  match w.stn.unacked.find? (fun u => u.seq == seq) with
  | none => w
  | some u =>
    if !w.clocked then w
    else if u.resends < 3 then
      ({ w with
        stn := { w.stn with unacked := w.stn.unacked.map (fun x => if x.seq = seq then { x with resends := x.resends + 1 } else x) }
        adp := { w.adp with resends := sat32 w.adp.resends 1 } } : World).queueFrame u.mac u.msg
    else { w with
      stn := { w.stn with unacked := w.stn.unacked.filter (fun x => decide (x.seq ≠ seq)) }
      adp := { w.adp with unackDrops := sat32 w.adp.unackDrops 1 } }

end Sys2Proof.Machine
end

