-- ==== Sys2Proof/Machine/Requests.lean ====
section
/-! DEFINITION. The commands of the dictionary: the messages of the protocol, its timers, and the requests that have a row of their
own, each made as the ADP message that its client would send (R285 to R314). -/

namespace Sys2Proof.Machine

/-- The kinds that have a row of their own. -/
def rowKinds : List Nat := [kRead, kWrite, kReadSeg, kWriteSeg, kAbort, kDiscover, kAck]

/-- A message whose kind is that of its command; a kind that no row has comes with READ's, to be answered as R293 says (log entry 88). -/
def State.adpKind (st : State) (kind : Nat) (car : Carrier) (msg : Bytes) : State :=
  let k := leAt msg 1 1
  if k = kind ∨ (kind = kRead ∧ k ∉ rowKinds) then st.adpIn [] car msg else st

/-- A write of an object by a request. -/
def State.put (st : State) (r : Req) (index sub : Nat) (d : Bytes) : State := st.request [] r kWrite index sub d

/-- A write whose first byte is the operation that its command names. -/
def State.putOp (st : State) (r : Req) (index sub op : Nat) (d : Bytes) : State :=
  if leAt d 0 1 = op then st.put r index sub d else st

/-! Messages (Table 12.5). -/

/-- READ (R295). -/
def execAdpRead (car : Carrier) (msg : Bytes) (st : State) : Host.Outcome State Fault Refusal := .next (st.adpKind kRead car msg)

/-- WRITE (R289). -/
def execAdpWrite (car : Carrier) (msg : Bytes) (st : State) : Host.Outcome State Fault Refusal := .next (st.adpKind kWrite car msg)

/-- READ_SEG (R295). -/
def execReadSeg (car : Carrier) (msg : Bytes) (st : State) : Host.Outcome State Fault Refusal := .next (st.adpKind kReadSeg car msg)

/-- WRITE_SEG (R296). -/
def execWriteSeg (car : Carrier) (msg : Bytes) (st : State) : Host.Outcome State Fault Refusal := .next (st.adpKind kWriteSeg car msg)

/-- ABORT (R297). -/
def execAdpAbort (car : Carrier) (msg : Bytes) (st : State) : Host.Outcome State Fault Refusal := .next (st.adpKind kAbort car msg)

/-- DISCOVER (R294). -/
def execDiscover (car : Carrier) (msg : Bytes) (st : State) : Host.Outcome State Fault Refusal := .next (st.adpKind kDiscover car msg)

/-- NOTIFY_ACK (R307). -/
def execNotifyAck (car : Carrier) (msg : Bytes) (st : State) : Host.Outcome State Fault Refusal := .next (st.adpKind kAck car msg)

/-- SEGMENT_TIMEOUT (R297): the transfer ends, and the client's next segment is told so. -/
def execSegmentTimeout (client : Nat) (st : State) : Host.Outcome State Fault Refusal :=
  .next (st.onW (fun w => w.updTransfer client (fun t => { t with timedOut := true, data := [] })))

/-! The window (R303 to R305). -/

/-- WINDOW_GO (R304). -/
def execWindowGo (msg : Bytes) (x : GoWrite) (st : State) : Host.Outcome State Fault Refusal :=
  .next (st.windowGo [] msg x.n x.v x.wait)

/-- WINDOW_STATUS_CLEAR (R303). -/
def execWindowStatusClear (x : RegWrite) (st : State) : Host.Outcome State Fault Refusal :=
  .next (st.onW (fun w => w.dictWrite [] 0xF004 (leBytes x.n x.v)))

/-- NOTIFICATION_RING_TAIL_WRITE (R303, R305). -/
def execNotificationRingTailWrite (x : RegWrite) (st : State) : Host.Outcome State Fault Refusal :=
  .next (st.onW (fun w => w.dictWrite [] 0xF00C (leBytes x.n x.v)))

/-! Notifications and the segment (R299, R306, R307). -/

/-- WATCH_COMPARE (R306). -/
def execWatchCompare (st : State) : Host.Outcome State Fault Refusal := .next (st.onOW (fun o v w => w.compareWatch o v))

/-- NOTIFY_RESEND (R307). -/
def execNotifyResend (seq : Nat) (st : State) : Host.Outcome State Fault Refusal := .next (st.onW (fun w => w.resendNote seq))

/-- PLCA_BEACON (R299): the coordinator, node 0, sends it; any other node receives it. -/
def execPlcaBeacon (st : State) : Host.Outcome State Fault Refusal :=
  .next (st.onW (fun w =>
    if w.clocked && w.t1sOn then
      let w := { w with adp := { w.adp with beaconOk := true } }
      if w.live.nodeId = 0 then w.send .beacon else w
    else w))

/-- TRANSMIT_OPPORTUNITY (R299): one frame, the oldest, while beacons come. -/
def execTransmitOpportunity (st : State) : Host.Outcome State Fault Refusal :=
  .next (st.onW (fun w =>
    if w.clocked && w.t1sOn && w.adp.beaconOk then
      match w.stn.txq with
      | [] => w
      | (mac, msg) :: r => ({ w with stn := { w.stn with txq := r } } : World).send (.frame (etherFrame mac w.mac msg))
    else w))

/-- BEACON_LOSS (R299). -/
def execBeaconLoss (st : State) : Host.Outcome State Fault Refusal := .next (st.onW (fun w => { w with adp := { w.adp with beaconOk := false } }))

/-- DOZE_EXIT_FRAME (R302). -/
def execDozeExitFrame (car : Carrier) (msg : Bytes) (st : State) : Host.Outcome State Fault Refusal :=
  .next (match car with
    | .window => st
    | .frame dmac smac etype fcsOk _ => if st.w.power.st = .doze then st.onW (fun w => w.frameIn [] dmac smac etype fcsOk msg) else st)

/-- DOZE_EXIT_COMPLETE (R239): Active is reached, and the requests that waited are answered (R302). -/
def execDozeExitComplete (st : State) : Host.Outcome State Fault Refusal :=
  .next (if st.w.power.st = .doze ∧ st.w.power.exiting.isSome then (st.onW World.dozeReturn).serveAll else st)

/-! Levels and debug (R310 to R312, R391, R393). -/

/-- LEVEL_CHALLENGE (R310). -/
def execLevelChallenge (r : Req) (st : State) : Host.Outcome State Fault Refusal := .next (st.request [] r kRead 0x1101 1 [])

/-- LEVEL_RESPONSE (R310). -/
def execLevelResponse (r : Req) (data : Bytes) (st : State) : Host.Outcome State Fault Refusal := .next (st.put r 0x1101 2 data)

/-- CLOSE_LEVEL (R311). -/
def execCloseLevel (r : Req) (v : Nat) (st : State) : Host.Outcome State Fault Refusal := .next (st.put r 0x1101 4 (leBytes 1 v))

/-- LEVEL_IDLE_TIMEOUT (R311): a timeout of 0 never applies. -/
def execLevelIdleTimeout (client : Nat) (st : State) : Host.Outcome State Fault Refusal :=
  .next (st.onW (fun w => if w.adp.idleS = 0 then w else w.closeLevel client))

/-- CHALLENGE_EXPIRY (R310, R391). -/
def execChallengeExpiry (client : Nat) (debug : Bool) (st : State) : Host.Outcome State Fault Refusal :=
  .next (st.onW (fun w => w.updClient client (fun c => if debug then { c with dchal := none } else { c with chal := none })))

/-- LOCKOUT_EXPIRY (R312, R391). -/
def execLockoutExpiry (client : Nat) (debug : Bool) (st : State) : Host.Outcome State Fault Refusal :=
  .next (st.onW (fun w => w.updClient client (fun c => if debug then { c with dlocked := 0 } else { c with locked := 0 })))

/-- DEBUG_CHALLENGE (R391). -/
def execDebugChallenge (r : Req) (st : State) : Host.Outcome State Fault Refusal := .next (st.request [] r kRead 0x1300 8 [])

/-- DEBUG_RESPONSE (R391). -/
def execDebugResponse (r : Req) (data : Bytes) (st : State) : Host.Outcome State Fault Refusal := .next (st.put r 0x1300 9 data)

/-- RELOCK_DEBUG (R393). -/
def execRelockDebug (r : Req) (v : Nat) (st : State) : Host.Outcome State Fault Refusal := .next (st.put r 0x1300 11 (leBytes 1 v))

/-- DISABLE_DEBUG (R394). -/
def execDisableDebug (r : Req) (st : State) : Host.Outcome State Fault Refusal := .next (st.put r 0x1300 12 (leBytes 1 1))

/-! OTP and firmware (R371 to R374, R394). -/

/-- PROGRAM_STAGED_RECORD (R371). -/
def execProgramStagedRecord (r : Req) (st : State) : Host.Outcome State Fault Refusal := .next (st.put r 0x1200 5 (leBytes 1 1))

/-- RETIRE_FACTORY_LEVEL (R394). -/
def execRetireFactoryLevel (r : Req) (st : State) : Host.Outcome State Fault Refusal := .next (st.put r 0x1200 9 (leBytes 1 1))

/-- FIRMWARE_LOAD (R373). -/
def execFirmwareLoad (r : Req) (addr len : Nat) (st : State) : Host.Outcome State Fault Refusal :=
  .next (st.put r 0x1300 1 (leBytes 8 addr ++ leBytes 4 len ++ zeros 4))

/-- PROGRAM_KEY_SLOT (R374). -/
def execProgramKeySlot (r : Req) (slot : Nat) (hash : Bytes) (st : State) : Host.Outcome State Fault Refusal :=
  .next (st.put r 0x1300 4 (leBytes 1 slot ++ zeros 3 ++ hash))

/-- REVOKE_KEY_SLOT (R374). -/
def execRevokeKeySlot (r : Req) (slot : Nat) (st : State) : Host.Outcome State Fault Refusal := .next (st.put r 0x1300 5 (leBytes 1 slot))

/-! Sessions and tenants (R382 to R387). -/

/-- SESSION_OPEN (R385). -/
def execSessionOpen (r : Req) (data : Bytes) (st : State) : Host.Outcome State Fault Refusal := .next (st.putOp r 0x3700 4 1 data)

/-- SESSION_CLOSE (R387). -/
def execSessionClose (r : Req) (data : Bytes) (st : State) : Host.Outcome State Fault Refusal := .next (st.putOp r 0x3700 4 2 data)

/-- CREATE_TENANT (R382). -/
def execCreateTenant (r : Req) (data : Bytes) (st : State) : Host.Outcome State Fault Refusal := .next (st.put r 0x3702 1 data)

/-- TENANT_IMPORT (R386). -/
def execTenantImport (r : Req) (data : Bytes) (st : State) : Host.Outcome State Fault Refusal := .next (st.putOp r 0x3702 2 1 data)

/-- TENANT_RETIRE (R384). -/
def execTenantRetire (r : Req) (data : Bytes) (st : State) : Host.Outcome State Fault Refusal := .next (st.putOp r 0x3702 2 2 data)

/-! Power states (R236, R237, R247). -/

/-- REQUEST_ACTIVE (R236). -/
def execRequestActive (r : Req) (st : State) : Host.Outcome State Fault Refusal := .next (st.put r 0x2000 1 (leBytes 1 0))

/-- REQUEST_IDLE (R237). -/
def execRequestIdle (r : Req) (st : State) : Host.Outcome State Fault Refusal := .next (st.put r 0x2000 1 (leBytes 1 1))

/-- REQUEST_DOZE (R247). -/
def execRequestDoze (r : Req) (st : State) : Host.Outcome State Fault Refusal := .next (st.put r 0x2000 1 (leBytes 1 2))

/-! Queues, ports, contexts, semaphores and the job (R139, R210, R248, R321, R328, R332, R335). -/

/-- QUEUE_DISABLE (R328). -/
def execQueueDisable (r : Req) (q : Nat) (st : State) : Host.Outcome State Fault Refusal :=
  .next (if q < 64 then st.put r (0x3040 + q) 1 (leBytes 1 0) else st)

/-- QUEUE_ENABLE (R321). -/
def execQueueEnable (r : Req) (q : Nat) (st : State) : Host.Outcome State Fault Refusal :=
  .next (if q < 64 then st.put r (0x3040 + q) 1 (leBytes 1 1) else st)

/-- QUEUE_RESET (R328). -/
def execQueueReset (r : Req) (q : Nat) (st : State) : Host.Outcome State Fault Refusal :=
  .next (if q < 64 then st.put r (0x3040 + q) 1 (leBytes 1 2) else st)

/-- TDM_PORT_ENABLE (R332). -/
def execTdmPortEnable (r : Req) (p : Nat) (st : State) : Host.Outcome State Fault Refusal :=
  .next (if p < 2 then st.put r (0x3180 + p) 1 (leBytes 1 1) else st)

/-- CONTEXT_OPEN (R335). -/
def execContextOpen (r : Req) (c : Nat) (st : State) : Host.Outcome State Fault Refusal :=
  .next (if c < 128 then st.put r (0x3100 + c) 1 (leBytes 1 1) else st)

/-- CONTEXT_CLOSE (R335). -/
def execContextClose (r : Req) (c : Nat) (st : State) : Host.Outcome State Fault Refusal :=
  .next (if c < 128 then st.put r (0x3100 + c) 1 (leBytes 1 0) else st)

/-- SEM_VALUE_WRITE (R139). -/
def execSemValueWrite (r : Req) (v : Nat) (st : State) : Host.Outcome State Fault Refusal := .next (st.put r 0x3230 2 (leBytes 2 v))

/-- JOB_START (R210). -/
def execJobStart (r : Req) (peers : List Peer) (st : State) : Host.Outcome State Fault Refusal :=
  .next (st.request peers r kWrite 0x3600 6 (leBytes 1 1))

/-- JOB_STOP (R248). -/
def execJobStop (r : Req) (st : State) : Host.Outcome State Fault Refusal := .next (st.put r 0x3600 6 (leBytes 1 2))

end Sys2Proof.Machine
end

