-- ==== Sys2Proof/Machine/Dispatch.lean ====
section
/-! DEFINITION. One arm per command: its meaning, or its refusal by name. -/

namespace Sys2Proof.Machine

open Sys2Proof

/-- The effect of a command on everything but the queue of waiting commands. -/
def exec (i : Instr) (s : State) : Host.Outcome State Fault Refusal :=
  match i with
  | .prodWrite x1 x2 => Sys2Proof.Machine.execProdWrite x1 x2 s
  | .taskFetch x1 x2 => Sys2Proof.Machine.execTaskFetch x1 x2 s
  | .cackWrite x1 x2 => Sys2Proof.Machine.execCackWrite x1 x2 s
  | .cancelWrite x1 x2 => Sys2Proof.Machine.execCancelWrite x1 x2 s
  | .streamInputWritten x1 x2 => Sys2Proof.Machine.execStreamInputWritten x1 x2 s
  | .streamOutputTaken x1 x2 => Sys2Proof.Machine.execStreamOutputTaken x1 x2 s
  | .coalescingTimeout x1 => Sys2Proof.Machine.execCoalescingTimeout x1 s
  | .queueDisable x1 x2 => Sys2Proof.Machine.execQueueDisable x1 x2 s
  | .queueEnable x1 x2 => Sys2Proof.Machine.execQueueEnable x1 x2 s
  | .queueReset x1 x2 => Sys2Proof.Machine.execQueueReset x1 x2 s
  | .functionLevelReset => Sys2Proof.Machine.execFunctionLevelReset s
  | .perstNLow => Sys2Proof.Machine.execPerstNLow s
  | .linkDown x1 => Sys2Proof.Machine.execLinkDown x1 s
  | .pcieLinkTraining x1 x2 => Sys2Proof.Machine.execPcieLinkTraining x1 x2 s
  | .windowRead x1 x2 => Sys2Proof.Machine.execWindowRead x1 x2 s
  | .windowWrite x1 x2 => Sys2Proof.Machine.execWindowWrite x1 x2 s
  | .tdmPortEnable x1 x2 => Sys2Proof.Machine.execTdmPortEnable x1 x2 s
  | .tdmFrameStart x1 x2 => Sys2Proof.Machine.execTdmFrameStart x1 x2 s
  | .tdmFrameEnd x1 x2 => Sys2Proof.Machine.execTdmFrameEnd x1 x2 s
  | .clockLoss x1 => Sys2Proof.Machine.execClockLoss x1 s
  | .contextOpen x1 x2 => Sys2Proof.Machine.execContextOpen x1 x2 s
  | .contextClose x1 x2 => Sys2Proof.Machine.execContextClose x1 x2 s
  | .playoutDue x1 => Sys2Proof.Machine.execPlayoutDue x1 s
  | .nopOp x1 x2 x3 => Sys2Proof.Machine.execNopOp x1 x2 x3 s
  | .endOp x1 x2 x3 => Sys2Proof.Machine.execEndOp x1 x2 x3 s
  | .jumpOp x1 x2 x3 => Sys2Proof.Machine.execJumpOp x1 x2 x3 s
  | .tstamp x1 x2 x3 => Sys2Proof.Machine.execTstamp x1 x2 x3 s
  | .dropOp x1 x2 x3 => Sys2Proof.Machine.execDropOp x1 x2 x3 s
  | .copyOp x1 x2 x3 => Sys2Proof.Machine.execCopyOp x1 x2 x3 s
  | .fillOp x1 x2 x3 => Sys2Proof.Machine.execFillOp x1 x2 x3 s
  | .loads x1 x2 x3 => Sys2Proof.Machine.execLoads x1 x2 x3 s
  | .stores x1 x2 x3 => Sys2Proof.Machine.execStores x1 x2 x3 s
  | .gather x1 x2 x3 => Sys2Proof.Machine.execGather x1 x2 x3 s
  | .scatter x1 x2 x3 => Sys2Proof.Machine.execScatter x1 x2 x3 s
  | .transpose x1 x2 x3 => Sys2Proof.Machine.execTranspose x1 x2 x3 s
  | .prefetch x1 x2 x3 => Sys2Proof.Machine.execPrefetch x1 x2 x3 s
  | .matmul x1 x2 x3 => Sys2Proof.Machine.execMatmul x1 x2 x3 s
  | .matmult x1 x2 x3 => Sys2Proof.Machine.execMatmult x1 x2 x3 s
  | .conv1d x1 x2 x3 => Sys2Proof.Machine.execConv1d x1 x2 x3 s
  | .reduceSum x1 x2 x3 => Sys2Proof.Machine.execReduceSum x1 x2 x3 s
  | .reduceSumsq x1 x2 x3 => Sys2Proof.Machine.execReduceSumsq x1 x2 x3 s
  | .reduceMax x1 x2 x3 => Sys2Proof.Machine.execReduceMax x1 x2 x3 s
  | .reduceMin x1 x2 x3 => Sys2Proof.Machine.execReduceMin x1 x2 x3 s
  | .reduceAmax x1 x2 x3 => Sys2Proof.Machine.execReduceAmax x1 x2 x3 s
  | .reduceArgmax x1 x2 x3 => Sys2Proof.Machine.execReduceArgmax x1 x2 x3 s
  | .reduceArgmin x1 x2 x3 => Sys2Proof.Machine.execReduceArgmin x1 x2 x3 s
  | .vadd x1 x2 x3 => Sys2Proof.Machine.execVadd x1 x2 x3 s
  | .vmul x1 x2 x3 => Sys2Proof.Machine.execVmul x1 x2 x3 s
  | .vfma x1 x2 x3 => Sys2Proof.Machine.execVfma x1 x2 x3 s
  | .vmax x1 x2 x3 => Sys2Proof.Machine.execVmax x1 x2 x3 s
  | .vmin x1 x2 x3 => Sys2Proof.Machine.execVmin x1 x2 x3 s
  | .vfuncRelu x1 x2 x3 => Sys2Proof.Machine.execVfuncRelu x1 x2 x3 s
  | .vfuncGelu x1 x2 x3 => Sys2Proof.Machine.execVfuncGelu x1 x2 x3 s
  | .vfuncSilu x1 x2 x3 => Sys2Proof.Machine.execVfuncSilu x1 x2 x3 s
  | .vfuncTanh x1 x2 x3 => Sys2Proof.Machine.execVfuncTanh x1 x2 x3 s
  | .vfuncSigmoid x1 x2 x3 => Sys2Proof.Machine.execVfuncSigmoid x1 x2 x3 s
  | .vfuncExp x1 x2 x3 => Sys2Proof.Machine.execVfuncExp x1 x2 x3 s
  | .vfuncReciprocal x1 x2 x3 => Sys2Proof.Machine.execVfuncReciprocal x1 x2 x3 s
  | .vfuncRsqrt x1 x2 x3 => Sys2Proof.Machine.execVfuncRsqrt x1 x2 x3 s
  | .vfuncSqrt x1 x2 x3 => Sys2Proof.Machine.execVfuncSqrt x1 x2 x3 s
  | .vfuncAbs x1 x2 x3 => Sys2Proof.Machine.execVfuncAbs x1 x2 x3 s
  | .vfuncNegation x1 x2 x3 => Sys2Proof.Machine.execVfuncNegation x1 x2 x3 s
  | .softmax x1 x2 x3 => Sys2Proof.Machine.execSoftmax x1 x2 x3 s
  | .layerNorm x1 x2 x3 => Sys2Proof.Machine.execLayerNorm x1 x2 x3 s
  | .rmsNorm x1 x2 x3 => Sys2Proof.Machine.execRmsNorm x1 x2 x3 s
  | .vscale x1 x2 x3 => Sys2Proof.Machine.execVscale x1 x2 x3 s
  | .vselect x1 x2 x3 => Sys2Proof.Machine.execVselect x1 x2 x3 s
  | .convert x1 x2 x3 => Sys2Proof.Machine.execConvert x1 x2 x3 s
  | .scaleupd x1 x2 x3 => Sys2Proof.Machine.execScaleupd x1 x2 x3 s
  | .observe x1 x2 x3 => Sys2Proof.Machine.execObserve x1 x2 x3 s
  | .actsave x1 x2 x3 => Sys2Proof.Machine.execActsave x1 x2 x3 s
  | .actload x1 x2 x3 => Sys2Proof.Machine.execActload x1 x2 x3 s
  | .gnorm x1 x2 x3 => Sys2Proof.Machine.execGnorm x1 x2 x3 s
  | .clipnoise x1 x2 x3 => Sys2Proof.Machine.execClipnoise x1 x2 x3 s
  | .reel x1 x2 x3 => Sys2Proof.Machine.execReel x1 x2 x3 s
  | .commit x1 x2 x3 => Sys2Proof.Machine.execCommit x1 x2 x3 s
  | .ckpt x1 x2 x3 => Sys2Proof.Machine.execCkpt x1 x2 x3 s
  | .allreduceSum x1 x2 x3 => Sys2Proof.Machine.execAllreduceSum x1 x2 x3 s
  | .allreduceMax x1 x2 x3 => Sys2Proof.Machine.execAllreduceMax x1 x2 x3 s
  | .allreduceMin x1 x2 x3 => Sys2Proof.Machine.execAllreduceMin x1 x2 x3 s
  | .reduceRootSum x1 x2 x3 => Sys2Proof.Machine.execReduceRootSum x1 x2 x3 s
  | .reduceRootMax x1 x2 x3 => Sys2Proof.Machine.execReduceRootMax x1 x2 x3 s
  | .reduceRootMin x1 x2 x3 => Sys2Proof.Machine.execReduceRootMin x1 x2 x3 s
  | .broadcast x1 x2 x3 => Sys2Proof.Machine.execBroadcast x1 x2 x3 s
  | .allgather x1 x2 x3 => Sys2Proof.Machine.execAllgather x1 x2 x3 s
  | .barrier x1 x2 x3 => Sys2Proof.Machine.execBarrier x1 x2 x3 s
  | .pushpost x1 x2 x3 => Sys2Proof.Machine.execPushpost x1 x2 x3 s
  | .rngbits x1 x2 x3 => Sys2Proof.Machine.execRngbits x1 x2 x3 s
  | .rnguni x1 x2 x3 => Sys2Proof.Machine.execRnguni x1 x2 x3 s
  | .rnggauss x1 x2 x3 => Sys2Proof.Machine.execRnggauss x1 x2 x3 s
  | .dropout x1 x2 x3 => Sys2Proof.Machine.execDropout x1 x2 x3 s
  | .semRelease x1 x2 => Sys2Proof.Machine.execSemRelease x1 x2 s
  | .holdBudgetExpiry x1 x2 => Sys2Proof.Machine.execHoldBudgetExpiry x1 x2 s
  | .opComplete x1 x2 x3 => Sys2Proof.Machine.execOpComplete x1 x2 x3 s
  | .phaseMarkRelease x1 x2 => Sys2Proof.Machine.execPhaseMarkRelease x1 x2 s
  | .stepAdmission x1 x2 => Sys2Proof.Machine.execStepAdmission x1 x2 s
  | .stepAbandon x1 x2 => Sys2Proof.Machine.execStepAbandon x1 x2 s
  | .taskPlacement x1 x2 => Sys2Proof.Machine.execTaskPlacement x1 x2 s
  | .preemptionPoint x1 x2 x3 => Sys2Proof.Machine.execPreemptionPoint x1 x2 x3 s
  | .drainComplete x1 x2 x3 x4 => Sys2Proof.Machine.execDrainComplete x1 x2 x3 x4 s
  | .contextSaveDone x1 x2 x3 => Sys2Proof.Machine.execContextSaveDone x1 x2 x3 s
  | .contextRestoreDone x1 x2 x3 x4 => Sys2Proof.Machine.execContextRestoreDone x1 x2 x3 x4 s
  | .drainTimeout x1 x2 x3 => Sys2Proof.Machine.execDrainTimeout x1 x2 x3 s
  | .semValueWrite x1 x2 => Sys2Proof.Machine.execSemValueWrite x1 x2 s
  | .regulatorRefill => Sys2Proof.Machine.execRegulatorRefill s
  | .interferenceWindowEnd x1 => Sys2Proof.Machine.execInterferenceWindowEnd x1 s
  | .sliceRead x1 x2 x3 x4 => Sys2Proof.Machine.execSliceRead x1 x2 x3 x4 s
  | .sliceWrite x1 x2 x3 x4 => Sys2Proof.Machine.execSliceWrite x1 x2 x3 x4 s
  | .sectorFill x1 x2 x3 x4 => Sys2Proof.Machine.execSectorFill x1 x2 x3 x4 s
  | .streamBypassWindow x1 => Sys2Proof.Machine.execStreamBypassWindow x1 s
  | .compressionSampleEnd x1 => Sys2Proof.Machine.execCompressionSampleEnd x1 s
  | .patrolScrubRead x1 x2 x3 x4 x5 => Sys2Proof.Machine.execPatrolScrubRead x1 x2 x3 x4 x5 s
  | .sliceScrub x1 x2 x3 x4 x5 => Sys2Proof.Machine.execSliceScrub x1 x2 x3 x4 x5 s
  | .forcedScrubSpell x1 => Sys2Proof.Machine.execForcedScrubSpell x1 s
  | .refresh x1 x2 => Sys2Proof.Machine.execRefresh x1 x2 s
  | .calibrationDue x1 => Sys2Proof.Machine.execCalibrationDue x1 s
  | .calibrationRun x1 x2 => Sys2Proof.Machine.execCalibrationRun x1 x2 s
  | .forcedCalibration x1 => Sys2Proof.Machine.execForcedCalibration x1 s
  | .memBandConflict => Sys2Proof.Machine.execMemBandConflict s
  | .numBandConflict => Sys2Proof.Machine.execNumBandConflict s
  | .pwrBandConflict => Sys2Proof.Machine.execPwrBandConflict s
  | .jobStart x1 x2 => Sys2Proof.Machine.execJobStart x1 x2 s
  | .jobStop x1 => Sys2Proof.Machine.execJobStop x1 s
  | .portTrainingStageDone x1 x2 => Sys2Proof.Machine.execPortTrainingStageDone x1 x2 s
  | .portTrainingTimeout x1 => Sys2Proof.Machine.execPortTrainingTimeout x1 s
  | .controlFlit x1 x2 x3 x4 => Sys2Proof.Machine.execControlFlit x1 x2 x3 x4 s
  | .creditReturnTimer x1 => Sys2Proof.Machine.execCreditReturnTimer x1 s
  | .ackProgressTimeout x1 => Sys2Proof.Machine.execAckProgressTimeout x1 s
  | .heartbeatSend => Sys2Proof.Machine.execHeartbeatSend s
  | .heartbeat x1 x2 => Sys2Proof.Machine.execHeartbeat x1 x2 s
  | .heartbeatTimeout x1 => Sys2Proof.Machine.execHeartbeatTimeout x1 s
  | .ceiling x1 x2 => Sys2Proof.Machine.execCeiling x1 x2 s
  | .ceilingApply => Sys2Proof.Machine.execCeilingApply s
  | .ceilingVote => Sys2Proof.Machine.execCeilingVote s
  | .faultFlood x1 x2 => Sys2Proof.Machine.execFaultFlood x1 x2 s
  | .remap x1 x2 => Sys2Proof.Machine.execRemap x1 x2 s
  | .resume x1 x2 => Sys2Proof.Machine.execResume x1 x2 s
  | .censusTimeout => Sys2Proof.Machine.execCensusTimeout s
  | .readMsg x1 x2 x3 => Sys2Proof.Machine.execReadMsg x1 x2 x3 s
  | .readDataMsg x1 x2 x3 x4 => Sys2Proof.Machine.execReadDataMsg x1 x2 x3 x4 s
  | .writeMsg x1 x2 x3 x4 => Sys2Proof.Machine.execWriteMsg x1 x2 x3 x4 s
  | .writeAckMsg x1 x2 x3 => Sys2Proof.Machine.execWriteAckMsg x1 x2 x3 s
  | .pushpostPostMsg x1 x2 x3 x4 x5 x6 x7 => Sys2Proof.Machine.execPushpostPostMsg x1 x2 x3 x4 x5 x6 x7 s
  | .collectiveSetupMsg x1 x2 x3 x4 x5 x6 x7 => Sys2Proof.Machine.execCollectiveSetupMsg x1 x2 x3 x4 x5 x6 x7 s
  | .collectiveData x1 x2 x3 x4 x5 x6 x7 x8 => Sys2Proof.Machine.execCollectiveData x1 x2 x3 x4 x5 x6 x7 x8 s
  | .latenessDeadline x1 x2 x3 x4 => Sys2Proof.Machine.execLatenessDeadline x1 x2 x3 x4 s
  | .skipNoticeMsg x1 x2 x3 x4 x5 x6 => Sys2Proof.Machine.execSkipNoticeMsg x1 x2 x3 x4 x5 x6 s
  | .voteMsg x1 x2 x3 x4 x5 x6 x7 => Sys2Proof.Machine.execVoteMsg x1 x2 x3 x4 x5 x6 x7 s
  | .semaphoreMsg x1 x2 x3 x4 x5 x6 x7 x8 x9 => Sys2Proof.Machine.execSemaphoreMsg x1 x2 x3 x4 x5 x6 x7 x8 x9 s
  | .censusMsg x1 x2 x3 x4 => Sys2Proof.Machine.execCensusMsg x1 x2 x3 x4 s
  | .checkpointCopyMsg x1 x2 x3 x4 => Sys2Proof.Machine.execCheckpointCopyMsg x1 x2 x3 x4 s
  | .wakeRise => Sys2Proof.Machine.execWakeRise s
  | .wakeFall => Sys2Proof.Machine.execWakeFall s
  | .wakeStageDone x1 => Sys2Proof.Machine.execWakeStageDone x1 s
  | .wakeStageTimeout => Sys2Proof.Machine.execWakeStageTimeout s
  | .retrySettleEnd => Sys2Proof.Machine.execRetrySettleEnd s
  | .readyBurst => Sys2Proof.Machine.execReadyBurst s
  | .wakeFailedExit => Sys2Proof.Machine.execWakeFailedExit s
  | .unwindDone => Sys2Proof.Machine.execUnwindDone s
  | .requestActive x1 => Sys2Proof.Machine.execRequestActive x1 s
  | .requestIdle x1 => Sys2Proof.Machine.execRequestIdle x1 s
  | .requestDoze x1 => Sys2Proof.Machine.execRequestDoze x1 s
  | .idleEntryDone => Sys2Proof.Machine.execIdleEntryDone s
  | .dozeExitPcie => Sys2Proof.Machine.execDozeExitPcie s
  | .dozeExitFrame x1 x2 => Sys2Proof.Machine.execDozeExitFrame x1 x2 s
  | .dozeResidencyEnd => Sys2Proof.Machine.execDozeResidencyEnd s
  | .powerDownStepDone => Sys2Proof.Machine.execPowerDownStepDone s
  | .resetNLow => Sys2Proof.Machine.execResetNLow s
  | .vinLoss => Sys2Proof.Machine.execVinLoss s
  | .dvfsSample x1 x2 => Sys2Proof.Machine.execDvfsSample x1 x2 s
  | .voltageRampDone => Sys2Proof.Machine.execVoltageRampDone s
  | .currentClampEngage x1 => Sys2Proof.Machine.execCurrentClampEngage x1 s
  | .currentClampReleaseStep => Sys2Proof.Machine.execCurrentClampReleaseStep s
  | .sensorSample x1 => Sys2Proof.Machine.execSensorSample x1 s
  | .thermalTripRelease => Sys2Proof.Machine.execThermalTripRelease s
  | .pwrAlertFall => Sys2Proof.Machine.execPwrAlertFall s
  | .pwrAlertRise => Sys2Proof.Machine.execPwrAlertRise s
  | .pwrAlertHoldEnd => Sys2Proof.Machine.execPwrAlertHoldEnd s
  | .regulatorAlert => Sys2Proof.Machine.execRegulatorAlert s
  | .regulatorAlertClear => Sys2Proof.Machine.execRegulatorAlertClear s
  | .coolOkFall => Sys2Proof.Machine.execCoolOkFall s
  | .haltRelease => Sys2Proof.Machine.execHaltRelease s
  | .regulatorCalibrationStart => Sys2Proof.Machine.execRegulatorCalibrationStart s
  | .regulatorCalibrationDone => Sys2Proof.Machine.execRegulatorCalibrationDone s
  | .adpRead x1 x2 => Sys2Proof.Machine.execAdpRead x1 x2 s
  | .adpWrite x1 x2 => Sys2Proof.Machine.execAdpWrite x1 x2 s
  | .readSeg x1 x2 => Sys2Proof.Machine.execReadSeg x1 x2 s
  | .writeSeg x1 x2 => Sys2Proof.Machine.execWriteSeg x1 x2 s
  | .adpAbort x1 x2 => Sys2Proof.Machine.execAdpAbort x1 x2 s
  | .discover x1 x2 => Sys2Proof.Machine.execDiscover x1 x2 s
  | .notifyAck x1 x2 => Sys2Proof.Machine.execNotifyAck x1 x2 s
  | .segmentTimeout x1 => Sys2Proof.Machine.execSegmentTimeout x1 s
  | .windowGo x1 x2 => Sys2Proof.Machine.execWindowGo x1 x2 s
  | .windowStatusClear x1 => Sys2Proof.Machine.execWindowStatusClear x1 s
  | .watchCompare => Sys2Proof.Machine.execWatchCompare s
  | .notifyResend x1 => Sys2Proof.Machine.execNotifyResend x1 s
  | .plcaBeacon => Sys2Proof.Machine.execPlcaBeacon s
  | .transmitOpportunity => Sys2Proof.Machine.execTransmitOpportunity s
  | .beaconLoss => Sys2Proof.Machine.execBeaconLoss s
  | .levelChallenge x1 => Sys2Proof.Machine.execLevelChallenge x1 s
  | .levelResponse x1 x2 => Sys2Proof.Machine.execLevelResponse x1 x2 s
  | .closeLevel x1 x2 => Sys2Proof.Machine.execCloseLevel x1 x2 s
  | .levelIdleTimeout x1 => Sys2Proof.Machine.execLevelIdleTimeout x1 s
  | .challengeExpiry x1 x2 => Sys2Proof.Machine.execChallengeExpiry x1 x2 s
  | .lockoutExpiry x1 x2 => Sys2Proof.Machine.execLockoutExpiry x1 x2 s
  | .programStagedRecord x1 => Sys2Proof.Machine.execProgramStagedRecord x1 s
  | .otpWordProgrammed x1 => Sys2Proof.Machine.execOtpWordProgrammed x1 s
  | .retireFactoryLevel x1 => Sys2Proof.Machine.execRetireFactoryLevel x1 s
  | .firmwareLoad x1 x2 x3 => Sys2Proof.Machine.execFirmwareLoad x1 x2 x3 s
  | .firmwareLoadDone => Sys2Proof.Machine.execFirmwareLoadDone s
  | .programKeySlot x1 x2 x3 => Sys2Proof.Machine.execProgramKeySlot x1 x2 x3 s
  | .revokeKeySlot x1 x2 => Sys2Proof.Machine.execRevokeKeySlot x1 x2 s
  | .debugChallenge x1 => Sys2Proof.Machine.execDebugChallenge x1 s
  | .debugResponse x1 x2 => Sys2Proof.Machine.execDebugResponse x1 x2 s
  | .relockDebug x1 x2 => Sys2Proof.Machine.execRelockDebug x1 x2 s
  | .disableDebug x1 => Sys2Proof.Machine.execDisableDebug x1 s
  | .sessionOpen x1 x2 => Sys2Proof.Machine.execSessionOpen x1 x2 s
  | .sessionClose x1 x2 => Sys2Proof.Machine.execSessionClose x1 x2 s
  | .createTenant x1 x2 => Sys2Proof.Machine.execCreateTenant x1 x2 s
  | .tenantImport x1 x2 => Sys2Proof.Machine.execTenantImport x1 x2 s
  | .tenantRetire x1 x2 => Sys2Proof.Machine.execTenantRetire x1 x2 s
  | .watchdog => Sys2Proof.Machine.execWatchdog s
  | .coreError x1 => Sys2Proof.Machine.execCoreError x1 s
  | .eventLogCopy => Sys2Proof.Machine.execEventLogCopy s
  | .calibrationStale => Sys2Proof.Machine.execCalibrationStale s
  | .tapBypass x1 => Sys2Proof.Machine.execTapBypass x1 s
  | .tapIdcode => Sys2Proof.Machine.execTapIdcode s
  | .tapSample x1 => Sys2Proof.Machine.execTapSample x1 s
  | .tapExtest => Sys2Proof.Machine.execTapExtest s
  | .tapHighz => Sys2Proof.Machine.execTapHighz s
  | .tapClamp => Sys2Proof.Machine.execTapClamp s
  | .testLogicReset => Sys2Proof.Machine.execTestLogicReset s
  | .coolOkRise => Sys2Proof.Machine.execCoolOkRise s
  | .resetNRelease => Sys2Proof.Machine.execResetNRelease s
  | .dozeExitComplete => Sys2Proof.Machine.execDozeExitComplete s
  | .checkpointRestoreDone => Sys2Proof.Machine.execCheckpointRestoreDone s
  | .tenantCommandDone => Sys2Proof.Machine.execTenantCommandDone s
  | .notificationRingTailWrite x1 => Sys2Proof.Machine.execNotificationRingTailWrite x1 s
  | .telemetrySampleDropped => Sys2Proof.Machine.execTelemetrySampleDropped s
  | .dozeEnergyIntegration x1 => Sys2Proof.Machine.execDozeEnergyIntegration x1 s
  | .entropyHealthTestFail x1 => Sys2Proof.Machine.execEntropyHealthTestFail x1 s
  | .calibrationEnd x1 x2 => Sys2Proof.Machine.execCalibrationEnd x1 x2 s

end Sys2Proof.Machine
end

