-- ==== Sys2Proof/Machine/Tick.lean ====
section
/-! DEFINITION. The passing of a microsecond, which is what the engine does while no command waits (log entry 3): first it takes note of
what the commands before it have changed (R264, R279; log entry 87). -/

namespace Sys2Proof.Machine

/-- Whether the timestamp runs: from the end of wake stage 4, through Idle and Doze (R8). -/
def World.timed (w : World) : Bool :=
  w.clocked || w.power.st == .doze || (w.power.st == .up && decide (5 ≤ w.power.stage))

/-- The cycles of a microsecond at the point in force (R407); they stop in Doze. -/
def World.addCycles (w : World) : World :=
  if w.clocked then { w with clock := { w.clock with compute := w.clock.compute + computeMHz w.pt.op, fabric := w.clock.fabric + fabricMHz w.pt.op } } else w

/-- Every active reason but CALIBRATION, which each stall adds to, accrues a microsecond (R279). -/
def World.accrue (w : World) : World :=
  { w with meter := { w.meter with accrued := w.meter.accrued.zipIdx.map (fun e => if bitAt w.meter.reasons e.2 && decide (e.2 ≠ 9) then e.1 + 1 else e.1) } }

/-- The age of the regulator calibration, which saturates (R277). -/
def World.ageCal (w : World) : World :=
  let n := w.meter.calNs + 1000
  if n < 1000000000 then { w with meter := { w.meter with calNs := n } }
  else { w with meter := { w.meter with calNs := 0, calAge := sat32 w.meter.calAge 1 } }

/-- Vectors 65 and 67 that were held back for their 10 µs (R305, R340). -/
def World.owedVectors (w : World) : World :=
  let w := if w.stn.vecDue then w.vector65 else w
  if w.host.vecDue then w.vector67 else w

/-- A microsecond passes. -/
def World.tick (w : World) : World :=
  let w := if w.power.st = .up then { w with power := { w.power with wakeUs := w.power.wakeUs + 1 } } else w
  if w.timed then
    let w := if w.power.st = .up then w else w.follow
    let w := ({ w with clock := { w.clock with ns := w.clock.ns + 1000 } } : World).addCycles
    if w.power.st = .up then w else w.accrue.ageCal.owedVectors
  else w

/-- A microsecond passes, after the oldest request that waits has been answered. -/
def State.tick (st : State) : State := (if st.serves then st.serveNext else st).onW World.tick

end Sys2Proof.Machine
end

