-- ==== Sys2Proof/Machine/Signals.lean ====
section
/-! DEFINITION. The balls of the package and what each single-ended signal does in every power state
(R346, R352, R361; Tables 14.2, 14.3, 14.6). -/

namespace Sys2Proof.Machine

/-- The single-ended signals (Table 14.6). -/
inductive Sig where
  | wake | ready | faultN | pwrAlertN | coolOk | resetN | perstN | clkreqN
  | slotId (i : Nat) | nodeStrap (i : Nat)
  | bclk (p : Nat) | fsync (p : Nat) | din (p : Nat) | dout (p : Nat)
  | tck | tms | tdi | tdo | trstN
  deriving DecidableEq, Repr

/-- What a position of the array carries (Table 14.2). A lane's ball is transmit or receive, P or N. -/
inductive Ball where
  | gnd | vin | vio | reserved
  | lane (port l : Nat) (tx p : Bool)
  | pcie (l : Nat) (tx p : Bool)
  | t1s (p : Bool)
  | sig (s : Sig)
  deriving DecidableEq, Repr

/-- The signals that stand in one row of the array from a column on (Table 14.3). -/
def sigRuns : List (Nat × Nat × List Sig) :=
  [(10, 6, [.perstN, .clkreqN]),
   (8, 20, [.bclk 0, .fsync 0, .din 0, .dout 0, .bclk 1, .fsync 1, .din 1, .dout 1]),
   (10, 20, [.wake, .ready, .faultN, .pwrAlertN, .coolOk, .resetN]),
   (12, 20, [.slotId 0, .slotId 1, .slotId 2, .slotId 3, .nodeStrap 0, .nodeStrap 1, .nodeStrap 2, .nodeStrap 3, .nodeStrap 4]),
   (26, 6, [.tck, .tms, .tdi, .tdo, .trstN])]

/-- The boundary-scan cells, cell 0 first: every signal of Table 14.3 but those of the test access port (R361; log entry 29). -/
def scanCells : List Sig := (sigRuns.take 4).flatMap (·.2.2)

/-- The lane and the polarity of a ball whose place among a port's balls is `i`, with the P balls `step` apart from 0 on. -/
def laneAt (step lanes i : Nat) : Option (Nat × Bool) :=
  if i / step < lanes ∧ i % step < 2 then some (i / step, i % step == 0) else none

/-- The lane ball at a position, where one stands there (Table 14.3). -/
def laneBall (r c : Nat) : Option Ball :=
  let link := fun (k : Nat) (tx : Bool) (x : Nat × Bool) => Ball.lane k x.1 tx x.2
  let col := if 2 ≤ r then laneAt 4 8 (r - 2) else none
  let row := fun (n : Nat) => if 6 ≤ c then laneAt 3 n (c - 6) else none
  match c with
  | 2 => col.map (link 0 true)
  | 4 => col.map (link 0 false)
  | 33 => col.map (link 1 true)
  | 31 => col.map (link 1 false)
  | _ =>
    match r with
    | 2 => (row 8).map (link 2 true)
    | 4 => (row 8).map (link 2 false)
    | 33 => (row 8).map (link 3 true)
    | 31 => (row 8).map (link 3 false)
    | 6 => (row 4).map (fun x => .pcie x.1 true x.2)
    | 8 => (row 4).map (fun x => .pcie x.1 false x.2)
    | _ => none

/-- The ball at a row and a column, both from 1 to 34; every position that no group names is ground (R346). -/
def ballAt (r c : Nat) : Ball :=
  match laneBall r c with
  | some b => b
  | none =>
    match sigRuns.find? (fun e => e.1 == r && decide (e.2.1 ≤ c) && decide (c < e.2.1 + e.2.2.length)) with
    | some e => .sig (e.2.2.getD (c - e.2.1) .wake)
    | none =>
      if 14 ≤ r ∧ r ≤ 21 ∧ 14 ≤ c ∧ c ≤ 18 then .vin
      else if r = 12 ∧ 14 ≤ c ∧ c ≤ 17 then .vio
      else if r = 6 ∧ c = 20 then .t1s true
      else if r = 6 ∧ c = 21 then .t1s false
      else if r = 28 ∧ 6 ≤ c ∧ c ≤ 17 then .reserved
      else .gnd

/-- The row letters of the ball designators. -/
def rowNames : List String :=
  ["A", "B", "C", "D", "E", "F", "G", "H", "J", "K", "L", "M", "N", "P", "T", "U", "V", "W", "Y", "AA", "AB", "AC", "AD", "AE", "AF", "AG",
    "AH", "AJ", "AK", "AL", "AM", "AN", "AP", "AT"]

/-- What the engine does with a signal: whether it drives the ball, whether it acts on the level there, and the pull in force, up or
down (R352). -/
structure Wire where
  drives : Bool := false
  acts : Bool := false
  pull : Option Bool := none
  deriving DecidableEq, Repr

/-- Whether a signal is of the VIO domain; the others are of the always-on domain (Table 14.6). -/
def Sig.onVio : Sig → Bool
  | .wake | .ready | .faultN | .pwrAlertN | .coolOk | .resetN | .perstN => false
  | _ => true

/-- The pull of a signal while its domain is up; those of WAKE and READY are passive, and hold without it (R352). -/
def Sig.pull : Sig → Option Bool
  | .wake | .ready | .perstN | .din _ | .tck | .slotId _ | .nodeStrap _ => some false
  | .pwrAlertN | .coolOk | .resetN | .tms | .tdi | .trstN => some true
  | .faultN | .clkreqN | .bclk _ | .fsync _ | .dout _ | .tdo => none

/-- Whether the straps are being sampled: in wake stage 4 (R355). -/
def World.strapping (w : World) : Bool := w.power.st == .up && decide (w.power.stage = 4)

/-- Whether a TDM port's pins are the port's own: from READY to D3 (Table 14.6, R341). -/
def World.tdmPins (w : World) : Bool := w.power.st == .active || w.power.st == .idle || (w.power.st == .down && decide (w.power.dstep < 3))

/-- A signal in the present power state (R352, Table 14.6). Levels are `readyBall`, `faultBall` and `Tdm.dout`; while a boundary-scan
takeover is in force, the boundary-scan register has the outputs (R362). TDO is driven within a command that shifts, and released
between commands. -/
def World.wire (w : World) (s : Sig) : Wire :=
  let tap := w.pins.vio
  let up := w.power.st == .active || w.power.st == .idle
  let pull := if s.onVio && !w.pins.vio then none else s.pull
  match s with
  | .wake => { acts := true, pull := pull }
  | .ready => { drives := w.power.st != .dormant, pull := pull }
  | .faultN => { drives := w.pins.faultN.isSome }
  | .pwrAlertN => { acts := up, pull := pull }
  | .coolOk => { acts := up, pull := pull }
  | .resetN => { acts := w.power.st != .dormant && w.power.st != .wakeFailed, pull := pull }
  | .perstN => { acts := w.portPowered, pull := pull }
  | .clkreqN => { drives := w.live.clkreq && w.portPowered, acts := w.live.clkreq && w.portPowered }
  | .slotId _ | .nodeStrap _ => { acts := w.strapping, pull := if w.strapping then pull else none }
  | .bclk p | .fsync p => { drives := w.drivesClocks p, acts := w.tdmPins && (w.tdm p).en && (w.tdm p).role != 1 }
  | .din p => { acts := w.tdmPins && (w.tdm p).en, pull := pull }
  | .dout p => { drives := w.tdmPins && (w.tdm p).en }
  | .tck | .tms | .tdi | .trstN => { acts := tap, pull := pull }
  | .tdo => {}

end Sys2Proof.Machine
end

