-- ==== Sys2Proof/Safety.lean ====
section
/-! DEFINITION. The terms in which claims about the engine are made: what a command does and leaves, when an operation is to
execute, when a request reaches its object, and the conditions that hold of every state a run reaches. -/

namespace Sys2Proof.Machine

/-! What a command does. -/

/-- The command answers a next state whose engine is `w`; OTP, the tenant table and the queue of commands are as they were. -/
def Gives (c : Instr) (s : State) (w : World) : Prop := exec c s = .next { s with w := w }

/-- The command answers a next state that `P` holds of. -/
def Reaches (c : Instr) (s : State) (P : State → Prop) : Prop := ∃ t, exec c s = .next t ∧ P t

/-- Memory after differs from memory before in a run of bytes only, which reads as given. -/
def Wrote (w w' : World) (a : Nat) (bs : Bytes) : Prop :=
  ∀ x, w'.mem.mem.get 0 x = if a ≤ x ∧ x < a + bs.length then bs.getD (x - a) 0 else w.mem.mem.get 0 x

/-- Every byte of memory reads as before. -/
def SameMemory (w w' : World) : Prop := ∀ x, w'.mem.mem.get 0 x = w.mem.mem.get 0 x

/-! Operations. -/

/-- Where D lies here, and in staging for a stage of one core, it is written; elsewhere its bytes go out as messages. `bs` are
the bytes, and the core of each is that of its row. -/
def World.putD (w : World) (r : Run) (bs : Bytes) : World := w.putRows r (r.o 3) bs

/-- The bytes of D for rows of exact values, each converted once (R48, R109). -/
def Run.converted (r : Run) (rows : List (List XV)) : Bytes :=
  tensorBytes (r.o 3).fmt (r.o 3).els (rows.map (convRow (r.o 3).fmt r.satMode r.ftz))

/-- The conversions that saturate or flush when rows become D. -/
def Run.conversions (r : Run) (rows : List (List XV)) : Cnt := (rows.map (convRow (r.o 3).fmt r.satMode r.ftz)).foldl (fun t c => t.add c.cnt) {}

/-- The operation of stage `g` of task `q`, `n` is to execute now and whole, on the engine `w` as run `r`, by the command of a row
with opcode `opc` (R114 stages 1 to 5). -/
def World.ready (s : State) (q n g opc : Nat) (mods : Nat → Bool) (extra : World → Run → List Fail)
    (reads : World → Run → List (List Region)) (w : World) (r : Run) : Prop :=
  s.w.prepare q n g [] opc mods extra reads = (w, some r) ∧ r.part = none

/-- A task has left the engine with a status: no task of its ID is there, and unless it ends without a completion, its completion
has been written at the slot its queue's count gave (R103, R325, R326). -/
def World.Completes (w : World) (t : Task) (status : Nat) (w' : World) : Prop :=
  w'.task? t.id = none ∧ (t.silent = false →
    let q := w.queue t.id.queue
    Out.hostWrite (q.compBase + 16 * (q.c % q.e)) (completionBytes q t status w.now) ∈ w'.out)

/-- The phase in which a stage of a task stands. -/
def World.phase? (w : World) (id : TaskId) (g : Nat) : Option Phase := ((w.task? id).bind (fun t => t.stgs[g]?)).map (·.phase)

/-- No vote is open, and no two steps in progress are of one task. -/
def World.Quiet (w : World) : Prop := w.job.votes = [] ∧ (w.train.steps.map (·.task)).Nodup

/-- The engine, outside a job, stands at (OP0, M0) after a safety source, and its ceiling does not rise but at a sample (R262, R276). -/
def World.Least (w : World) : Prop :=
  w.inJob = false ∧ w.pt.slow = true ∧ ptOf w.link.ownCeil = (0, 0) ∧ (w.pt.op, w.pt.mem) = (0, 0) ∧ (w.pt.ramp = none ∨ w.pt.ramp = some (0, 0))

/-! Requests on the dictionary. -/

/-- The client number of a request: a node, or 254 for the window. -/
def reqClient (r : Req) : Nat := match r.src with | .window => 254 | .node n _ => n

/-- Where the answers of a request go. -/
def reqMac (r : Req) : Nat := match r.src with | .window => 0 | .node _ mac => mac

/-- A request as the dictionary sees it. -/
def reqOf (r : Req) (index sub : Nat) : Rq :=
  { client := reqClient r, mac := reqMac r, txn := r.txn, sel := if selected index sub then r.sel else none }

/-- Whether a request of a kind reaches the dictionary and is answered at once: no request waits, and it comes over the window while
the host reaches the engine and the window is not busy, or as a frame from a node, none of whose stored responses is the answer
(R290, R298, R301, R304). -/
def World.carries (w : World) (r : Req) (kind : Nat) : Bool :=
  decide (r.txn < 2 ^ 16) && r.sel.all (fun x => decide (x < 2 ^ 16)) && decide (w.stn.rx = []) && w.clocked &&
    match r.src with
    | .window => w.hostUp && !w.stn.busy
    | .node n mac => w.t1sOn && decide (w.power.st ≠ .doze) && decide (n < 32) && decide (w.live.nodeId < 32) && decide (mac < 2 ^ 48) &&
        !(w.stn.stored.any (fun x => x.mac == mac && x.node == n && x.kind == kind && x.txn == r.txn && decide (w.now ≤ x.at_ + 1000000000)))

/-- Whether a write of an object passes every check of R292. -/
def World.grants (w : World) (r : Req) (index sub : Nat) (d : Bytes) : Bool :=
  match w.objCheck (reqClient r) index sub true true with
  | (0, some o) => decide (w.selCheck (reqOf r index sub) index sub = 0) && decide (d.length = o.len) &&
      decide (w.valueStatus (reqOf r index sub) index sub d = 0)
  | _ => false

/-- Whether a write of an object by a request is carried and passes every check. -/
def World.admits (w : World) (r : Req) (index sub : Nat) (d : Bytes) : Bool := w.carries r kWrite && w.grants r index sub d

/-- The ADP message of a request of a kind, with its flags and its Aux field (Table 12.4). -/
def reqSeg (w : World) (r : Req) (kind index sub flags aux : Nat) (d : Bytes) : Bytes :=
  match r.src with
  | .window => adpMsg kind 254 254 r.txn index sub flags aux 0 d
  | .node n _ => adpMsg kind n w.live.nodeId r.txn index sub flags aux 0 d

/-- The ADP message of a request that is whole: LAST is set, and Aux holds the selector override where there is one. -/
def reqMsg (w : World) (r : Req) (kind index sub : Nat) (d : Bytes) : Bytes :=
  reqSeg w r kind index sub (if r.sel.isSome then 3 else 2) (r.sel.getD 0) d

/-- What carries a request: the window, or a good frame to the engine's MAC. -/
def reqCarrier (w : World) (r : Req) : Carrier := match r.src with | .window => .window | .node _ mac => .frame w.mac mac etherType true false

/-- The response to a request (R293): its kind with bit 7 set, its source and destination swapped. -/
def reqResp (w : World) (r : Req) (kind index sub status flags aux : Nat) (d : Bytes) : Bytes :=
  match r.src with
  | .window => adpMsg (kind + 128) 254 254 r.txn index sub flags aux status d
  | .node n _ => adpMsg (kind + 128) w.live.nodeId n r.txn index sub flags aux status d

/-- The engine as it takes a request: the window is busy and its buffer holds the message; a frame is counted, its sender's MAC
noted, and a node number in conflict is counted and logged (R298, R299, R304). -/
def World.hears (w : World) (r : Req) (msg : Bytes) : World :=
  match r.src with
  | .window => { w with stn := { w.stn with reqBuf := overlay w.stn.reqBuf msg, busy := true } }
  | .node n mac =>
    let w := if n = w.live.nodeId ∧ mac ≠ w.mac then
      ({ w with adp := { w.adp with conflicts := sat32 w.adp.conflicts 1 } } : World).event 0x0016 srcMgmt 0 w.live.nodeId mac else w
    { w with
      stn := { w.stn with macs := w.stn.macs.set 0 n (mac + 1) }
      adp := { w.adp with accepted := add64 w.adp.accepted 1 } }

/-- Whether a response has room to be sent: a frame's needs one of the sixteen places (R300). -/
def World.room (w : World) (r : Req) : Bool := match r.src with | .window => true | .node _ _ => decide (w.stn.txq.length < 16)

/-- A response has been sent: it stands in the window with BUSY clear and DONE set, or waits to be transmitted (R300, R304). -/
def World.replied (w : World) (r : Req) (resp : Bytes) : Prop :=
  match r.src with
  | .window => Out.window resp ∈ w.out ∧ w.stn.busy = false ∧ w.stn.done = true
  | .node _ mac => (mac, resp) ∈ w.stn.txq

/-- Sending an answer changes only the carriers, their counters, the outbox, and the vectors that are pending while masked. -/
def World.AnsweredFrom (w w' : World) : Prop :=
  ∃ (a : Adp) (n : Stn) (x : List Nat) (u : Nat) (o : List Out),
    w' = { w with adp := a, stn := n, msix := { w.msix with pend := x }, sec := { w.sec with used := u }, out := o }

/-- The pending record that a pending write leaves (R289). -/
def pendOf_ (r : Req) (index sub : Nat) : Pend := { client := reqClient r, mac := reqMac r, txn := r.txn, index := index, sub := sub }

/-! Conditions that hold of every state a run reaches. -/

/-- Memory is in its canonical form: every table of it rises strictly and lists no entry that an unlisted one would read as. -/
def Memory.wf (m : Mem) : Bool :=
  m.mem.wf 0 && m.dram.wf 0 && m.staging.wf 0 && m.far.wf 0 && m.l1.wf [] && m.sets.wf {} && m.slices.wf {} && m.chans.wf {} && m.seals.wf 0

/-- Every bit set in one number is set in another. -/
def BitsGrow (a b : Nat) : Prop := ∀ i, a.testBit i = true → b.testBit i = true

/-- OTP has only gained bits, and its factory area is unchanged (R367, R368). -/
structure Otp.Grows (a b : Otp) : Prop where
  factory : b.factory = a.factory
  records : ∀ g, BitsGrow (leVal (a.records.getD g [])) (leVal (b.records.getD g []))
  hashes : ∀ k, BitsGrow (leVal (a.hashes.getD k [])) (leVal (b.hashes.getD k []))
  marks : BitsGrow a.marks b.marks
  sec : BitsGrow a.sec b.sec
  sess : BitsGrow a.sess b.sess

/-- OTP has its four records and four key slots, the tenant table is in its canonical form, and every tenant's live generation
is 0 or 1 (R367, R194). -/
structure State.Sound (s : State) : Prop where
  records : s.otp.records.length = 4
  hashes : s.otp.hashes.length = 4
  table : s.vault.tenants.wf {} = true
  live : ∀ id, (s.vault.tenants.get {} id).live ≤ 1

/-- A tenant's ledger from one state to another: while the tenant is there, its budget stays and its spend does not fall (R193). -/
def LedgerKept (v v' : Vault) : Prop :=
  ∀ id, (v.tenants.get {} id).st ≠ 0 → (v'.tenants.get {} id).st ≠ 0 →
    (v'.tenants.get {} id).budget = (v.tenants.get {} id).budget ∧ (v.tenants.get {} id).spent ≤ (v'.tenants.get {} id).spent

end Sys2Proof.Machine
end

