-- ==== Sys2Proof/Certificates/Slice0/Obligations.lean ====
section
/-! DEFINITION. The statements made of the engine. Each one's docstring names the rules of spec/ that it rests on. -/

open Sys2Proof Sys2Proof.Machine

/-! The machine as a whole. -/

/-- Commands run first in, first out: with a command at the front of the queue, a step is that command's effect, with the rest
of the queue kept. -/
def Obligations.StepRunsFrontCommand : Prop :=
  ∀ (c : Instr) (rest : List Instr) (s : State), step { s with pending := c :: rest } = exec c { s with pending := rest }

/-- With no command waiting, a microsecond passes (the model's choice, log entry 3): the timestamp rises by 1,000 ns where it
runs (R8), the cycle counters by a microsecond of their clocks while those run (R407), and no memory changes. Where requests wait for the
management core, the oldest is answered first (R290, log entry 3). -/
def Obligations.EmptyQueueTicks : Prop :=
  (∀ s : State, s.pending = [] → s.w.stn.rx = [] ∨ s.w.clocked = false → ∃ t, step s = .next t ∧ t.pending = [] ∧ t.otp = s.otp ∧ t.vault = s.vault ∧
    t.w.clock.ns = s.w.clock.ns + (if s.w.timed then 1000 else 0) ∧
    t.w.clock.compute = s.w.clock.compute + (if s.w.clocked then computeMHz t.w.pt.op else 0) ∧
    t.w.clock.fabric = s.w.clock.fabric + (if s.w.clocked then fabricMHz t.w.pt.op else 0) ∧
    t.w.mem = s.w.mem ∧ t.w.sched = s.w.sched ∧ t.w.host.queues = s.w.host.queues) ∧
  (∀ (s : State) (x : Rx) (rest : List Rx), s.pending = [] → s.w.clocked = true → s.w.stn.rx = x :: rest →
    step s = .next (((s.onW (fun w => { w with stn := { w.stn with rx := rest } })).serveOne x).onW World.tick))

/-- Reset is Dormant with no command waiting, no tenant, nothing in memory, and the objects of Table 18.2 at their defaults.

The invariants of this file hold at reset: OTP and the tenant table are sound, and memory is in its canonical form. -/
def Obligations.ResetState : Prop :=
  (let w := State.reset.w
   State.reset.pending = [] ∧ State.reset.vault.tenants = [] ∧ w.power.st = .dormant ∧ w.pins.ready = false ∧ w.pins.faultN = none ∧
   w.mem.mem = [] ∧ w.sched.tasks = [] ∧ w.clock.ns = 0 ∧ w.log.staged = [] ∧ w.sec.fw = 0 ∧ w.sec.session = false ∧
   (w.adp.plcaN, w.adp.plcaTo, w.adp.segMs, w.adp.idleS) = (8, 32, 100, 300) ∧ (w.adp.noteNode, w.adp.noteCar) = (0xFF, 0x0A) ∧
   (w.power.req, w.power.lowTarget, w.power.leaveIdle, w.power.dozeSrc, w.power.dozeCause) = (0, 0, true, 3, 0xFF) ∧
   (w.pt.cap, w.pt.frac, w.pt.lowCeil, w.pt.softMa, w.pt.holdMs) = (18000, [62, 24, 8, 6], 0x13, 13000, 10) ∧ w.meter.onset = 100 ∧
   (w.sched.holdBudget, w.sched.semHome) = (200, 0xFF) ∧ (w.num.ftz, w.num.sat, w.num.blk, w.num.accov, w.num.grp) = (0, 1, 1, 1, 2) ∧
   (w.num.k4, w.num.k8, w.num.k16, w.num.wcap, w.num.outT, w.num.defD, w.num.defH) = (5, 9, 18, 1, 3, 8, 3) ∧
   (w.mem.patrolH, w.mem.quota, w.mem.strLo, w.mem.strHi) = (12, 8, 4, 32) ∧ (w.train.reserve, w.train.margin, w.train.estNone) = (0xFFFFFFFF, 20, 5000) ∧
   (w.link.jobSize, w.link.grid, w.link.deadline, w.link.limit, w.link.ckStep) = (1, 0x11, 2000, 8, 0xFFFFFFFF) ∧
   (w.queue 0).e = 256 ∧ (w.queue 63).ceil = 15 ∧ (w.part 0).home = 0xFFFF ∧ (w.ctx 0).latency = 4000 ∧ (w.tdm 0).slots = 8) ∧
  (State.reset.Sound ∧ Memory.wf State.reset.w.mem = true)

/-- No command touches the queue of commands. -/
def Obligations.ExecKeepsQueue : Prop :=
  ∀ (c : Instr) (s t : State), exec c s = .next t → t.pending = s.pending

/-- OTP is programmed by the completion of an OTP word alone: every other command leaves it as it was (R367, R368). -/
def Obligations.OnlyProgrammingChangesOtp : Prop :=
  ∀ (c : Instr) (s t : State), exec c s = .next t → (∀ ok, c ≠ .otpWordProgrammed ok) → t.otp = s.otp

/-- Whatever the engine does, OTP only gains bits, and its factory area never changes (R367, R368). -/
def Obligations.StepOtpGrows : Prop :=
  ∀ s t : State, step s = .next t → s.otp.Grows t.otp

/-- Every step keeps OTP's four records and four key slots, the canonical form of the tenant table, and every tenant's live
generation one of two (R194, R367). -/
def Obligations.StepKeepsSound : Prop :=
  ∀ s t : State, s.Sound → step s = .next t → t.Sound

/-- No step lowers what a tenant has spent or changes its budget while the tenant exists (R193), but for the restore of a
checkpoint (R31, R225). The step is one at which no request waits: with those before it, one command may answer several, of which some
may retire a tenant and create it again. -/
def Obligations.StepKeepsLedgers : Prop :=
  ∀ s t : State, step s = .next t → s.pending.head? ≠ some .checkpointRestoreDone → s.w.stn.rx = [] → LedgerKept s.vault t.vault

/-! Operations. -/

/-- An operation with no wait executes whole when every core of its stage runs it and nothing asks its task to leave them, its
descriptor can be fetched, its checks pass, nothing that its checks or its effect read is poisoned or still to come from another
engine, its step's phase allows it, its job runs, and no sealed data would leave without a link secret (R114 stages 1 to 5, R137,
R163, R177, R215, R223). The checks see the engine as it stands; the scale of an F16S operand is its slot's as the operation enters
execution (R33, R39).

A failed check ends an operation with the status of the check at the lowest position, as its whole effect: the stage holds
the result, and nothing else changes but whether the operation met the phase mark (R13, R114 stage 2). -/
def Obligations.OperationsExecuteOrReport : Prop :=
  (∀ (s : State) (q n g : Nat) (t : Task) (st : Stage) (bs : Bytes) (mods : Nat → Bool) (extra : World → Run → List Fail)
     (reads : World → Run → List (List Region)),
     let d := Desc.ofBytes bs
     let w := s.w
     let cr := w.checkReads t g (w.envOf t g w.defaults st.pc d) d
     let st' := w.latch t g st bs
     let w1 := w.enterOp t g st' d
     let r := w1.runOf t g (w1.latchSlots t g { st' with since := w1.mem.farSeq })
     w.task? ⟨q, n⟩ = some t → t.stgs[g]? = some st → w.canRun t g st = true → t.stageOn g = true → t.preempt = false → w.mustLeave t = false →
     st.pts = [] → st.phase = .ready → w.fetchDesc st.pc = some bs →
     mods d.mod = true → w.poisoned (⟨.here, st.pc, bs.length⟩ :: cr.flatten) = none → (w.atMark t g d.opc && !t.othersOver g) = false →
     (w.atMark t g d.opc && (w.dueAbandon t).isSome) = false →
     w.firstMissing st.since cr = [] → w.checkOp t g st' extra = none → w1.jobStop (w.runOf t g st') = none → d.wen = false →
     w1.firstMissing w1.mem.farSeq (reads w1 r) = [] → w1.poisoned (reads w1 r).flatten = none →
     (r.writesFar && w1.readsSealed r && !w1.hasLinkSecret) = false →
     (∃ w', World.ready s q n g d.opc mods extra reads w' r ∧ w'.mem.mem = w.mem.mem ∧ w'.clock = w.clock ∧ w'.num = w.num) ∧
     (st.slots = [] → ∀ i, i < 4 → (r.o i).fmt.code = cF16S → (r.o i).fmt.s = (w.num.slots.get {} (r.o i).fmt.slot).s)) ∧
  (∀ (w : World) (q n g : Nat) (t : Task) (st : Stage) (bs : Bytes) (status : Nat) (pts : List Nat) (mods : Nat → Bool) (extra : World → Run → List Fail)
     (reads : World → Run → List (List Region)) (run : World → Run → World × Done),
     let d := Desc.ofBytes bs
     let cr := w.checkReads t g (w.envOf t g w.defaults st.pc d) d
     let st' := w.latch t g st bs
     w.task? ⟨q, n⟩ = some t → t.stgs[g]? = some st → w.canRun t g st = true → st.phase = .ready → w.fetchDesc st.pc = some bs →
     mods d.mod = true → (d.preClass ≠ .whole ∨ t.stageOn g = true) →
     w.poisoned (⟨.here, st.pc, bs.length⟩ :: cr.flatten) = none → (w.atMark t g d.opc && !t.othersOver g) = false →
     (w.atMark t g d.opc && (w.dueAbandon t).isSome) = false →
     w.firstMissing st.since cr = [] → w.checkOp t g st' extra = some status →
     w.operate q n g pts d.opc mods extra reads run =
       w.updStage t.id g (fun _ => { st' with phase := .executed { status := status, tag := d.tag, refused := true } }))

/-- A write of an operation to local memory is those bytes at that address, and no other byte of memory changes (R114 stage 6,
R149). A write to staging of a stage of one core is those bytes in that core's staging SRAM, and memory keeps every byte. -/
def Obligations.OperationWritesItsBytes : Prop :=
  ∀ (w : World) (r : Run) (a : Nat) (bs : Bytes) (owner : Nat → Nat),
    Wrote w (w.put r .here a bs owner) a bs ∧
    (r.cores.length = 1 → SameMemory w (w.put r .stg a bs owner) ∧
      ∀ x, (w.put r .stg a bs owner).mem.staging.get 0 x =
        if r.cores.headD 0 * 524288 + a ≤ x ∧ x < r.cores.headD 0 * 524288 + a + bs.length
        then bs.getD (x - (r.cores.headD 0 * 524288 + a)) 0 else w.mem.staging.get 0 x)

/-- NOP, JUMP and DROP have no effect of their own beyond their completion (R100, R106, R115); TSTAMP writes the timestamp of
R8 to D; FILL writes V1, converted to D's code, to every element of D (R115).

COPY, LOADS, STORES and PUSHPOST move K bytes from A to D unchanged (R118, R214). PREFETCH makes the sectors of a local A
valid in their slices, and no byte of memory changes (R115, R163).

GATHER writes row i of D from row B[i] of A, or zeros where B[i] names no row, and counts those rows; SCATTER writes row i of A
to row B[i] of D in ascending i, and skips and counts the rows that B[i] does not name; TRANSPOSE writes element (i, j) of A, its
code unchanged, as element (j, i) of D (R118). -/
def Obligations.ControlAndMoveResults : Prop :=
  (∀ (s : State) (q n g : Nat) (w : World) (r : Run),
     (World.ready s q n g 0x00 anyMod noExtra wholeReads w r → Gives (.nopOp q n g) s (w.executed r.t.id r.g r.ok)) ∧
     (World.ready s q n g 0x02 anyMod noExtra wholeReads w r → Gives (.jumpOp q n g) s (w.executed r.t.id r.g r.ok)) ∧
     (World.ready s q n g 0x04 anyMod noExtra wholeReads w r → Gives (.dropOp q n g) s (w.executed r.t.id r.g r.ok)) ∧
     (∀ l a, World.ready s q n g 0x03 anyMod noExtra wholeReads w r → (r.o 3).place = some (l, a) →
       Gives (.tstamp q n g) s ((w.put r l a (leBytes 8 s.w.clock.ns) (fun _ => 0)).executed r.t.id r.g r.ok)) ∧
     (World.ready s q n g 0x11 anyMod noExtra wholeReads w r →
       let rows := List.replicate (r.o 3).rows (List.replicate (r.o 3).els (r.d.parF 0))
       Gives (.fillOp q n { stage := g }) s ((w.putD r (r.converted rows)).executed r.t.id r.g (r.counted (r.conversions rows))))) ∧
  (∀ (s : State) (q n g : Nat) (w : World) (r : Run) (l l' : Loc) (a a' : Nat),
     let moved := (w.put r l a (w.readAt (r.cores.headD 0) l' a' r.d.k) (fun _ => 0)).executed r.t.id r.g r.ok
     ((r.o 3).place = some (l, a) → (r.o 0).place = some (l', a') →
       (World.ready s q n g 0x10 anyMod noExtra wholeReads w r → Gives (.copyOp q n { stage := g }) s moved) ∧
       (World.ready s q n g 0x12 anyMod noExtra wholeReads w r → Gives (.loads q n { stage := g }) s moved) ∧
       (World.ready s q n g 0x13 anyMod noExtra wholeReads w r → Gives (.stores q n { stage := g }) s moved) ∧
       (World.ready s q n g 0x65 anyMod noExtra wholeReads w r → Gives (.pushpost q n { stage := g }) s moved)) ∧
     ((r.o 0).place = some (.here, a') → World.ready s q n g 0x17 anyMod noExtra prefetchReads w r →
       Gives (.prefetch q n { stage := g }) s (({ w with mem := (linesOf a' r.d.k).foldl (fun m x => m.touch x (touchMask x a' r.d.k) 0) w.mem } : World).executed r.t.id r.g r.ok)) ∧
     (∀ x, (r.o 0).place = some (.far x, a') → World.ready s q n g 0x17 anyMod noExtra prefetchReads w r →
       Gives (.prefetch q n { stage := g }) s (w.executed r.t.id r.g r.ok))) ∧
  (∀ (s : State) (q n g : Nat) (w : World) (r : Run),
     let core := fun i => rowCore r.cores.length i
     let row := fun (i k : Nat) => w.rowBytesAt (r.cores.getD (core i) 0) (r.o 0) k
     let named := fun (i : Nat) => decide (0 ≤ w.indexAt r i) && decide (w.indexAt r i < r.d.n)
     let missed := (List.range r.d.m).countP (fun i => !named i)
     (World.ready s q n g 0x14 anyMod noExtra gatherReads w r →
       Gives (.gather q n { stage := g }) s (((List.range r.d.m).foldl (fun v i => v.putRow r (r.o 3) (core i) i
         (if named i then row i (w.indexAt r i).toNat else zeros (rowBytes (r.o 0).fmt (r.o 0).els))) w).executed r.t.id r.g (r.counted { sat := missed }))) ∧
     (World.ready s q n g 0x15 anyMod noExtra wholeReads w r →
       Gives (.scatter q n { stage := g }) s (((List.range r.d.m).foldl (fun v i =>
         if named i then v.putRow r (r.o 3) (core i) (w.indexAt r i).toNat (row i i) else v) w).executed r.t.id r.g (r.counted { sat := missed }))) ∧
     (World.ready s q n g 0x16 anyMod noExtra wholeReads w r →
       let code := fun (j i : Nat) => (unpack (elBits (r.o 0).fmt.code) (row j i)).getD j 0
       Gives (.transpose q n { stage := g }) s (((List.range r.d.k).foldl (fun v j => v.putRow r (r.o 3) (core j) j
         (pack (elBits (r.o 0).fmt.code) ((List.range r.d.m).map (code j)))) w).executed r.t.id r.g r.ok)))

/-- MATMUL, MATMULT and CONV1D form each element of D from the pairs of Table 5.11, row i of A with row j of B, with column j of
B, or tap by tap down column j of A, and with element (i, j) of C where CIN is set; the tiles of dot products go through the
output stage to D, each on the core that it is dealt to (R56, R72, R77, R131). With SPL set the results are the same, and the spill
entries besides are in staging SRAM (R65).

REDUCE writes one value of each row through R77: the exact kinds convert its greatest or least value, its greatest magnitude, or the index
of its greatest or least value (R70, R76); SUM and SUMSQ are dot products of the row with 1 or with itself, whose result takes the
status and counts of the dot products (R70). -/
def Obligations.MatrixAndReduceResults : Prop :=
  (∀ (s : State) (q n g : Nat) (w : World) (r : Run),
     let as := w.tensors r 0 r.ftz
     let bs := w.tensors r 1 r.ftz
     let cs := w.tensors r 2 false
     let z : El := ⟨0, .zero false, false⟩
     let at_ := fun (t : List (List El)) (i j : Nat) => (t.getD i []).getD j z
     let boxes := tileBoxes r.d.shp (r.o 3).rows (r.o 3).els
     let done := fun (x : World × Done) => x.2.elim x.1 (fun res => x.1.executed r.t.id r.g res)
     let result := fun (pairs : List (List El) → List (List El) → Nat → Nat → List (El × El)) (v : World) =>
       let lane := fun (i j : Nat) =>
         ({ gs := chunks r.group (pairs (coreCopy as (tileCore r i j)) (coreCopy bs (tileCore r i j)) i j)
            c0 := if r.d.cin then some ((((coreCopy cs (tileCore r i j)).getD i []).map (·.x)).getD j (.zero false)) else none } : Lane)
       let dots := boxes.map (fun b => runTile r.dotCfg (cdiv r.d.k r.group) (b.lanes lane))
       let acc := tileRows r.d.shp (r.o 3).rows (r.o 3).els dots
       let t3 := acc.zipIdx.map (fun (row, i) => row.zipIdx.map (fun (x, j) =>
         ostEl (v.ostCfg r (r.cores.getD (tileCore r i j) 0) (r.d.acc == cI32)) j x))
       done (v.writeOutput r t3 (flushAny (readers as boxes.length) + flushAny (readers bs boxes.length)) (dotTotal dots) (tileOwner r))
     let gives := fun (c : Instr) (pairs : List (List El) → List (List El) → Nat → Nat → List (El × El)) =>
       (r.d.spl = 0 → Gives c s (result pairs w)) ∧
       (r.d.spl ≠ 0 → r.tiles = [] → ∃ staging, Gives c s (result pairs { w with mem := { w.mem with staging := staging } }))
     r.cores ≠ [] →
     (World.ready s q n g 0x20 anyMod noExtra wholeReads w r →
       gives (.matmul q n { stage := g }) (fun a b i j => (a.getD i []).zip (b.getD j []))) ∧
     (World.ready s q n g 0x21 anyMod noExtra wholeReads w r →
       gives (.matmult q n { stage := g }) (fun a b i j => (a.getD i []).zip (b.map (fun row => row.getD j z)))) ∧
     (World.ready s q n g 0x22 anyMod noExtra wholeReads w r →
       gives (.conv1d q n { stage := g }) (fun a b i j => (List.range r.d.k).map (fun x => (at_ a (i + x) j, at_ b j x))))) ∧
  (∀ (s : State) (q n g : Nat) (w : World) (r : Run),
     let done := fun (x : World × Done) => x.2.elim x.1 (fun res => x.1.executed r.t.id r.g res)
     let exact := fun (f : List XV → XV) =>
       let rows := w.rowsFor r (rowCore r.cores.length)
       done (w.writeOutput r [(rowVals rows).map f] (flushCount rows) {} (reduceOwner r (rowCore r.cores.length)))
     let ix := fun (b : Bool) (xs : List XV) => XV.ofInt (redArg b xs)
     let ready := fun m => World.ready s q n g 0x23 (modIs 7 m) noExtra wholeReads w r
     (ready 2 → Gives (.reduceMax q n { stage := g }) s (exact redMax)) ∧ (ready 3 → Gives (.reduceMin q n { stage := g }) s (exact redMin)) ∧
     (ready 4 → Gives (.reduceAmax q n { stage := g }) s (exact redAmax)) ∧ (ready 5 → Gives (.reduceArgmax q n { stage := g }) s (exact (ix true))) ∧
     (ready 6 → Gives (.reduceArgmin q n { stage := g }) s (exact (ix false))) ∧
     (let core := fun i => i / ((tileShape r.d.shp).1 * (tileShape r.d.shp).2) % max 1 r.cores.length
      let rows := w.rowsFor r core
      let cs := w.tensors r 2 false
      let dot := fun (one : El → El) (v : World) =>
        let lane := fun (i : Nat) =>
          ({ gs := chunks r.group ((rows.getD i []).map (fun e => (e, one e)))
             c0 := if r.d.cin then some ((((coreCopy cs (core i)).headD []).map (·.x)).getD i (.zero false)) else none } : Lane)
        let dots := (runLanes r.d.shp r.d.m lane).map (runTile r.dotCfg (cdiv r.d.k r.group))
        let t3 := (dots.flatMap (fun t => t.vals.flatten)).zipIdx.map (fun (x, j) =>
          ostEl (v.ostCfg r (r.cores.getD (core j) 0) (r.d.acc == cI32)) j x)
        done (v.writeOutput r [t3] (flushCount rows) (dotTotal dots) (reduceOwner r core))
      let gives := fun (c : Instr) (one : El → El) =>
        (r.d.spl = 0 → Gives c s (dot one w)) ∧
        (r.d.spl ≠ 0 → r.tiles = [] → ∃ staging, Gives c s (dot one { w with mem := { w.mem with staging := staging } }))
      r.cores ≠ [] →
      (ready 0 → gives (.reduceSum q n { stage := g }) (fun _ => elOne)) ∧ (ready 1 → gives (.reduceSumsq q n { stage := g }) (fun e => e))))

/-- VADD, VMUL, VFMA, VMINMAX, VSCALE and VSELECT form each element of D from the elements of the same place of A, B and C, a
one-row operand giving its row to each row, and round once, to D (R41, R116).

Each VFUNC writes its function of every element of A: ReLU, the reciprocal, the square root and its reciprocal are the exact
value rounded to F32, the transcendental ones are as R116 evaluates them, and ABS and NEGATION change only the sign (R116).

SOFTMAX divides each row's EXP of its distances from its maximum by their ISUM; NORM takes out the ISUM mean (MOD 0) or none
(MOD 1) and multiplies by the reciprocal root of the ISUMSQ mean and V1, then by B, and adds C (MOD 0) (R117). -/
def Obligations.VectorResults : Prop :=
  (∀ (s : State) (q n g : Nat) (w : World) (r : Run),
     let x := fun i => rowVals (w.rowsLike r i)
     let out := fun (rows : List (List XV)) (flushed : Nat) =>
       let c := r.conversions rows
       (w.putD r (r.converted rows)).executed r.t.id r.g (r.counted { c with flush := c.flush + flushed })
     let two := fun (f : XV → XV → XV) => out (List.zipWith (List.zipWith f) (x 0) (x 1)) (w.flushedIn r 0 + w.flushedIn r 1)
     let three := fun (f : XV → XV → XV → XV) =>
       out (List.zipWith (fun (h : List XV → List XV) c => h c) (List.zipWith (fun a b => zip3 f a b) (x 0) (x 1)) (x 2))
         (w.flushedIn r 0 + w.flushedIn r 1 + w.flushedIn r 2)
     (World.ready s q n g 0x30 anyMod noExtra wholeReads w r → Gives (.vadd q n { stage := g }) s (two XV.add)) ∧
     (World.ready s q n g 0x31 anyMod noExtra wholeReads w r → Gives (.vmul q n { stage := g }) s (two XV.mul)) ∧
     (World.ready s q n g 0x32 anyMod noExtra wholeReads w r → Gives (.vfma q n { stage := g }) s (three (fun a b c => (a.mul b).add c))) ∧
     (World.ready s q n g 0x33 (modIs 2 0) noExtra wholeReads w r → Gives (.vmax q n { stage := g }) s (two XV.max)) ∧
     (World.ready s q n g 0x33 (modIs 2 1) noExtra wholeReads w r → Gives (.vmin q n { stage := g }) s (two XV.min)) ∧
     (World.ready s q n g 0x37 anyMod noExtra wholeReads w r →
       Gives (.vscale q n { stage := g }) s (out ((x 0).map (fun row => row.map (XV.scale (toSigned 32 (r.d.par 8 4))))) (w.flushedIn r 0))) ∧
     (World.ready s q n g 0x38 anyMod noExtra wholeReads w r →
       Gives (.vselect q n { stage := g }) s (three (fun a b c => if c.isZero then b else a)))) ∧
  (∀ (s : State) (q n g : Nat) (w : World) (r : Run),
     let f := fun (m : Nat) (c : Nat → Nat → StageRun → Instr) (h : XV → XV) =>
       let rows := (rowVals (w.rowsLike r 0)).map (fun row => row.map h)
       let k := r.conversions rows
       World.ready s q n g 0x34 (modIs 11 m) noExtra wholeReads w r →
         Gives (c q n { stage := g }) s ((w.putD r (r.converted rows)).executed r.t.id r.g (r.counted { k with flush := k.flush + w.flushedIn r 0 }))
     f 0 .vfuncRelu (fun x => toF32 (XV.max x (.zero false))) ∧ f 1 .vfuncGelu geluF32 ∧ f 2 .vfuncSilu siluF32 ∧
     f 3 .vfuncTanh tanhF32 ∧ f 4 .vfuncSigmoid sigmoidF32 ∧ f 5 .vfuncExp expF32 ∧
     f 6 .vfuncReciprocal (fun x => toF32 ((XV.ofInt 1).div x)) ∧ f 7 .vfuncRsqrt (fun x => toF32 (rsqrtX x)) ∧
     f 8 .vfuncSqrt (fun x => toF32 (sqrtX x)) ∧ f 9 .vfuncAbs XV.abs ∧ f 10 .vfuncNegation XV.negate) ∧
  (∀ (s : State) (q n g : Nat) (w : World) (r : Run),
     let out := fun (rows : List (List XV)) (flushed : Nat) =>
       let c := r.conversions rows
       (w.putD r (r.converted rows)).executed r.t.id r.g (r.counted { c with flush := c.flush + flushed })
     let a := w.rowsLike r 0
     let gain := fun i => (rowVals (w.rowsLike r 1)).getD i []
     let norm := fun (mu : List El → XV) (bias : Nat → List XV) =>
       a.zipIdx.map (fun (row, i) =>
         let ds := (row.map (·.x)).map (fun x => subF x (mu row))
         let v := rsqrtF32 (addF (divF (isumsq (ds.map el32)) (XV.ofInt r.d.k)) (r.d.parF 0))
         zip3 (fun d h b => ((d.mul v).mul h).add b) ds (gain i) (bias i))
     (World.ready s q n g 0x35 anyMod noExtra wholeReads w r →
       Gives (.softmax q n { stage := g }) s (out (a.map (fun row =>
         let es := row.map (fun e => expF32 (e.x.sub (redMax (row.map (·.x)))))
         es.map (fun e => e.div (isum (es.map el32))))) (w.flushedIn r 0))) ∧
     (World.ready s q n g 0x36 (modIs 2 0) noExtra wholeReads w r →
       Gives (.layerNorm q n { stage := g }) s (out (norm (fun row => divF (isum row) (XV.ofInt r.d.k)) (fun i => (rowVals (w.rowsLike r 2)).getD i []))
         (w.flushedIn r 0 + w.flushedIn r 1 + w.flushedIn r 2))) ∧
     (World.ready s q n g 0x36 (modIs 2 1) noExtra wholeReads w r →
       Gives (.rmsNorm q n { stage := g }) s (out (norm (fun _ => .zero false) (fun _ => List.replicate r.d.k (.zero false)))
         (w.flushedIn r 0 + w.flushedIn r 1))))

/-- An update of a slot puts its pending exponent at the front of the history of sixteen, leaves nothing pending and adds one to the
update count. The slot's scale then follows the greatest exponent of its depth, within the format's range and the slot's band; a
pinned scale, and one with no exponent in its depth, stays (R80). -/
def Obligations.ScaleSlotUpdate : Prop :=
  ∀ (sl : Slot) (d h : Nat),
    let x := (sl.update d h sl.pending).1
    let hit := (sl.update d h sl.pending).2
    let depth := (sl.d.getD d)
    let e := ((sl.pending :: sl.hist).take 16 |>.take depth).foldl maxExp none
    let c := fun (m : Int) => clampI (m + (sl.h.getD h : Nat) - 15) (-128) 127
    x.hist = (sl.pending :: sl.hist).take 16 ∧ x.pending = none ∧ x.updates = sat32 sl.updates 1 ∧
    (x.pinned, x.d, x.h, x.lo, x.hi, x.nonfin) = (sl.pinned, sl.d, sl.h, sl.lo, sl.hi, sl.nonfin) ∧
    (e = none → x.s = sl.s ∧ hit = false) ∧
    (∀ m, e = some m → sl.pinned = false → x.s = clampI (c m) sl.lo sl.hi ∧ hit = (clampI (c m) sl.lo sl.hi != c m)) ∧
    (∀ m, e = some m → sl.pinned = true → x.s = sl.s ∧ hit = (clampI (c m) sl.lo sl.hi != sl.s))

/-- A saved stream is lossless: what ACTLOAD decodes from the stream that ACTSAVE encodes is the rows of codes that were saved,
whatever those 16-bit codes are (R180, R181, R182). -/
def Obligations.SavedStreamsAreLossless : Prop :=
  ∀ (k code : Nat) (sc : Nat) (rows : List (List Nat)),
    (∀ row ∈ rows, row.length = k ∧ ∀ c ∈ row, c < 2 ^ 16) → k < 2 ^ 32 → rows.length < 2 ^ 20 →
    decodeStream (encodeStream k code sc rows).1 rows.length k = .ok rows

/-- CONVERT takes each element of A through the output stage to D (R72, R77); OBSERVE enters A's greatest exponent in D's slot
and writes no data (R79); SCALEUPD on one engine updates the N slots from M on, in ascending order, each with the exponent that
was pending in it (R80, R81).

ACTSAVE writes the saved stream of A's codes to D (R180, R181); ACTLOAD writes the rows that its stream decodes to (R182).

RNGBITS writes the words of its elements; RNGUNI writes V1 + (V2 − V1) × x, RNGGAUSS writes V1 + V2 × z and DROPOUT writes A ÷ V1
where x is below V1 and zero elsewhere, each rounded once to D; each counts the words it drew (R187, R188).

GNORM adds the SUMSQ of each chunk of 4,096 elements of A exactly to its step's norm accumulator (R185). CLIPNOISE, under its
task's codes and the step's one clip norm, writes f × A + σ × C × z rounded once to D, from the step's frozen clip factor and the
noise of the tenant's key (R186, R189), and enters its elements among the step's noised ones (R190, R191).

CKPT writes the checkpoint of its task's tenant to D: the header of Table 15.12, then the live generation. In a checkpoint
task it also enters the tenant in the staged checkpoint, with the scale slots and the step counter as they stand at its first
CKPT (R225, R388). -/
def Obligations.ScaleSaveAndTrainResults : Prop :=
  (∀ (s : State) (q n g : Nat) (w : World) (r : Run),
     let rows := w.rowsOf r 0 r.ftz
     let int := isIntCode (r.o 0).fmt.code
     let t3 := rows.zipIdx.map (fun (row, i) => row.zipIdx.map (fun (e, j) =>
       ostEl (w.ostCfg r (r.cores.getD (rowCore r.cores.length i) 0) int) j { v := e.x, int := int }))
     let out := w.writeOutput r t3 (flushCount rows) {} (fun f => rowOwner r.cores.length f (r.o 3).rows (r.o 3).els)
     (r.cores ≠ [] → World.ready s q n g 0x40 anyMod noExtra wholeReads w r →
       ∃ res, out.2 = some res ∧ Gives (.convert q n { stage := g }) s (out.1.executed r.t.id r.g res)) ∧
     (World.ready s q n g 0x42 anyMod noExtra wholeReads w r →
       Gives (.observe q n { stage := g }) s ((w.observeSlot r.t.id (r.o 3).fmt.slot (observe (rowVals rows).flatten)).executed r.t.id r.g
         { r.counted { flush := flushCount rows } with observed := true })) ∧
     (World.ready s q n g 0x41 anyMod noExtra wholeReads w r → w.multi = false →
       ∃ w' : World, Gives (.scaleupd q n g) s (w'.executed r.t.id r.g r.ok) ∧ w'.mem = w.mem ∧
         (∀ i, i < r.d.n → w'.num.slots.get {} (r.d.m + i) =
           ((w.num.slots.get {} (r.d.m + i)).update w.num.defD w.num.defH (w.num.slots.get {} (r.d.m + i)).pending).1) ∧
         (∀ x, (x < r.d.m ∨ r.d.m + r.d.n ≤ x) → w'.num.slots.get {} x = w.num.slots.get {} x))) ∧
  (∀ (s : State) (q n g : Nat) (w : World) (r : Run),
     let a := r.o 0
     let codes := (List.range r.d.m).map (fun i => unpack 16 (w.rowBytesAt (r.cores.getD (rowCore r.cores.length i) 0) a i))
     let stream := encodeStream r.d.k a.fmt.code (if a.fmt.code = cF16S then ofSigned 8 a.fmt.s else 0) codes
     (∀ l ad, (r.o 3).place = some (l, ad) → World.ready s q n g 0x50 anyMod noExtra wholeReads w r →
       Gives (.actsave q n { stage := g }) s ((w.put r l ad stream.1 (fun off => (stream.2.countP (fun o => decide (o ≤ off)) - 1) % max 1 r.cores.length)).executed
         r.t.id r.g { r.ok with code := a.fmt.code })) ∧
     (∀ rows, decodeStream (w.savedStream r) r.d.m r.d.k = .ok rows → World.ready s q n g 0x51 anyMod actloadExtra wholeReads w r →
       Gives (.actload q n { stage := g }) s ((rows.zipIdx.foldl (fun v (row, i) => v.putRow r (r.o 3) (rowCore r.cores.length i) i (pack 16 row)) w).executed r.t.id r.g r.ok))) ∧
  (∀ (s : State) (q n g : Nat) (w : World) (r : Run),
     let id := w.rngId s.vault r
     let word := fun i => rngWord id (r.first + i)
     let x := fun i => XV.fin false (word i / 256) 1 (-24)
     let out := fun (words flushed : Nat) (row : List XV) =>
       let c := r.conversions [row]
       ((w.drew words).putD r (r.converted [row])).executed r.t.id r.g (r.counted { c with flush := c.flush + flushed })
     let v1 := r.d.parF 0
     let v2 := r.d.parF 4
     let a := (w.rowsOf r 0 r.ftz).headD []
     (∀ l ad, (r.o 3).place = some (l, ad) → World.ready s q n g 0x70 anyMod (rngExtra s.vault) wholeReads w r →
       Gives (.rngbits q n { stage := g }) s (((w.put r l ad ((List.range r.d.k).flatMap (fun i => leBytes 4 (word i))) (fun _ => 0)).drew r.d.k).executed r.t.id r.g r.ok)) ∧
     (World.ready s q n g 0x71 anyMod (rngExtra s.vault) wholeReads w r →
       Gives (.rnguni q n { stage := g }) s (out r.d.k 0 ((List.range r.d.k).map (fun i => v1.add ((v2.sub v1).mul (x i)))))) ∧
     (World.ready s q n g 0x72 anyMod (rngExtra s.vault) wholeReads w r →
       Gives (.rnggauss q n { stage := g }) s (out (2 * r.d.k) 0 ((List.range r.d.k).map (fun i => v1.add (v2.mul (gauss id (r.first + i))))))) ∧
     (World.ready s q n g 0x73 anyMod (dropoutExtra s.vault) wholeReads w r →
       Gives (.dropout q n { stage := g }) s (out r.d.k (flushCount [a]) (a.zipIdx.map (fun (e, i) => if XV.lt (x i) v1 then e.x.div v1 else .zero false))))) ∧
  (∀ (s : State) (q n g : Nat) (w : World) (r : Run) (st : Step), w.step? r.t.id = some st →
     (World.ready s q n g 0x52 anyMod gnormExtra wholeReads w r →
       let ts := w.tensors r 0 r.ftz
       let parts := (List.range (cdiv r.d.k 4096)).map (fun i => (((coreCopy ts (rowCore r.cores.length i)).headD []).drop (4096 * i)).take 4096)
       Gives (.gnorm q n { stage := g }) s ((w.updStep r.t.id (fun x => parts.foldl (fun x els => x.addPartial (isumsq els)) x)).executed r.t.id r.g
         { r.counted { sat := 0, flush := flushCount parts } with code := (r.o 0).fmt.code })) ∧
     (World.ready s q n g 0x53 anyMod (clipnoiseExtra s.vault) wholeReads w r →
       (r.d.par 44 1, r.d.par 45 1) = (r.t.sigma, r.t.q) → w.train.stepCtr ≠ 0xFFFFFFFF → (∀ f, st.frozen = some f → f.clip = r.d.par 48 4) →
       let fz := st.frozen.getD (st.freeze (r.d.par 48 4))
       let id : RngId := { key := w.taskKey s.vault r.t, tensor := r.d.par 24 4, step := w.train.stepCtr + 1 }
       let sd := mulF (.fin false (2 + r.t.sigma) 1 (-2)) (decodeF fmtF32 (r.d.par 48 4))
       let row := (w.rowsOf r 0 r.ftz).headD []
       let xs := row.zipIdx.map (fun (e, i) => (if fz.zero then XV.zero false else mulF fz.f e.x).add (mulF sd (gauss id (r.first + i))))
       let c := r.conversions [xs]
       Gives (.clipnoise q n { stage := g }) s ((((w.drew (2 * r.d.k)).putD r (r.converted [xs])).updStep r.t.id (fun x => { x with
           frozen := some fz
           clips := x.clips + 1
           noise := x.noise ++ [r.noise]
           noised := x.noised ++ (r.o 3).place.toList.map (fun p => (locKey p.1 p.2, (r.o 3).ext)) })).executed
         r.t.id r.g (r.counted { c with flush := c.flush + flushCount [row] })))) ∧
  (∀ (s : State) (q n g : Nat) (w : World) (r : Run) (l : Loc) (a : Nat),
     let id := r.t.tenant.getD 0
     let t := s.vault.tenantOf r.t
     let bs := w.ckptBytes id t
     World.ready s q n g 0x56 anyMod (ckptExtra s.vault) (ckptReads s.vault) w r → (r.o 3).place = some (l, a) →
     (r.t.kind ≠ 2 → Gives (.ckpt q n g) s ((w.put r l a bs (fun _ => 0)).executed r.t.id r.g r.ok)) ∧
     (r.t.kind = 2 → ∃ w' : World, Gives (.ckpt q n g) s w' ∧ w'.mem = (w.put r l a bs (fun _ => 0)).mem ∧ w'.link = (w.put r l a bs (fun _ => 0)).link ∧
       ∃ c, w'.job.ckNext = some c ∧ c.task = r.t.id ∧ c.tenants.getLast? = some (id, a, t.since) ∧
         (w.job.ckNext = none → c.slots = w.num.slots ∧ c.stepCtr = w.train.stepCtr)) ∧
     bs.length = 128 + t.genLen ∧ leVal (bs.take 2) = id % 2 ^ 16)

/-- REEL, once no serving task holds the shadow generation, writes only to that generation: the values j to j + K − 1 of the
fields that its optimiser has, each the optimiser's element of the gradient and the live generation where that is finite, and the
live value where it is not (R195 to R197). The step has then covered K values more. -/
def Obligations.ReelUpdatesShadow : Prop :=
  ∀ (s : State) (q n g : Nat) (w : World) (r : Run) (st : Step),
    let t := s.vault.tenantOf r.t
    let o := r.opt (t.steps + 1)
    World.ready s q n g 0x54 anyMod (reelExtra s.vault) (reelReads s.vault) w r → w.step? r.t.id = some st →
    w.genHeld (r.t.tenant.getD 0) t.shadow = false → t.live ≤ 1 → st.reel + r.d.k ≤ t.np →
    let grad := fun i => ((((w.tensorAt r 0 (r.cores.headD 0) false).headD []).map (·.x)).getD i (.zero false))
    let live := fun (f i : Nat) => leVal (w.load (t.fieldAddr t.live f (st.reel + i)) (if f = 0 then 2 else 4))
    let val := fun (f i : Nat) => decodeF fmtF32 (live f i)
    let el := fun i => o.element (grad i) (val 1 i) (val 2 i) (val 3 i)
    ((w.tensorAt r 0 (r.cores.headD 0) false).headD []).length = r.d.k →
    ∃ w' : World, Gives (.reel q n g) s w' ∧
      (∀ x, (∀ f ∈ 0 :: reelFields o.kind, x < t.fieldAddr t.shadow f st.reel ∨ t.fieldAddr t.shadow f (st.reel + r.d.k) ≤ x) →
        w'.mem.mem.get 0 x = w.mem.mem.get 0 x) ∧
      (∀ i, i < r.d.k →
        let new := fun (f : Nat) => leVal (w'.load (t.fieldAddr t.shadow f (st.reel + i)) (if f = 0 then 2 else 4))
        if (el i).all XV.isFin then
          new 0 = (convEl (r.d.par 1 1) 0 true false ((el i).headD .nan)).1 % 2 ^ 16 ∧
          ∀ p ∈ (reelFields o.kind).zipIdx, new p.1 = f32Code ((el i).getD p.2 .nan) % 2 ^ 32
        else ∀ f ∈ 0 :: reelFields o.kind, new f = live f i) ∧
      (w'.step? r.t.id).map (·.reel) = some (st.reel + r.d.k)

/-- COMMIT on one engine performs the act: the tenant's shadow generation becomes the live one, its ledger is charged with the
step's spend, its step count and the engine's step counter rise by one, and the step is committed (R20, R198). Nothing else of the
tenant table changes. -/
def Obligations.CommitAct : Prop :=
  ∀ (s : State) (q n g : Nat) (w : World) (r : Run) (st : Step),
    World.ready s q n g 0x55 anyMod (commitExtra s.vault) wholeReads w r → w.step? r.t.id = some st → st.committed = false →
    w.genHeld st.tenant (s.vault.tenantOf r.t).shadow = false → w.multi = false → s.w.Quiet →
    ∃ t, exec (.commit q n g) s = .next t ∧ t.w = (w.commit r.t st).executed r.t.id r.g r.ok ∧ t.otp = s.otp ∧ t.pending = s.pending ∧
      t.w.train.stepCtr = w.train.stepCtr + 1 ∧ (t.w.step? r.t.id).map (·.committed) = some true ∧
      (t.vault.tenants.get {} st.tenant = let x := s.vault.tenants.get {} st.tenant
        { x with live := 1 - x.live, spent := x.spent + spendOf r.t.sigma r.t.q, since := x.since + spendOf r.t.sigma r.t.q
                 steps := sat32 x.steps 1, codes := 128 + 16 * (r.t.q % 8) + r.t.sigma % 16 }) ∧
      (∀ id, id ≠ st.tenant → t.vault.tenants.get {} id = s.vault.tenants.get {} id)

/-- The spend of a step with noise code k and sampling code j is 2^(12 + 2j) divided by (k + 2)², rounded up, and object 0x3521:01 reads the
128 values at index 8k + j (R192). -/
def Obligations.SpendOfCodes : Prop :=
  ∀ (k j : Nat), (2 ^ (12 + 2 * j) ≤ spendOf k j * (k + 2) ^ 2 ∧ (spendOf k j - 1) * (k + 2) ^ 2 < 2 ^ (12 + 2 * j)) ∧
    (k < 16 → j < 8 → ∀ (w : World) (o : Otp) (v : Vault) (rq : Rq), (w.readObj o v rq 0x3521 1).length = 4 * 128 ∧
      leAt (w.readObj o v rq 0x3521 1) (4 * (8 * k + j)) 4 = spendOf k j)

/-- On one engine a collective is a copy of A to D: the codes and block exponents, with zeros for the padding, where the formats are
the same, and otherwise one conversion of each element (R37, R109, R119), whose saturations and flushes are reported (the model's
reading, log entry 81); a BARRIER does nothing.

In an ensemble a collective is issued under the next sequence number (R219) with this engine's leaves: the rows of A, exact
where they are integers and otherwise converted to F32 under the operation's SAT (R217), one for each of its segments (R221);
for an ALLGATHER its codes in D's format (R218); for a SCALEUPD its pending exponents, or the least number where one is empty
(R81). Sealed data needs a link secret (R215).

A BARRIER of an ensemble takes the next sequence number and casts this engine's vote on it (R218, R219); where no child's vote is
awaited first, and this is not logical engine 0, the vote goes up the tree at once (R217). -/
def Obligations.Collectives : Prop :=
  (∀ (s : State) (q n g : Nat) (w : World) (r : Run), w.multi = false →
     let row := (w.rowsOf r 0 r.ftz).headD []
     let copy :=
       if sameFmt (r.o 0).fmt (r.o 3).fmt then
         (w.putD r (tensorBytes (r.o 3).fmt (r.o 3).els [(r.o 0).storedRow (w.opdBytes (r.cores.headD 0) (r.o 0))])).executed r.t.id r.g (r.counted {})
       else
         let c := r.conversions [row.map (·.x)]
         (w.putD r (r.converted [row.map (·.x)])).executed r.t.id r.g (r.counted { c with flush := c.flush + flushCount [row] })
     let tree := fun (opc m : Nat) (hasRoot : Bool) (c : Nat → Nat → Nat → Instr) =>
       World.ready s q n g opc (modIs 3 m) (collExtra hasRoot true) wholeReads w r → Gives (c q n g) s copy
     tree 0x60 0 false .allreduceSum ∧ tree 0x60 1 false .allreduceMax ∧ tree 0x60 2 false .allreduceMin ∧
     tree 0x61 0 true .reduceRootSum ∧ tree 0x61 1 true .reduceRootMax ∧ tree 0x61 2 true .reduceRootMin ∧
     (World.ready s q n g 0x62 anyMod (collExtra true false) wholeReads w r → Gives (.broadcast q n g) s copy) ∧
     (World.ready s q n g 0x63 anyMod (collExtra false false) wholeReads w r → Gives (.allgather q n g) s copy) ∧
     (World.ready s q n g 0x64 anyMod (collExtra false false) wholeReads w r → s.w.Quiet →
       Gives (.barrier q n g) s (w.executed r.t.id r.g r.ok))) ∧
  (∀ (s : State) (q n g : Nat) (w : World) (r : Run), w.multi = true → (w.readsSealed r = true → w.hasLinkSecret = true) →
     let int := (r.o 0).fmt.code == cI32
     let rows := w.rowsOf r 0 r.ftz
     let lam := r.d.par 46 1
     let ls := rows.map (leafRow int r)
     let segs := if lam = 0 then [(w.link.logical, 1)] else segments w.link.jobSize w.link.logical lam
     let coll := fun (op : CollOp) (toRoot : Bool) =>
       { op := op, int := int, toRoot := toRoot, root := if toRoot then r.root else 0, id := r.collId, lam := lam
         nodes := List.zipWith (fun (x : Nat × Nat) (l : List XV × Cnt) => (x.1, x.2, l.1)) segs ls
         deadline := if r.d.par 40 4 = 0 then w.link.deadline else r.d.par 40 4
         sat := (ls.map (·.2.sat)).sum, flush := flushCount rows + (ls.map (·.2.flush)).sum : Coll }
     let row := w.rowForD r
     let issued := fun (c : Coll) => (w.issueColl r c).1
     let tree := fun (opc m : Nat) (hasRoot : Bool) (op : CollOp) (c : Nat → Nat → Nat → Instr) =>
       World.ready s q n g opc (modIs 3 m) (collExtra hasRoot true) wholeReads w r → Gives (c q n g) s (issued (coll op hasRoot))
     tree 0x60 0 false .sum .allreduceSum ∧ tree 0x60 1 false .max .allreduceMax ∧ tree 0x60 2 false .min .allreduceMin ∧
     tree 0x61 0 true .sum .reduceRootSum ∧ tree 0x61 1 true .max .reduceRootMax ∧ tree 0x61 2 true .min .reduceRootMin ∧
     (World.ready s q n g 0x62 anyMod (collExtra true false) wholeReads w r → w.link.logical ≠ r.root →
       Gives (.broadcast q n g) s (issued { op := .bcast, root := r.root, id := r.collId })) ∧
     (World.ready s q n g 0x63 anyMod (collExtra false false) wholeReads w r →
       Gives (.allgather q n g) s (issued
         { op := .gather, id := r.collId, sat := row.cnt.sat, flush := row.cnt.flush
           nodes := [(w.link.logical, 1, row.codes.map (fun (c : Nat) => XV.ofInt c))] })) ∧
     (World.ready s q n g 0x41 anyMod noExtra wholeReads w r →
       Gives (.scaleupd q n g) s (issued { op := .slots, int := true, id := 2 ^ 31 + r.d.n * 1024 + r.d.m, nodes := [(w.link.logical, 1,
         (List.range r.d.n).map (fun i => XV.ofInt ((w.num.slots.get {} (i + r.d.m)).pending.getD (-2147483648))))] })) ∧
     (∀ c, w.job.early = [] → (issued c).job.collSeq = w.job.collSeq + 1)) ∧
  (∀ (s : State) (q n g : Nat) (w : World) (r : Run), w.multi = true → w.job.early = [] → s.w.Quiet →
     World.ready s q n g 0x64 anyMod (collExtra false false) wholeReads w r →
     ∃ w', Gives (.barrier q n g) s w' ∧ w'.job.collSeq = w.job.collSeq + 1 ∧ w'.mem = w.mem ∧
       (∀ kids, childrenOf w.link.jobSize w.link.logical = kids → kids ≠ [] →
         w'.job.votes = [{ kind := 3, value := w.job.collSeq % 2 ^ 16, own := some 0, id := r.collId, task := r.t.id, stage := r.g }]))

/-! Tasks, semaphores and steps. -/

/-- OP_COMPLETE of an operation that has run, that posts nothing and drops nothing and does not end its stream: the stage goes on
at the next descriptor, or where a JUMP names, with its report index one higher (R100, R101). Its report is the 32 bytes of Table
5.12 in the slot of its index, where it asks for one or its status is not 0 and there is a slot; no other byte of memory changes
(R121).

OP_COMPLETE of a refused or failed operation ends its task with the operation's status, but for a step and a checkpoint of an
ensemble, which its engines end together (R103, R122, R200).

An END that posts nothing and drops nothing ends its stage's stream at once; when the task's other stages have ended, an
inference task reaches DONE with the largest class 0x03 status its operations had (R100, R122). -/
def Obligations.OperationCompletion : Prop :=
  (∀ (s : State) (q n g : Nat) (t : Task) (st : Stage) (res : OpRes),
     let w := s.w
     let r := w.runOf t g st
     let part := t.repLen / max 1 t.stages
     let slot := t.repAddr % 2 ^ 40 + 32 * (g * part + st.index)
     w.task? ⟨q, n⟩ = some t → t.stgs[g]? = some st → st.phase = .executed res → w.coresRun = true → (t.stageCores g).any t.on = true →
     (w.unacked ⟨q, n⟩ = false ∨ r.d.release = false) → goesOn res.status = true → res.refused = false → r.d.opc ≠ 1 → r.d.pen = false →
     (∀ i, r.d.dead i = false) → w.Quiet →
     ∃ w', Gives (.opComplete q n g) s w' ∧
       ((w'.task? ⟨q, n⟩).bind (fun t => t.stgs[g]?)).map (fun x => (x.phase, x.pc, x.index)) =
         some (.ready, (if r.d.opc = 2 then r.d.addr 0 % 2 ^ 40 else st.pc + (if r.d.px ∧ st.desc.length = 128 then 128 else 64)), st.index + 1) ∧
       w'.sched.opsDone = add64 w.sched.opsDone 1 ∧
       (if (r.d.rpt || res.status != 0) && decide (st.index < part) then Wrote w w' slot res.bytes else SameMemory w w') ∧
       w'.sched.noReport = (if (r.d.rpt || res.status != 0) && decide (part ≤ st.index) then sat32 w.sched.noReport 1 else w.sched.noReport)) ∧
  (∀ (s : State) (q n g : Nat) (t : Task) (st : Stage) (res : OpRes),
     let w := s.w
     w.task? ⟨q, n⟩ = some t → t.stgs[g]? = some st → st.phase = .executed res → w.coresRun = true → goesOn res.status = false →
     w.unacked ⟨q, n⟩ = false → t.closing = none → w.step? ⟨q, n⟩ = none → t.kind ≠ 2 → w.Quiet →
     ∃ t', exec (.opComplete q n g) s = .next t' ∧ w.Completes t res.status t'.w) ∧
  (∀ (s : State) (q n g : Nat) (w : World) (r : Run) (t : Task),
     World.ready s q n g 0x01 anyMod noExtra wholeReads w r → s.w.task? ⟨q, n⟩ = some t → r.d.pen = false → (∀ i, r.d.dead i = false) →
     w.unacked ⟨q, n⟩ = false → t.closing = none → s.w.Quiet →
     (t.othersOver g = false → ∃ t', exec (.endOp q n g) s = .next t' ∧ t'.w.phase? ⟨q, n⟩ g = some .ended) ∧
     (t.othersOver g = true → t.kind = 0 → s.w.step? ⟨q, n⟩ = none → ∃ t', exec (.endOp q n g) s = .next t' ∧ w.Completes t t.worst t'.w))

/-- SEM_RELEASE of a semaphore that is not 0: the first waiter takes one from it and becomes its owner, unless it feeds a stream, and
its stage goes on (R138, R336). A waiter of another engine on a semaphore homed here is told (R140).

A hold budget that expires before the post ends the wait with SEM_HELD_SUSPENDED, forgets its holder resume and counts it; where
the post came first the command does nothing (R142, R144). -/
def Obligations.SemaphoresAndHolds : Prop :=
  (∀ (s : State) (glob : Bool) (n : Nat) (x : Waiter), firstWaiter (s.w.waiters glob n) = some x → (s.w.sem glob n).value ≠ 0 →
     (glob = true → s.w.semHere = true) →
     (∀ id g t, x.task = some (id, g) → s.w.task? id = some t → t.parking = false →
       ∃ w', Gives (.semRelease glob n) s w' ∧ w'.phase? id g = (t.stgs[g]?).map (fun _ => .granted) ∧ (w'.sem glob n).value = (s.w.sem glob n).value - 1 ∧
         (w'.sem glob n).owner = (if !glob && s.w.streamSem n then none
           else some { engine := if glob then s.w.link.logical else 0xFF, task := t.id, slot := t.slot, core := (t.stageCores g).headD 0 }) ∧ w'.mem = s.w.mem) ∧
     (∀ id g t, x.task = some (id, g) → s.w.task? id = some t → t.parking = true →
       ∃ w', Gives (.semRelease glob n) s w' ∧ w'.phase? id g = (t.stgs[g]?).map (fun _ => .retry) ∧ w'.sem glob n = s.w.sem glob n ∧ w'.mem = s.w.mem) ∧
     (∀ f, x.task = none → x.far = some f → glob = true →
       ∃ w', Gives (.semRelease true n) s w' ∧ w'.sched.tasks = s.w.sched.tasks ∧ w'.sem true n =
         { value := (s.w.sem true n).value - 1, owner := some { engine := f.engine, task := ⟨f.queue, f.slot⟩, slot := f.slot, core := f.core }
           far := (s.w.sem true n).far.erase f })) ∧
  (∀ (s : State) (q n : Nat) (c : Chain) (t : Task) (st : Stage),
     s.w.sched.chains.find? (fun c => c.waiter == ⟨q, n⟩) = some c →
     ((s.w.sem c.glob c.sem).value ≠ 0 → Gives (.holdBudgetExpiry q n) s s.w) ∧
     ((s.w.sem c.glob c.sem).value = 0 → q < 256 → s.w.task? ⟨q, n⟩ = some t → t.stgs[c.stage]? = some st →
       s.w.sched.chains.filter (fun d => d.waiter == ⟨q, n⟩ && d.stage == c.stage) = [c] →
       ∃ w', Gives (.holdBudgetExpiry q n) s w' ∧ w'.phase? ⟨q, n⟩ c.stage = some (.executed (OpRes.plain 0x0102 (leAt st.desc 60 2))) ∧
         w'.sched.chains = s.w.sched.chains.filter (fun d => !(d.waiter == ⟨q, n⟩ && d.stage == c.stage)) ∧
         w'.sched.expiries = sat32 s.w.sched.expiries 1 ∧ w'.mem = s.w.mem))

/-- A step task whose tenant has no other step is admitted on one engine when its tenant is there, its estimate fits the energy
reserve and its spend fits the budget; it is then ready, its metering starts, its program takes its place in the cost histories, and
the areas that it may write are its tenant's (R17). Otherwise it completes with the status of the first that fails (R16, R18, R19,
R193, R201).

PHASE_MARK_RELEASE: with every other stage ended, the operation held at the mark goes on, and its step is past the mark (R177); but a
step whose agreed abandon has met no boundary completes there with its status (R28, R29, R200). STEP_ABANDON: a step that is agreed to
be abandoned, with every stage at its boundary, completes with the status of the abandon and commits nothing; the histories are as
before its admission, where nothing has changed them since (R21, R28, R200). -/
def Obligations.TrainingSteps : Prop :=
  (∀ (s : State) (q n : Nat) (t : Task),
     let w := s.w
     let tenant := t.tenant.getD 0
     let ten := s.vault.tenants.get {} tenant
     let status := if ten.st ≠ 2 then 0x020A
       else if w.train.reserve ≠ 0xFFFFFFFF ∧ w.train.reserve < w.estimate t.prog then 0x0101
       else if ten.budget < ten.spent + spendOf t.sigma t.q then 0x0207 else 0
     w.task? ⟨q, n⟩ = some t → t.kind = 1 → t.st = .posted → t.stop = none → w.Quiet → w.train.steps.any (fun x => x.tenant == tenant) = false →
     w.train.steps.any (fun x => x.task == ⟨q, n⟩) = false → w.coresRun = true → w.leaving = false → w.multi = false →
     (status = 0 → ∃ w', Gives (.stepAdmission q n) s w' ∧ w'.task? ⟨q, n⟩ = some { t with st := .ready, own := if t.tenant = none then t.own else
           [(ten.genBase ten.shadow, alignUp ten.genLen 4096), (ten.act, ten.actLen), (ten.scr, ten.scrLen)] } ∧
       w'.train.steps = w.train.steps ++ [{ task := ⟨q, n⟩, tenant := tenant, energy0 := w.meter.energy, histWas := w.train.hist, histNow := w'.train.hist }] ∧
       w'.train.lastEst = w.estimate t.prog ∧ w'.train.hist = ((t.prog, ((w.train.hist.find? (fun e => e.1 == t.prog)).map (·.2)).getD []) :: w.train.hist.filter (fun e => decide (e.1 ≠ t.prog))).take 16) ∧
     (status ≠ 0 → ∃ w', Gives (.stepAdmission q n) s w' ∧ w.Completes t status w' ∧ w'.train.steps = w.train.steps ∧
       w'.train.deferred = (if status = 0x0101 then sat32 w.train.deferred 1 else w.train.deferred))) ∧
  (∀ (s : State) (q n : Nat) (t : Task), s.w.task? ⟨q, n⟩ = some t →
     (s.w.phase? ⟨q, n⟩ (t.stages - 1) = some .markHeld → t.othersOver (t.stages - 1) = true → s.w.dueAbandon t = none →
       Gives (.phaseMarkRelease q n) s ((s.w.updStage ⟨q, n⟩ (t.stages - 1) (fun x => { x with phase := .ready })).updStep ⟨q, n⟩ (fun x => { x with marked := true }))) ∧
     (∀ status, s.w.phase? ⟨q, n⟩ (t.stages - 1) = some .markHeld → t.othersOver (t.stages - 1) = true → s.w.dueAbandon t = some status →
       s.w.unacked ⟨q, n⟩ = false → ∃ w', Gives (.phaseMarkRelease q n) s w' ∧ s.w.Completes t status w' ∧ w'.step? ⟨q, n⟩ = none ∧
         w'.train.stepCtr = s.w.train.stepCtr) ∧
     (∀ x status, s.w.step? ⟨q, n⟩ = some x → x.abandon = some status → x.agreed = true → x.committed = false → s.w.unacked ⟨q, n⟩ = false →
       (t.cores.isEmpty || t.stgs.all (fun y => y.boundary || y.phase.past || y.phase == .markHeld)) = true →
       ∃ w', Gives (.stepAbandon q n) s w' ∧ s.w.Completes t status w' ∧ w'.step? ⟨q, n⟩ = none ∧ w'.train.stepCtr = s.w.train.stepCtr ∧
         (s.w.train.hist = x.histNow → w'.train.hist = x.histWas)))

/-- TASK_PLACEMENT of the first ready task in the order of R127: it is given the cores that R130 chooses, and a serving task takes its
tenant's live generation (R22); where too few qualify, the failed placement is counted. -/
def Obligations.TaskPlacement : Prop :=
  ∀ (s : State) (q n : Nat) (t : Task), s.w.task? ⟨q, n⟩ = some t → s.w.coresRun = true → s.w.leaving = false → t.stop = none → t.lost = false →
    t.st = .ready → t.coming = [] → s.w.sched.tasks.any (fun u => !(u.id == ⟨q, n⟩) && u.before t && u.stop.isNone && s.w.placeable u) = false → s.w.Quiet →
    (∀ cs, s.w.chooseCores t = some cs → ∃ w', Gives (.taskPlacement q n) s w' ∧
      (w'.task? ⟨q, n⟩).map (fun u => (u.cores, u.placed, u.gen)) = some (cs, s.w.sched.order + 1,
        if t.ctx.isSome then t.tenant.map (fun k => (s.vault.tenants.get {} k).live) else none) ∧ cs.length = t.stages * t.cps ∧
      (∀ c ∈ cs, s.w.qualifies t c = true)) ∧
    (s.w.chooseCores t = none → Gives (.taskPlacement q n) s { s.w with sched := { s.w.sched with failedPl := sat32 s.w.sched.failedPl 1 } })

/-- A context switch (R134, R143): at its point the task's share begins to drain; when its link transactions are over its record is
saved in the context store; then the share is switched out; and when its core comes back and its record is restored, it runs there
again (R69). An operation that stands at a point inside it is reported as pre-empted (R121).

Pre-emption changes no result: wherever a core's share of a dot product is stopped, at any segment ends and under any issue limits,
its tiles end as those of a share that runs without a stop (R62, R68, R69).

An inference task that must stop ends at its pre-emption point with its status. Of a task that is not a job's, a record that cannot be
restored ends its task with 0x0402 and is a fault of cause 4; a drain that takes 50 µs is one that lasted longer than 1.5 µs, ends its
task with 0x0502 and is a fault of cause 6 (R135, R327, R398). -/
def Obligations.ContextSwitches : Prop :=
  (∀ (s : State) (q n c ns : Nat) (t : Task) (st : Stage),
     let g := t.cores.idxOf c / max 1 t.cps
     s.w.task? ⟨q, n⟩ = some t → t.stgs[g]? = some st →
     (t.stop = none → t.on c = true → (s.w.wanted t c || s.w.mustLeave t) = true → st.atPoint none = true → t.closing = none →
       s.w.haltHolds t = false → s.w.mustRun t c g st = false → s.w.Quiet →
       ∃ w', Gives (.preemptionPoint q n c) s w' ∧ (w'.task? ⟨q, n⟩).map (·.draining) = some (t.draining ++ [c]) ∧ w'.mem = s.w.mem ∧
         (st.phase = .part → (((w'.task? ⟨q, n⟩).bind (fun u => u.stgs[g]?)).map (·.preempted)) = some true) ∧
         w'.sched.preempts = (if s.w.wanted t c then add64 s.w.sched.preempts 1 else s.w.sched.preempts)) ∧
     (t.draining.contains c = true → s.w.outstanding t g = false →
       ∃ w', Gives (.drainComplete q n c ns) s w' ∧ (w'.task? ⟨q, n⟩).map (fun u => (u.draining, u.saving)) = some (t.draining.filter (· != c), t.saving ++ [c]) ∧
         w'.sched.longDrains = (if 1500 < ns then sat32 s.w.sched.longDrains 1 else s.w.sched.longDrains) ∧ w'.mem = s.w.mem) ∧
     (t.saving.contains c = true → ∃ w', Gives (.contextSaveDone q n c) s w' ∧ SameMemory s.w w' ∧ w'.mem.staging = s.w.mem.staging ∧
       (∃ x : CtxRec, w'.sched.ctx = s.w.sched.ctx ++ [x] ∧ (x.core, x.task, x.stage, x.tenant, x.pc) = (c, ⟨q, n⟩, g, t.tenant, st.pc) ∧ x.slot < 4 ∧
         x.point = st.pts.getD ((t.stageCores g).idxOf c) 0 ∧ x.tiles = st.tiles.getD ((t.stageCores g).idxOf c) {}) ∧
       (w'.task? ⟨q, n⟩).map (fun u => (u.saving, u.out)) = some (t.saving.filter (· != c), t.out ++ [c])) ∧
     (t.out.contains c = true → t.coming.contains c = true → s.w.canEnter t c = true → s.w.coresRun = true → s.w.leaving = false → s.w.Quiet →
       ∃ w', Gives (.contextRestoreDone q n c true) s w' ∧ SameMemory s.w w' ∧ w'.mem.staging = s.w.mem.staging ∧ w'.mem.l1.get [] c = [] ∧
         w'.sched.ctx = (if s.w.sched.ctx.any (fun x => x.task == ⟨q, n⟩ && x.core == c) then s.w.sched.ctx.filter (fun x => !(x.task == ⟨q, n⟩ && x.core == c))
           else s.w.sched.ctx) ∧
         (w'.task? ⟨q, n⟩).map (fun u => (u.out, u.coming)) = some (t.out.filter (· != c), t.coming.filter (· != c)))) ∧
  (∀ (s : State) (q n c : Nat) (t : Task), s.w.task? ⟨q, n⟩ = some t → s.w.Quiet →
     (∀ status, t.stop = some status → t.canStop = true → t.draining = [] → t.saving = [] → t.closing = none → s.w.haltHolds t = false →
       s.w.unacked ⟨q, n⟩ = false → s.w.step? ⟨q, n⟩ = none → t.kind = 0 →
       ∃ w', Gives (.preemptionPoint q n c) s w' ∧ s.w.Completes t status w') ∧
     (t.out.contains c = true → t.coming.contains c = true → s.w.canEnter t c = true → s.w.coresRun = true → s.w.leaving = false →
       t.closing = none → s.w.unacked ⟨q, n⟩ = false → s.w.step? ⟨q, n⟩ = none → t.kind ≠ 2 → (t.job && s.w.multi) = false →
       ∃ w', Gives (.contextRestoreDone q n c false) s w' ∧ s.w.Completes t 0x0402 w' ∧ w'.log.faults = modAt s.w.log.faults 3 (fun x => sat32 x 1)) ∧
     (t.draining.contains c = true → (t.job && s.w.multi) = false → ∃ w', Gives (.drainTimeout q n c) s w' ∧ s.w.Completes t 0x0502 w' ∧
       w'.log.faults = modAt s.w.log.faults 5 (fun x => sat32 x 1) ∧ w'.sched.longDrains = sat32 s.w.sched.longDrains 1)) ∧
  (∀ (cfg : DotCfg) (tiles : List (List (List Lane))) (stops : List (SegCfg × Nat)) (sc : SegCfg),
     (∀ ls ∈ tiles, ls ≠ []) → (∀ p ∈ stops, p.1.cost.length = sc.cost.length) →
     let fuel := coreFuel sc.cost.length tiles
     let stood := stops.foldl (fun c p => CoreTiles.run cfg p.1 tiles (some p.2) fuel c) ({} : CoreTiles)
     (CoreTiles.run cfg sc tiles none fuel stood).done = tiles.map (runTile cfg sc.cost.length))

/-- A refill gives a partition a microsecond of its rate, up to its depth, and brings a written rate into force; the end of an interference window leaves the indices
of the window's counts, each in units of 1/1,024 (R132, R133).

The loops of a slice act at their own windows: after 1,024 lines delivered without allocation the bypass length follows the
re-references, and the length in force stays in its band (R155, R171); after 65,536 requests a slice compresses when at most 15 misses come for 16 without
(R172). A command that comes before its window does nothing.

A band conflict logs an event for each counter that has changed since the comparison before, with the counter's value, and
takes the counters as they stand for the next one (R97, R173). A dropped telemetry sample is counted (R170). -/
def Obligations.LoopsAndBands : Prop :=
  (∀ (s : State) (p : Nat) (x : Part) (cycles : List (Nat × Nat × Nat)), s.w.clocked = true → s.w.sched.parts[p]? = some x →
     (∃ w', Gives .regulatorRefill s w' ∧ w'.sched.parts[p]? = some { x with
         tokens := min (x.tokens + x.rate * 1000) (x.rate * x.depth * 1000), inForce := x.rate } ∧
       w'.sched.tasks = s.w.sched.tasks ∧ w'.mem = s.w.mem) ∧
     (∀ a b h, cycles.getD p (0, 0, 0) = (a, b, h) → ∃ w', Gives (.interferenceWindowEnd cycles) s w' ∧ w'.mem = s.w.mem ∧
       w'.sched.parts[p]? = some { x with interf := if a = 0 then 0 else 1024 * min b a / a, stall := if a + h = 0 then 0 else 1024 * h / (a + h) })) ∧
  (∀ (s : State) (sl : Nat),
     let w := s.w
     let x := w.mem.slice sl
     let want := if 16 ≤ x.rerefs then 2 * w.mem.strN else if x.rerefs = 0 then w.mem.strN / 2 else w.mem.strN
     let n := min w.mem.strHi (max w.mem.strLo want)
     let on := decide (16 * x.missOn ≤ 15 * x.missOff) && decide (0 < x.missOff)
     (x.delivered < 1024 → Gives (.streamBypassWindow sl) s w) ∧
     (1024 ≤ x.delivered → ∃ w', Gives (.streamBypassWindow sl) s w' ∧ SameMemory w w' ∧ (w'.mem.slice sl).delivered = 0 ∧ (w'.mem.slice sl).rerefs = 0 ∧
       (w.mem.strMode = 0 → (w'.mem.slice sl).n = n ∧ w'.mem.strN ≤ w.mem.strHi ∧
         (w.mem.strLo ≤ w.mem.strHi → w.mem.strLo ≤ w'.mem.strN) ∧
         w'.mem.strConf = (if want = n ∨ want = w.mem.strN then w.mem.strConf else sat32 w.mem.strConf 1)) ∧
       (w.mem.strMode ≠ 0 → (w'.mem.slice sl).n = x.n ∧ w'.mem.strN = w.mem.strN ∧
         w'.mem.strConf = (if want = w.mem.strN then w.mem.strConf else sat32 w.mem.strConf 1))) ∧
     (x.sample < 65536 → Gives (.compressionSampleEnd sl) s w) ∧
     (65536 ≤ x.sample → ∃ w', Gives (.compressionSampleEnd sl) s w' ∧ SameMemory w w' ∧ w'.mem.slice sl = { x with sample := 0, missOn := 0, missOff := 0 } ∧
       (w.mem.cmpMode = 0 → ∀ i, i < 16 → bitAt w'.mem.cmpOn i = if i = sl then on else bitAt w.mem.cmpOn i) ∧
       (w.mem.cmpMode ≠ 0 → w'.mem.cmpOn = w.mem.cmpOn ∧ w'.mem.cmpConf = (if on = (w.mem.cmpMode == 2) then w.mem.cmpConf else sat32 w.mem.cmpConf 1)))) ∧
  (∀ (s : State), s.w.clocked = true → s.w.log.staged.length + 3 ≤ 64 →
     let w := s.w
     let logged := fun (w' : World) (code : Nat) (now seen : List Nat) (n : Nat) =>
       w'.log.staged.map (fun e => (e.code, e.a1, e.a2)) = w.log.staged.map (fun e => (e.code, e.a1, e.a2)) ++
         ((List.range n).filter (fun i => decide (now.getD i 0 ≠ seen.getD i 0))).map (fun i => (code, i, now.getD i 0))
     let mems := [w.mem.strConf, w.mem.cmpConf]
     let nums := [w.num.confScale, w.num.confWiden, w.num.confReplay]
     (∃ w', Gives .memBandConflict s w' ∧ logged w' 0x0021 mems w.mem.seen 2 ∧ w'.mem = { w.mem with seen := mems }) ∧
     (∃ w', Gives .numBandConflict s w' ∧ logged w' 0x0020 nums w.num.seen 3 ∧ w'.num = { w.num with seen := nums }) ∧
     Gives .telemetrySampleDropped s { w with mem := { w.mem with telDrops := sat32 w.mem.telDrops 1 } })

/-! The host port. -/

/-- PROD_WRITE, CACK_WRITE and CANCEL_WRITE while the host reaches the engine and firmware runs: a PROD that goes forward and leaves no more than E tasks
unacknowledged is taken, and a CACK that is not beyond C is taken; any other stops a running queue with 0x081A (R322, R323, R325).
A cancel of a task that is here marks it, and one of a task still to be fetched is kept for its fetch (R327).

COALESCING_TIMEOUT raises a queue's vector for the completions that wait, and none waits then (R326).

Before firmware runs a doorbell write is held, and acts once it does (R316). PROD and CACK read as last written, FETCH and CSEQ as F
and C, and a narrow access reads 0 (R318). A vector whose MSI-X entry is masked is pending, and is sent when its entry is unmasked
(Table 13.3; the model's layout of an entry, log entry 89). Configuration space answers with the identity of Table 13.1 (R315). -/
def Obligations.Doorbells : Prop :=
  (∀ (s : State) (n v : Nat), s.w.hostUp = true → s.w.fwRuns = true → n < 64 → v < 2 ^ 32 →
     let q := s.w.queue n
     let stopped := fun (w' : World) => (w'.queue n).st = 2 ∧ (w'.queue n).err = 0x081A ∧ (s.w.masked 66 = false → Out.msix 66 ∈ w'.out)
     (q.runs = true → (if seqDiff v q.f < 2 ^ 31 ∧ seqDiff v (q.s + q.a) ≤ q.e
       then ∃ w', Gives (.prodWrite n v) s w' ∧ w'.queue n = { q with prodRaw := v, p := v, posts := (v, s.w.now) :: q.posts } ∧
         (s.w.power.st = .idle → s.w.power.leaveIdle = true → w'.power.st = .active)
       else ∃ w', Gives (.prodWrite n v) s w' ∧ stopped w')) ∧
     (q.runs = false → Gives (.prodWrite n v) s (s.w.updQueue n (fun q => { q with prodRaw := v }))) ∧
     (q.enabled = true → q.resetting = false → (seqDiff v q.a ≤ seqDiff q.c q.a →
       ∃ w', Gives (.cackWrite n v) s w' ∧ w'.queue n = { q with cackRaw := v, a := v })) ∧
     (q.runs = true → seqDiff q.c q.a < seqDiff v q.a → ∃ w', Gives (.cackWrite n v) s w' ∧ stopped w') ∧
     (∀ t, s.w.task? ⟨n, v⟩ = some t → ∃ w', Gives (.cancelWrite n v) s w' ∧
       (w'.task? ⟨n, v⟩).map (·.stop) = some (some (t.stop.getD 0x020C)) ∧ w'.host = s.w.host) ∧
     (s.w.task? ⟨n, v⟩ = none → q.enabled = true → q.resetting = false → seqDiff v q.f < 2 ^ 31 →
       Gives (.cancelWrite n v) s (s.w.updQueue n (fun q => { q with cancel := some v })))) ∧
  (∀ (s : State) (n : Nat),
     ((s.w.queue n).unsig = 0 → Gives (.coalescingTimeout n) s s.w) ∧
     ((s.w.queue n).unsig ≠ 0 → ∃ w', Gives (.coalescingTimeout n) s w' ∧ w'.queue n = { s.w.queue n with unsig := 0 } ∧
       w'.out = s.w.out ++ (if s.w.pins.perstN && !s.w.masked n then [.msix n] else []))) ∧
  (∀ (s : State) (n v : Nat), s.w.hostUp = true → n < 64 → v < 2 ^ 32 →
     let held := fun (w : World) (reg : Nat) => { w with host := { w.host with waits := w.host.waits ++ [(32 * n + reg, v)] } }
     (s.w.fwRuns = false → Gives (.prodWrite n v) s (held (s.w.updQueue n (fun q => { q with prodRaw := v })) 0) ∧
       Gives (.cackWrite n v) s (held (s.w.updQueue n (fun q => { q with cackRaw := v })) 4) ∧ Gives (.cancelWrite n v) s (held s.w 8)) ∧
     (s.w.fwRuns = true → ∀ reg, reg ∈ [0, 4, 8, 12] → s.w.host.waits = [(32 * n + reg, v)] →
       s.w.doorbellsDue = { s.w with host := { s.w.host with waits := [] } }.doorbellWrite (32 * n + reg) 4 v) ∧
     (s.w.doorbellRead (32 * n) 4, s.w.doorbellRead (32 * n + 4) 4, s.w.doorbellRead (32 * n + 16) 4, s.w.doorbellRead (32 * n + 20) 4) =
       ((s.w.queue n).prodRaw, (s.w.queue n).cackRaw, (s.w.queue n).f, (s.w.queue n).c) ∧
     (∀ off k, k ≠ 4 → off + k ≤ 0x800 → s.w.doorbellRead off k = 0 ∧ s.w.doorbellWrite off k v = s.w) ∧
     s.w.configRead 0 = some 0x04161F1D ∧ s.w.configRead 8 = some (0x12000000 + leAt s.w.live.factory 12 1)) ∧
  (∀ (w : World) (n : Nat), w.hostUp = true → n < 72 →
     (w.masked n = true → (w.vector n).out = w.out ∧ n ∈ (w.vector n).msix.pend) ∧
     (w.masked n = true → n ∈ w.msix.pend → Out.msix n ∈ (w.doorbellWrite (0x800 + 16 * n + 12) 4 0).out ∧
       n ∉ (w.doorbellWrite (0x800 + 16 * n + 12) 4 0).msix.pend))

/-- TASK_FETCH of the next descriptor of a queue that fetches: F rises by one, and the task stands in the engine when its sequence is
the queue's, it was not cancelled, its checks pass and its place is valid; otherwise its completion is written at once, and a
wrong sequence also stops the queue (R323, R324, R327, R328, R329). -/
def Obligations.TaskFetch : Prop :=
  ∀ (s : State) (n : Nat) (b : Bytes), s.w.fetches n = true → b.length = 64 →
    let w := s.w
    let q := w.queue n
    let t := taskOf n (q.f % q.e) q.ceil (q.coveredAt q.f w.now) b
    let named : Task := { t with id := ⟨n, q.f⟩ }
    let fetched := w.updQueue n (fun q => { q with f := (q.f + 1) % 2 ^ 32, posts := q.posts.filter (fun e => precedes ((q.f + 1) % 2 ^ 32) e.1) })
    let ended := fun (u : Task) (status : Nat) (w' : World) => w'.sched.tasks = w.sched.tasks ∧
      Out.hostWrite (q.compBase + 16 * (q.c % q.e)) (completionBytes q u status w.now) ∈ w'.out ∧ (w'.queue n).f = (q.f + 1) % 2 ^ 32
    ∃ w', Gives (.taskFetch n b) s w' ∧ w'.mem = w.mem ∧
      (t.id.seq ≠ q.f → ended named 0x0818 w' ∧ (w'.queue n).st = 2 ∧ (w'.queue n).err = 0x0818) ∧
      (t.id.seq = q.f → q.cancel = some q.f → ended named 0x020C w' ∧ (w'.queue n).cancel = none) ∧
      (t.id.seq = q.f → q.cancel ≠ some q.f → ∀ status, firstFail (fetched.taskFails s.vault b t) = some status → ended t status w') ∧
      (t.id.seq = q.f → q.cancel ≠ some q.f → firstFail (fetched.taskFails s.vault b t) = none →
        (if fetched.placeOk t then w'.host = fetched.host ∧ w'.sched.tasks = w.sched.tasks ++ [{ t with
            st := if t.kind = 1 ∨ w.power.st ≠ .active then .posted else .ready
            stgs := (w.stageStarts t).map (fun e => { pc := e % 2 ^ 40 }) }]
         else ended t 0x080C w'))

/-- A fetched descriptor whose sequence field is not its queue's F completes with SEQUENCE_MISMATCH, the queue stops with that as its last
error, and it fetches no later slot (R324). -/
def Obligations.SequenceMismatchStops : Prop :=
  ∀ (s : State) (n : Nat) (b : Bytes), s.w.fetches n = true → b.length = 64 → leAt b 0 4 ≠ (s.w.queue n).f →
    let q := s.w.queue n
    let slot := q.f % q.e
    ∃ w', Gives (.taskFetch n b) s w' ∧
      Out.hostWrite (q.compBase + 16 * (q.c % q.e)) (leBytes 4 q.f ++ leBytes 2 0x0818 ++ leBytes 2 (slot + 2 ^ 15 * (1 - q.c / q.e % 2)) ++ leBytes 8 s.w.clock.ns) ∈ w'.out ∧
      w'.sched.tasks = s.w.sched.tasks ∧ ((w'.queue n).st, (w'.queue n).err) = (2, 0x0818) ∧ (∀ d, Gives (.taskFetch n d) { s with w := w' } w')

/-- A function-level reset, PERST_N low and a link-down event each cancel every task, which ends without a completion, clear the
dictionary window and close its client's level, and add one to the count of host resets; the last two also take the link down
(R305, R311, R320, R345); PERST_N acts in Doze too (R352); a request of the window that waits loses its response, and a doorbell write that waits is lost (the model's
choice, log entry 88). No byte of memory changes. The link trains while READY is high (R316).

An access of the memory window through a valid entry to memory that no tenant has sealed reads or writes those bytes, with
the poison of what it reads; through an invalid entry, or to sealed memory, it is refused, counted, and raises vector 66
(R319). A refused access changes no byte of memory. -/
def Obligations.HostResetsAndWindow : Prop :=
  (∀ (s : State), s.w.portOn = true ∨ s.w.power.st = .doze →
     let w := s.w
     let wiped := fun (w' : World) => w'.mem = w.mem ∧ w'.host.resets = sat32 w.host.resets 1 ∧ (w'.stn.busy, w'.stn.done, w'.stn.overrun, w'.stn.head, w'.stn.tail) =
         (false, false, false, 0, 0) ∧ w'.stn.reqBuf = [] ∧ w'.host.waits = [] ∧
         (∀ m ps lost, Rx.window m ps lost ∈ w'.stn.rx → lost = true) ∧ (∀ t ∈ w'.sched.tasks, t.silent = true ∧ t.stop ≠ none) ∧
         (∀ c ∈ w'.stn.clients, c.id = 254 → c.level = 0) ∧ w'.sched.tasks.map (·.id) = w.sched.tasks.map (·.id)
     (w.pins.perstN = true → ∃ w', Gives .perstNLow s w' ∧ wiped w' ∧ w'.pins.perstN = false ∧ (w'.host.speed, w'.host.width) = (0, 0)) ∧
     (w.hostUp = true → ∃ w', Gives .functionLevelReset s w' ∧ wiped w' ∧ w'.host.speed = w.host.speed) ∧
     (w.portOn = true → w.host.speed ≠ 0 → ∀ lost, ∃ w', Gives (.linkDown lost) s w' ∧ wiped w' ∧ (w'.host.speed, w'.host.width) = (0, 0) ∧
       w'.host.discarded = sat32 w.host.discarded lost ∧ w'.pins = w.pins) ∧
     (∀ speed width, w.portOn = true → 0 < speed → speed ≤ 4 → speed ≤ w.host.target → width ∈ [1, 2, 4] →
       Gives (.pcieLinkTraining speed width) s { w with pins := { w.pins with perstN := true }, host := { w.host with speed := speed, width := width } })) ∧
  (∀ (s : State) (off len : Nat) (data : Bytes), s.w.hostUp = true →
     let w := s.w
     let refused := fun (w' : World) => SameMemory w w' ∧ (w.masked 66 = false → Out.msix 66 ∈ w'.out)
     (windowShape off len = true →
       (∀ a, w.windowAddr off = some a → w.anySealed a len = false → Gives (.windowRead off len) s (w.send (.tlp (some (w.load a len)) (w.mem.poisoned a len)))) ∧
       (w.windowAddr off = none → ∃ w', Gives (.windowRead off len) s w' ∧ refused w' ∧ w'.out.getLast? = some (.tlp none false) ∧
         w'.host.badEntry = sat32 w.host.badEntry 1) ∧
       (∀ a, w.windowAddr off = some a → w.anySealed a len = true → ∃ w', Gives (.windowRead off len) s w' ∧ refused w' ∧
         w'.out.getLast? = some (.tlp none false) ∧ w'.host.sealedRef = sat32 w.host.sealedRef 1)) ∧
     (windowShape off data.length = true →
       (∀ a, w.windowAddr off = some a → w.anySealed a data.length = false → ∃ w', Gives (.windowWrite off data) s w' ∧ Wrote w w' a data) ∧
       (w.windowAddr off = none → ∃ w', Gives (.windowWrite off data) s w' ∧ refused w' ∧ w'.host.badEntry = sat32 w.host.badEntry 1) ∧
       (∀ a, w.windowAddr off = some a → w.anySealed a data.length = true → ∃ w', Gives (.windowWrite off data) s w' ∧ refused w' ∧
         w'.host.sealedRef = sat32 w.host.sealedRef 1)))

/-- The next input frame of a context: where the ring has room its header is written in the slot of its number with the flags that were
pending, the input semaphore is posted and the count goes on; where the ring is full the frame is dropped and counted, and the
next frame carries the mark (R337, R338, R341). A host that has taken an output frame frees its slot (R340).

A TDM port in step: a frame of a context begins where its ring has room; at its end its samples stand in the slot, each
converted, with the header and the post of R337 (R334). On a slave port an edge with another count of BCLK periods slips the frame, is
counted, and marks the contexts' next frames (R333). A slave port that loses its clock says so, counts it, marks its contexts'
next frames and raises vector 67 (R333).

An output frame of a TDM sink that falls due takes one post of the output semaphore and plays the samples of its slot, each
converted; with no post it plays zeros and the context owes a frame (R334, R339).

What a port drives on DOUT for a slot is what a port of the same settings reads there on DIN, most significant bit first after the
FSYNC delay; with no output context a slot is driven low or left at high impedance (R331). -/
def Obligations.StreamsAndTdm : Prop :=
  (∀ (s : State) (q c : Nat), s.w.hostUp = true → s.w.fwRuns = true → q < 64 → c < 128 → (s.w.ctx c).isOpen = true → (s.w.ctx c).queue = q →
     let w := s.w
     let x := w.ctx c
     let v := (w.sem false x.inSem).value
     (x.src = 3 → v < x.nIn → v < 65535 → (∀ e ∈ w.host.ctxs, e.2.isOpen = true → e.2.outSem ≠ x.inSem) →
       ∃ w', Gives (.streamInputWritten q c) s w' ∧ Wrote w w' (x.inBase + x.next % x.nIn * x.stride) (frameHeader x.next w.now x.samples x.inFlags) ∧
         (w'.sem false x.inSem).value = v + 1 ∧ (w'.ctx c).next = x.next + 1 ∧ (w'.ctx c).inFlags = 0) ∧
     (x.src = 3 → x.nIn ≤ v → ∃ w', Gives (.streamInputWritten q c) s w' ∧ w'.mem = w.mem ∧ w'.sched = w.sched ∧
       (w'.ctx c).next = x.next + 1 ∧ (w'.ctx c).overFlag = true ∧ (w'.ctx c).counts = modAt x.counts 0 (fun k => sat32 k 1)) ∧
     (x.sink = 3 → Gives (.streamOutputTaken q (128 + c)) s (w.updCtx c (fun x => { x with untaken := x.untaken - 1 })))) ∧
  (∀ (s : State) (c : Nat), s.w.clocked = true →
     let w := s.w
     let x := w.ctx c
     let p := x.src - 1
     let v := (w.sem false x.inSem).value
     (x.isOpen = true → isTdm x.src = true → (w.tdm p).en = true → (w.tdm p).st = 2 → v < x.nIn →
       (∃ w', Gives (.tdmFrameStart c (w.tdm p).frame) s w' ∧ w'.ctx c = { x with capture := true } ∧ w'.mem = w.mem) ∧
       ((w.tdm p).role ≠ 1 → w.leadCtx p = some c → ∀ bclks, bclks ≠ (w.tdm p).frame → w.host.ctxs.wf {} = true →
         ∃ w', Gives (.tdmFrameStart c bclks) s w' ∧ w'.tdm p = { w.tdm p with slips := sat32 (w.tdm p).slips 1, good := 0 } ∧ w'.ctx c = { x with gapFlag := true })) ∧
     (∀ codes, x.isOpen = true → isTdm x.src = true → x.capture = true → codes.length = x.samples → v < 65535 →
       (∀ e ∈ w.host.ctxs, e.2.isOpen = true → e.2.outSem ≠ x.inSem) →
       let slot := x.inBase + x.next % max 1 x.nIn * x.stride
       ∃ w', Gives (.tdmFrameEnd c codes) s w' ∧
         Wrote w w' slot (frameHeader x.next w.now x.samples x.inFlags ++ (codes.map (fun k => leBytes x.width (inSample x.fmt (w.tdm p).bits k))).flatten) ∧
         (w'.sem false x.inSem).value = v + 1 ∧ (w'.ctx c).next = x.next + 1 ∧ (w'.ctx c).capture = false) ∧
     (∀ k, (w.tdm k).role ≠ 1 → (w.tdm k).en = true → (w.tdm k).st ≠ 3 →
       ∃ w', Gives (.clockLoss k) s w' ∧ (w'.tdm k).st = 3 ∧ (w'.tdm k).losses = sat32 (w.tdm k).losses 1 ∧ w'.mem = w.mem ∧
         w'.out = w.out ++ (if w.pins.perstN && !w.masked 67 then [.msix 67] else []))) ∧
  (∀ (s : State) (c : Nat), s.w.clocked = true → (s.w.ctx c).isOpen = true → isTdm (s.w.ctx c).sink = true →
     let w := s.w
     let x := w.ctx c
     let t := w.tdm (x.sink - 1)
     let v := (w.sem false x.outSem).value
     let a := x.outBase + x.outDue % max 1 x.nOut * x.stride + 32
     let codes := (List.range x.samples).map (fun i => outSample x.fmt t.bits (leVal (w.load (a + i * x.width) x.width)))
     t.en = true → t.st = 2 →
       (0 < v → ∃ w', Gives (.playoutDue c) s w' ∧ (w'.sem false x.outSem).value = v - 1 ∧ (w'.ctx c).outDue = x.outDue + 1 ∧ w'.mem = w.mem ∧
         w'.out = w.out ++ [.play (x.sink - 1) x.sinkSlot (some (codes.map (·.1)))] ∧ (w'.ctx c).counts = modAt x.counts 4 (fun k => sat32 k (codes.countP (·.2)))) ∧
       (v = 0 → ∃ w', Gives (.playoutDue c) s w' ∧ w'.sched = w.sched ∧ (w'.ctx c).outDue = x.outDue + 1 ∧ (w'.ctx c).debt = x.debt + 1 ∧
         w'.mem = w.mem ∧ w'.out = w.out ++ [.play (x.sink - 1) x.sinkSlot none] ∧ (w'.ctx c).counts = modAt x.counts 1 (fun k => sat32 k 1))) ∧
  (∀ (t : Tdm) (codes : Nat → Option Nat) (slot : Nat), slot < t.slots →
     (∀ c, codes slot = some c → t.codeIn (fun n => (t.dout codes n).getD false) slot = c % 2 ^ t.bits) ∧
     (codes slot = none → ∀ i, i < t.bits → t.dout codes (t.timing % 2 + slot * t.bits + i) = if bitAt t.timing 3 then some false else none))

/-! Memory. -/

/-- A read request that its regulator lets go is charged to its partition and reaches its slice (R132, R148): where its sectors are
valid it takes nothing; else it merges with the entry of its line, takes an entry of its own, or waits where there is no room
(R152, R153). A read of another engine's memory that is held here asks for nothing (R161). No byte of memory changes.

A write request writes its bytes and no others, whether it goes through its slice or round it (R148, R149, R154); it lies in one line
and in memory that its core's tenant may write (R379). A sector that it writes in part and that is not valid is fetched to be merged
with (R148).

The last sector that a tracked line waits for makes it valid in its slice, unless its stream goes round the slice, and ends the
entry (R148, R152, R154). A sector whose check fails becomes poisoned, is counted and logged with its address (R163). -/
def Obligations.SliceRequests : Prop :=
  (∀ (s : State) (core addr mask : Nat) (srv : Bool),
     let w := s.w
     let a := addr % 2 ^ 40
     let la := a / 128
     let sl := sliceOf a
     let m0 := w.mem.slice sl
     let need := w.mem.lacking la (mask % 16)
     let issued := fun (old : Nat) => if w.mem.issues sl then Nat.lor old need else old
     w.clocked = true → mask % 16 ≠ 0 → inHost (a / 128 * 128) 128 = true → w.mayIssue core (popCount 4 (mask % 16)) = true →
     ∃ w', Gives (.sliceRead core addr mask srv) s w' ∧ SameMemory w w' ∧ w'.sched.parts = (w.charge core (popCount 4 (mask % 16))).sched.parts ∧
       (2 ^ 40 ≤ addr → w.engineOf addr ≠ none → (∀ i ∈ maskBits 4 (mask % 16), w.mem.farValid (addr / 128 * 128 + 32 * i) 32 = true) →
         w'.out = w.out ∧ w'.job = w.job ∧ w'.mem.slices = w.mem.slices) ∧
       ((addr < 2 ^ 40 ∨ w.engineOf addr = none) →
       (need = 0 → (w'.mem.slice sl).misses = m0.misses ∧ (w'.mem.slice sl).waiting = m0.waiting) ∧
       (∀ x, need ≠ 0 → m0.misses.find? (fun x => x.line == la) = some x → x.who.length < 16 →
         (w'.mem.slice sl).misses = m0.misses.map (fun y => if y.line == la then
           { y with want := Nat.lor y.want need, issued := issued y.issued, who := y.who ++ [core], serving := y.serving || srv } else y) ∧ w'.mem.merged = add64 w.mem.merged 1) ∧
       (need ≠ 0 → m0.misses.find? (fun x => x.line == la) = none → m0.room srv = true → m0.misses.countP (fun x => x.bypass.isSome) < 4 →
         ∃ b, (w'.mem.slice sl).misses = m0.misses ++
           [{ line := la, want := need, issued := issued 0, who := [core], serving := srv, opened := srv, bypass := b }]) ∧
       (need ≠ 0 → m0.misses.find? (fun x => x.line == la) = none → m0.room srv = false →
         (∃ b, (w'.mem.slice sl).waiting = m0.waiting ++ [{ core := core, addr := a, mask := mask % 16, serving := srv, bypass := b }]) ∧
         w'.mem.fullWaits = sat32 w.mem.fullWaits 1))) ∧
  (∀ (s : State) (core addr : Nat) (data : Bytes) (srv : Bool),
     let w := s.w
     let n := (sectorsOf addr data.length).length
     let owner := match w.onCore core with | some t => t.tenant | none => none
     w.clocked = true → data ≠ [] → addr / 128 = (addr + data.length - 1) / 128 → inHost addr data.length = true → w.mayIssue core n = true →
     (core < 32 → w.onCore core ≠ none) → w.tenantOk owner addr data.length = true →
     let part := w.mem.lacking (addr / 128) (partMask addr data.length)
     ∃ w', Gives (.sliceWrite core addr data srv) s w' ∧ Wrote w w' addr data ∧ w'.sched.parts = (w.charge core n).sched.parts ∧
       (part ≠ 0 → (∃ x ∈ (w'.mem.slice (sliceOf addr)).misses, x.line = addr / 128 ∧ Nat.land x.merge part = part) ∨
         (∃ h ∈ (w'.mem.slice (sliceOf addr)).waiting, h.write = true ∧ h.addr = addr ∧ h.mask = part))) ∧
  (∀ (s : State) (sl line sector : Nat) (x : Miss),
     let w := s.w
     let sec := 4 * line + sector
     let merge := if bitAt x.merge sector then 2 ^ sector else 0
     (w.mem.slice sl).misses.find? (fun x => x.line == line && bitAt x.issued sector && decide (sector < 4)) = some x → x.want = 2 ^ sector →
     (w.mem.slice sl).waiting = [] → x.bypass = none → x.drop = none → w.mem.poison.contains sec = false → w.mem.dramPoison.contains sec = false →
     bitAt (w.mem.validIn line) sector = false → w.clocked = true →
     let ended := fun (m : Mem) (w' : World) => (w'.mem.slice sl).misses = (w.mem.slice sl).misses.filter (fun y => y.line != line) ∧
       (w'.mem.slice sl).waiting = [] ∧ w'.mem.sets = (m.touch line (2 ^ sector) merge).sets ∧ SameMemory w w' ∧ w'.mem.corr = m.corr ∧ w'.mem.poison = w.mem.poison
     (∃ w', Gives (.sectorFill sl line sector 0) s w' ∧ ended w.mem w') ∧
     (∃ w', Gives (.sectorFill sl line sector 1) s w' ∧ ended { w.mem with corr := sat32 w.mem.corr 1 } w') ∧
     (∃ w', Gives (.sectorFill sl line sector 2) s w' ∧ w'.mem.poison = w.mem.poison ++ [sec] ∧ w'.mem.ue = sat32 w.mem.ue 1 ∧ w'.mem.ueAddr = 32 * sec ∧
       (w.log.staged.length < 64 → w'.log.staged = w.log.staged ++ [{ ns := w.clock.ns, seq := w.log.seq, code := 0x0011, kind := 1, inst := sl, a1 := 32 * sec, a2 := 0 }])) ∧
     (∃ w', Gives (.sectorFill sl line sector 3) s w' ∧ w'.mem.poison = w.mem.poison ++ [sec] ∧ w'.mem.ue = w.mem.ue))

/-- Scrubbing: into an empty queue a read of the patrol goes on, and the last of a pass starts again and counts it (R167); a dirty
sector of a slice whose check fails is poisoned, counted and logged, and a clean line is counted and fetched again (R164); a forced
spell is counted once, until its last set (R168). An error of a check that is corrected is counted (R167, R168).

A channel's refresh is postponed at most eight intervals (R166). A calibration or retraining that is due runs once, into an
empty queue, its deferral enters the longest, a retraining notes Tj, and a forced one is counted and stalls under CALIBRATION until it ends (R169, R175, R279). No byte of memory changes. -/
def Obligations.ScrubbingAndCalibration : Prop :=
  (∀ (s : State) (ch addr sl set way sector : Nat) (last overdue : Bool), s.w.clocked = true →
     let w := s.w
     (sliceOf addr = ch → addr < hostRegion + 2 ^ 28 → w.mem.idle ch = true → w.mem.poison.contains (addr / 32) = false →
       w.mem.dramPoison.contains (addr / 32) = false →
       (∃ w', Gives (.patrolScrubRead ch addr 0 last overdue) s w' ∧ SameMemory w w' ∧
         (w'.mem.chans.get {} ch).patrol = (if last then 0 else 32 * (addr / 32) + 32) ∧
         w'.mem.patrolDone = (if last then sat32 w.mem.patrolDone 1 else w.mem.patrolDone) ∧
         w'.mem.patrolLate = (if last && overdue then sat32 w.mem.patrolLate 1 else w.mem.patrolLate)) ∧
       (∃ w', Gives (.patrolScrubRead ch addr 1 last overdue) s w' ∧ w'.mem.corr = sat32 w.mem.corr 1 ∧ w'.mem.poison = w.mem.poison) ∧
       (∃ w', Gives (.patrolScrubRead ch addr 2 last overdue) s w' ∧ w'.mem.poison = w.mem.poison ++ [addr / 32] ∧ w'.mem.ue = sat32 w.mem.ue 1 ∧
         w'.mem.ueAddr = 32 * (addr / 32))) ∧
     (sl < 16 → set < 255 → ((w.mem.slice sl).forced || w.mem.idle sl) = true → ∀ l, ((w.mem.sets.get {} (256 * sl + set)).way way)[sector / 4]? = some l →
       let dirty := !l.remote && bitAt l.dirty (sector % 4)
       Gives (.sliceScrub sl set way sector 0) s w ∧
       Gives (.sliceScrub sl set way sector 1) s { w with mem := { w.mem with sliceCorr := sat32 w.mem.sliceCorr 1 } } ∧
       (dirty = false → bitAt l.valid (sector % 4) = false →
         Gives (.sliceScrub sl set way sector 2) s { w with mem := { w.mem with sliceUe := sat32 w.mem.sliceUe 1 } }) ∧
       (dirty = false → bitAt l.valid (sector % 4) = true → ∃ w', Gives (.sliceScrub sl set way sector 2) s w' ∧ SameMemory w w' ∧
         w'.mem.sliceUe = sat32 w.mem.sliceUe 1 ∧ (l.remote = false → ∃ x ∈ (w'.mem.slice sl).misses, x.line = l.addr ∧
           let again := if l.dirty = 0 then l.valid else 2 ^ (sector % 4); Nat.land x.want again = again)) ∧
       (dirty = true → ∃ w', Gives (.sliceScrub sl set way sector 2) s w' ∧
         4 * l.addr + sector % 4 ∈ w'.mem.poison ∧ 4 * l.addr + sector % 4 ∈ w'.mem.slicePoison ∧ w'.mem.ue = sat32 w.mem.ue 1)) ∧
     (sl < 16 → (w.mem.slice sl).forced = false →
       ∃ w', Gives (.forcedScrubSpell sl) s w' ∧ (w'.mem.slice sl).forced = true ∧ w'.mem.forcedScrub = sat32 w.mem.forcedScrub 1 ∧ w'.mem.mem = w.mem.mem) ∧
     (sl < 16 → (w.mem.slice sl).forced = true → Gives (.forcedScrubSpell sl) s w)) ∧
  (∀ (s : State) (ch us : Nat) (postpone retrain : Bool), s.w.clocked = true →
     let w := s.w
     let c := w.mem.chans.get {} ch
     let chan := fun (w' : World) => w'.mem.chans.get {} ch
     let due := if retrain then c.dueTrain else c.due
     let begun := fun (forced : Bool) =>
       if retrain then { c with dueTrain := false, running := true, forced := forced, trained := some w.meter.hot }
       else { c with due := false, running := true, forced := forced }
     (∃ w', Gives (.refresh ch postpone) s w' ∧ chan w' = { c with postponed := if postpone && decide (c.postponed < 8) then c.postponed + 1 else 0 } ∧ w'.mem.mem = w.mem.mem) ∧
     (∃ w', Gives (.calibrationDue ⟨ch, retrain⟩) s w' ∧ chan w' = (if retrain then { c with dueTrain := true } else { c with due := true }) ∧ w'.mem.mem = w.mem.mem) ∧
     (due = true → w.mem.idle ch = true → ∃ w', Gives (.calibrationRun ⟨ch, retrain⟩ us) s w' ∧ chan w' = begun false ∧
       w'.mem.longDefer = max w.mem.longDefer (min us 32000) ∧ w'.mem.mem = w.mem.mem) ∧
     (due = true → c.running = false → ∃ w', Gives (.forcedCalibration ⟨ch, retrain⟩) s w' ∧ chan w' = begun true ∧
       w'.mem.forcedCal = sat32 w.mem.forcedCal 1 ∧ w'.mem.longDefer = max w.mem.longDefer 32000 ∧ w'.mem.mem = w.mem.mem) ∧
     (c.running = true → ∃ w', Gives (.calibrationEnd ch us) s w' ∧ chan w' = { c with running := false, forced := false } ∧
       w'.meter.accrued = (if c.forced then modAt w.meter.accrued 9 (· + us) else w.meter.accrued) ∧ w'.mem.mem = w.mem.mem))

/-- Every command of the cache slices, the channels, the memory window and the streams keeps memory in its canonical form. -/
def Obligations.MemoryCommandsKeepForm : Prop :=
  ∀ (s : State), Memory.wf s.w.mem = true →
    let keeps := fun (c : Instr) => ∀ t, exec c s = .next t → Memory.wf t.w.mem = true
    (∀ core addr mask srv, keeps (.sliceRead core addr mask srv)) ∧ (∀ core addr data srv, keeps (.sliceWrite core addr data srv)) ∧
    (∀ a b c d, keeps (.sectorFill a b c d)) ∧ (∀ n, keeps (.streamBypassWindow n)) ∧ (∀ n, keeps (.compressionSampleEnd n)) ∧
    (∀ a b c d e, keeps (.patrolScrubRead a b c d e)) ∧ (∀ a b c d e, keeps (.sliceScrub a b c d e)) ∧ (∀ n, keeps (.forcedScrubSpell n)) ∧
    (∀ n b, keeps (.refresh n b)) ∧ (∀ c, keeps (.calibrationDue c)) ∧ (∀ c u, keeps (.calibrationRun c u)) ∧ (∀ c, keeps (.forcedCalibration c)) ∧
    (∀ n u, keeps (.calibrationEnd n u)) ∧ keeps .memBandConflict ∧ keeps .numBandConflict ∧ keeps .telemetrySampleDropped ∧
    (∀ o n, keeps (.windowRead o n)) ∧ (∀ o d, keeps (.windowWrite o d)) ∧ (∀ q v, keeps (.streamInputWritten q v)) ∧
    (∀ c b, keeps (.tdmFrameStart c b)) ∧ (∀ c l, keeps (.tdmFrameEnd c l)) ∧ (∀ c, keeps (.playoutDue c))

/-! Links and jobs. -/

/-- A training port goes on stage by stage, and takes its neighbour's identity in stage 5; after stage 6 it is up. One that does not end
a stage in time tries again with a new link state, and fails after its third attempt (R202).

Control flits of a port that is up (R204, R206): a good one returns its credits and takes its acknowledgement, and its NAK resends
every unacknowledged flit from the sequence named; a corrupt one is answered with a NAK that names the sequence expected. Pending
credits go back within their time, each once. An acknowledgement of the last flit of a level message gives its transaction credit back,
which what waited longest takes (R215; log entry 82).

On one engine a lost neighbour and a link without progress each take the port down until a restart and count their fault, cause 7 or
cause 5; a neighbour is lost when its heartbeats stop or say that it is not alive (R207, R222, R398, R399). -/
def Obligations.LinkPorts : Prop :=
  (∀ (s : State) (k : Nat) (nbr : Nbr), s.w.clocked = true → (s.w.port k).st = 1 →
     let p := s.w.port k
     (p.stage < 6 → Gives (.portTrainingStageDone k nbr) s (s.w.updPort k (fun p => { p with
       stage := p.stage + 1, nbr := if p.stage = 5 then some (16 * nbr.tray + nbr.slot, nbr.port) else p.nbr }))) ∧
     (6 ≤ p.stage → s.w.link.jobState ≠ 1 → ∃ w', Gives (.portTrainingStageDone k nbr) s w' ∧ w'.port k = { p with st := 2, stage := 0, attempt := 0 }) ∧
     (p.attempt < 3 → ∃ w', Gives (.portTrainingTimeout k) s w' ∧ ((w'.port k).st, (w'.port k).stage, (w'.port k).attempt) = (1, 1, p.attempt + 1) ∧
       (w'.port k).tries = sat32 p.tries 1 ∧ ((w'.port k).txSeq, (w'.port k).rxSeq, (w'.port k).unacked, (w'.port k).queue) = (0, 0, [], []) ∧
       (w'.port k).credits = [64, 96, 128, 16, 64, 96, 128, 16]) ∧
     (3 ≤ p.attempt → s.w.link.jobState ≠ 1 → s.w.link.jobState ≠ 3 →
       ∃ w', Gives (.portTrainingTimeout k) s w' ∧ w'.port k = { p with st := 3, stage := 0, attempt := 0 })) ∧
  (∀ (s : State) (k : Nat) (h : RxHdr) (credits : List Nat) (nak : Nat), (s.w.port k).st = 2 →
     let w := s.w
     let p := w.port k
     let plain := p.unacked.all (fun e => e.1.lvl.isNone) = true
     (plain → h.crcOk = true → h.reserved = 0 → p.queue = [] → bitAt nak 15 = false → p.unacked.all (fun e => decide (e.2 < 8)) = true →
       ∃ w', Gives (.controlFlit k h credits nak) s w' ∧ w'.out = w.out ∧ w'.port k = { p.acked h.ack with
         rcvd := add64 p.rcvd 1, credits := p.credits.zipIdx.map (fun (c, i) => c + credits.getD i 0) }) ∧
     (∀ f c, p.unacked = [(f, 0)] → f.seq = h.ack → f.lvl = some c → h.crcOk = true → h.reserved = 0 →
       ∃ w', Gives (.controlFlit k h credits nak) s w' ∧ w'.job.toSend = w.job.toSend.drop 1 ∧
         w'.link.credits = (if w.job.toSend = [] then min 1024 (w.link.credits + 1) else min 1024 (w.link.credits + 1) - 1)) ∧
     (∀ i, plain → h.crcOk = true → h.reserved = 0 → p.queue = [] → bitAt nak 15 = true → p.unacked.all (fun e => decide (e.2 < 7)) = true →
       (p.acked h.ack).unacked.findIdx? (fun e => e.1.seq == nak % 4096) = some i →
       let again := (p.acked h.ack).unacked.drop i
       ∃ w', Gives (.controlFlit k h credits nak) s w' ∧ w'.out = w.out ++ again.map (fun e => .flit k e.1 ((p.rxSeq + 4095) % 4096)) ∧
         (w'.port k).resent = sat32 p.resent again.length ∧ (w'.port k).unacked = (p.acked h.ack).unacked.take i ++ again.map (fun e => (e.1, e.2 + 1))) ∧
     ((h.crcOk = false ∨ h.reserved ≠ 0) → ∃ w', Gives (.controlFlit k h credits nak) s w' ∧
       (w'.port k).crc = (if h.crcOk then p.crc else sat32 p.crc 1) ∧ (w'.port k).credits = p.credits ∧ (w'.port k).rxSeq = p.rxSeq ∧
       w'.out = w.out ++ [.flit k { vc := 0, ctl := true, seq := p.txSeq, body := ctlBody p.owed (some p.rxSeq) } ((p.rxSeq + 4095) % 4096)]) ∧
     (0 < p.owed.sum → ∃ w', Gives (.creditReturnTimer k) s w' ∧ (w'.port k).owed = List.replicate 8 0 ∧
       w'.out = w.out ++ [.flit k { vc := 0, ctl := true, seq := p.txSeq, body := ctlBody p.owed none } ((p.rxSeq + 4095) % 4096)]) ∧
     (p.owed.sum = 0 → Gives (.creditReturnTimer k) s w)) ∧
  (∀ (s : State) (k blk : Nat) (r : SbRx), (s.w.port k).st = 2 → s.w.multi = false →
     let w := s.w
     let down := fun (w' : World) => w'.port k = { w.port k with st := 0, faulted := true } ∧ w'.sched.tasks = w.sched.tasks
     ((w.port k).unacked ≠ [] → ∃ w', Gives (.ackProgressTimeout k) s w' ∧ down w' ∧ w'.log.faults = modAt w.log.faults 4 (fun c => sat32 c 1)) ∧
     ((w.port k).unacked = [] → Gives (.ackProgressTimeout k) s w) ∧
     (w.nodeOf w.sched.semHome ≠ some (w.nbrNode k) →
       (∃ w', Gives (.heartbeatTimeout k) s w' ∧ down w' ∧ w'.link.nbrLost = sat32 w.link.nbrLost 1 ∧ w'.log.faults = modAt w.log.faults 6 (fun c => sat32 c 1)) ∧
       (w.readBlock 1 blk = some r → bitAt r.content 0 = false → ∃ w', Gives (.heartbeat k blk) s w' ∧ down w' ∧ w'.link.nbrLost = sat32 w.link.nbrLost 1)) ∧
     (w.readBlock 1 blk = some r → bitAt r.content 0 = true →
       Gives (.heartbeat k blk) s { w with job := { w.job with least := ptVal (ptMin (ptOf w.job.least) (fld r.content 1 4, fld r.content 5 2)) } }) ∧
     Gives .heartbeatSend s { w with out := w.out ++ w.upPorts.map (fun k => .sideband k (sbBlock 1 w.node 0 w.link.epoch w.heartbeatContent)) })

/-- A CEILING block of a job is passed on once, and a point that it lowers, or raises where no ceiling heard contradicts it, waits with
its profile for its delay (R208, R232, R234, R264); every block's ceiling counts as heard, and a raise that one contradicts still brings
its profile; then it takes effect (R232). The vote of a millisecond begins with no ceiling
heard, and this engine's own (R233, R234). -/
def Obligations.Ceilings : Prop :=
  ∀ (s : State) (k blk : Nat) (r : SbRx), (s.w.port k).st = 2 → s.w.inJob = true →
    let w := s.w
    let p := ptOf r.content
    let now := ptOf ((w.job.pending.map (·.1)).getD w.link.jobPoint)
    let prof := (w.job.pending.map (·.2)).getD w.job.profile
    (w.readBlock 2 blk = some r → r.fresh = true → r.epoch = w.link.epoch % 256 →
      (bitAt r.content 9 = false → ∃ w', Gives (.ceiling k blk) s w' ∧ w'.job.pending = some (ptVal (ptMin p now), prof) ∧
        w'.job.least = ptVal (ptMin (ptOf w.job.least) p) ∧ (r.origin, r.seq) ∈ w'.job.seen ∧
        w'.out = w.out ++ (w.upPorts.filter (fun j => some j != some k)).map (fun j => .sideband j blk)) ∧
      (bitAt r.content 9 = true →
        ∃ w', Gives (.ceiling k blk) s w' ∧ w'.link.jobPoint = w.link.jobPoint ∧ w'.job.least = ptVal (ptMin (ptOf w.job.least) p) ∧
          w'.job.pending = some (ptVal (if ptBelow (ptOf w.job.least) p then ptMin p now else p), fld r.content 6 3))) ∧
    (∀ pt pr, w.job.pending = some (pt, pr) → ∃ w', Gives .ceilingApply s w' ∧ w'.job.pending = none ∧ w'.job.profile = pr ∧ w'.mem = w.mem) ∧
    (w.link.logical ≠ 0xFF → w.link.jobState ≠ 3 → w.job.votes = [] → childrenOf w.link.jobSize w.link.logical ≠ [] →
      Gives .ceilingVote s { w with job := { w.job with least := 0x27, votes := [{ kind := 6, own := some w.link.ownCeil }] } })

/-- The first FAULT block of a job's epoch starts the restart: the job's tasks must stop with 0x0510, the epoch goes on, the credits and
the sequence numbers start again, and nothing sent or received in the old epoch is awaited; a mismatch (cause 9) stops the job's
tasks with 0x0511, and no restart follows (R219, R223). A block of another epoch is passed on and nothing more.

The coordinator is the lowest logical ID that answers: 0, or the next where engine 0 is lost, or the next again where no census has come
(R224; log entry 48). Its census ends: where the restart cannot go on the job has failed with 0x0512, and otherwise each lost engine's
logical ID passes to its tray's spare (R224, R226). A REMAP does the same elsewhere, and a RESUME ends the restart: the job awaits
the host, or has failed.

In a restart a census request is answered and names its coordinator, where signed firmware runs and no lower one has asked; an answer is recorded once; and a
checkpoint copy is kept as it comes (R224, R225).

An engine that has restored the last checkpoint has its scale slots and step counter, and each tenant of it is on its other
generation with the checkpoint's numbers; in LENIENT mode a tenant keeps what it has been charged since (R31, R225, R228). -/
def Obligations.Restarts : Prop :=
  (∀ (s : State) (k blk : Nat) (r : SbRx), (s.w.port k).st = 2 → s.w.readBlock 3 blk = some r → r.fresh = true →
     let w := s.w
     let cause := r.content / 256 % 256
     (r.epoch = w.link.epoch % 256 → w.inJob = true → cause ≠ 9 → ∃ w', Gives (.faultFlood k blk) s w' ∧
       (w'.link.jobState, w'.link.epoch, w'.link.credits) = (3, (w.link.epoch + 1) % 2 ^ 32, 1024) ∧
       w'.sched.tasks = w.sched.tasks.map (fun t => if t.job then { t with stop := some 0x0510 } else t) ∧
       (w'.job.reads, w'.job.colls, w'.job.early, w'.job.votes, w'.job.toSend) = ([], [], [], [], []) ∧ (w'.job.collSeq, w'.job.nonce) = (0, 0) ∧ w'.mem.rwrites = [] ∧
       w'.mem.mem = w.mem.mem ∧
       (∀ n, w.link.jobState = 2 → 0 < w.link.jobSize → w.nodeOf 0 = some n → ¬(cause = 7 ∧ r.content % 256 = n) → w'.link.coord = 0) ∧
       (∀ n, w.link.jobState = 2 → 1 < w.link.jobSize → cause = 7 → w.nodeOf 0 = some (r.content % 256) → w.nodeOf 1 = some n → n ≠ r.content % 256 → w'.link.coord = 1)) ∧
     (r.epoch = w.link.epoch % 256 → w.inJob = true → cause = 9 → ∃ w', Gives (.faultFlood k blk) s w' ∧ w'.link = w.link ∧
       w'.sched.tasks = w.sched.tasks.map (fun t => if t.job then { t with stop := some 0x0511 } else t)) ∧
     (r.epoch ≠ w.link.epoch % 256 → ∃ w', Gives (.faultFlood k blk) s w' ∧ w'.link = w.link ∧ w'.sched = w.sched)) ∧
  (∀ (s : State) (k blk : Nat) (r : SbRx),
     let w := s.w
     (∀ x, w.job.restart = some x → x.heard = false → w.link.jobState = 3 →
       ∃ w', Gives .censusTimeout s w' ∧ w'.link.coord = w.leadFrom (w.link.coord + 1) x.lost ∧ w'.link.jobState = 3 ∧
         (w.link.logical = w'.link.coord → w'.job.restart = some { x with heard := true })) ∧
     (∀ x, w.job.restart = some x → x.heard = true → x.censusOpen = true → w.link.logical = w.link.coord → w.link.jobState = 3 →
       let lost := w.lostNodes x
       let w1 := { w with job := { w.job with restart := some { x with censusOpen := false } } }
       (w1.restartFails lost = true → ∃ w', Gives .censusTimeout s w' ∧ (w'.link.jobState, w'.link.status) = (5, 0x0512) ∧ w'.job.restart = none) ∧
       (w1.restartFails lost = false → (∀ l ∈ w.logicalsOf lost, l ≠ 0xFF ∧ w.node ≠ 16 * (l / 8) + 8) →
         ∃ w', Gives .censusTimeout s w' ∧ w'.link.jobState = 3 ∧ ∀ l ∈ w.logicalsOf lost, w'.nodeOf l = some (16 * (l / 8) + 8))) ∧
     ((w.port k).st = 2 → w.readBlock 4 blk = some r → r.fresh = true → r.epoch = w.link.epoch % 256 → w.link.jobState = 3 →
       r.content % 256 ≠ 0xFF → r.content / 256 % 256 ≠ 0xFF →
       ∃ w', Gives (.remap k blk) s w' ∧ w'.nodeOf (r.content % 256) = some (r.content / 256 % 256) ∧
         (w.node = r.content / 256 % 256 → w'.link.logical = r.content % 256)) ∧
     ((w.port k).st = 2 → w.readBlock 5 blk = some r → r.fresh = true → r.epoch = w.link.epoch % 256 → w.link.jobState = 3 →
       ∃ w', Gives (.resume k blk) s w' ∧ w'.job.restart = none ∧ (if bitAt r.content 0 then (w'.link.jobState, w'.link.status) = (5, 0x0512)
         else (w'.link.jobState, w'.link.restarts) = (4, sat32 w.link.restarts 1)))) ∧
  (∀ (s : State) (k : Nat) (h : RxHdr) (m : MsgHdr) (data : Bytes) (w : World) (r : Restart),
     (s.w.receive k h m (flitsIn m) (wireOf m mCensus [1#8]) = (w, true) → w.link.jobState = 3 → w.job.restart = some r → r.censusOpen = true →
       Gives (.censusMsg k h m true) s { w with job := { w.job with restart := some { r with
         answers := if r.answers.contains m.src then r.answers else r.answers ++ [m.src] } } }) ∧
     (s.w.receive k h m (flitsIn m) (wireOf m mCensus [0#8]) = (w, true) → w.link.jobState = 3 → w.fwRuns = true → w.job.ckpt = none →
       w.job.restart = some r →
       Gives (.censusMsg k h m false) s ({ w with
         link := { w.link with coord := if r.heard = true ∧ w.link.coord < m.srcLog then w.link.coord else m.srcLog }
         job := { w.job with restart := some { r with heard := true } } }.message mCensus 3 m.src 0 0 [1#8])) ∧
     (s.w.receive k h m (flitsIn m) (wireOf m mCkpt data) = (w, true) → w.job.restart = some r → r.whole = false → w.sec.session = true →
       Gives (.checkpointCopyMsg k h m data) s { w with job := { w.job with restart := some { r with copy := r.copy ++ data } } })) ∧
  (∀ (s : State) (x : Restart) (c : Ckpt), s.w.job.restart = some x → s.w.link.jobState = 3 → x.restored = false → s.w.link.logical ≠ 0xFF →
     s.w.job.ckpt = some c → (c.tenants.map (·.1)).Nodup →
     let lenient := s.w.train.mode == 1
     ∃ t, exec .checkpointRestoreDone s = .next t ∧ t.w.num.slots = c.slots ∧ t.w.train.stepCtr = c.stepCtr ∧ t.otp = s.otp ∧
       (∀ e ∈ c.tenants, (t.vault.tenants.get {} e.1).live = 1 - (s.vault.tenants.get {} e.1).live) ∧
       (∀ id, id ∉ c.tenants.map (·.1) → t.vault.tenants.get {} id = s.vault.tenants.get {} id) ∧
       (∀ e, c.tenants.head? = some e →
         let old := s.vault.tenants.get {} e.1
         let ck := s.w.load e.2.1 (128 + old.genLen)
         let new := t.vault.tenants.get {} e.1
         (new.np, new.steps, new.budget, new.spent) = (leAt ck 8 4, leAt ck 12 4, leAt ck 16 8, leAt ck 24 8 + (if lenient then old.since else 0))))

/-- A message's flits are taken where the port is up, their CRC is good and the first has the sequence expected: the sequence goes on, and
their buffers are owed back (R204, R206). A message for another node goes on to it, and one of an old epoch is discarded; otherwise
flits that fail are discarded with a NAK (R206, R212, R223). Where a later flit of a message fails, those before it are kept, and a NAK
names that one; the rest of the message completes it. -/
def Obligations.MessagesArrive : Prop :=
  ∀ (w : World) (k : Nat) (h : RxHdr) (m : MsgHdr) (n : Nat) (wire : Bytes), (w.port k).st = 2 →
    let p := w.port k
    let first := h.crcOk && decide (h.reserved = 0) && decide (h.seq = p.rxSeq)
    let v := h.vc % 4
    let left := n - p.held.getD v 0
    let good := first && h.bad.all (fun b => decide (left ≤ b.1))
    let plain := p.unacked.all (fun e => e.1.lvl.isNone) = true
    (plain → good = true → m.dst = w.node → m.epoch = w.link.epoch % 2 ^ 16 → m.auth = true → p.owed.sum + left < 8 → p.queue = [] →
      w.receive k h m n wire = (w.updPort k (fun p => { p.acked h.ack with
        rxSeq := (p.rxSeq + left) % 4096, rcvd := add64 p.rcvd left, owed := modAt p.owed (creditIx v (h.dlc % 2)) (· + left),
        held := modAt p.held v (fun _ => 0) }), true)) ∧
    (∀ i crc, plain → first = true → h.bad = some (i, crc) → i < left → p.owed.sum + i < 8 → p.queue = [] → ∃ w', w.receive k h m n wire = (w', false) ∧
      (w'.port k).rxSeq = (p.rxSeq + i) % 4096 ∧ (w'.port k).held = modAt p.held v (· + i) ∧ (w'.port k).crc = (if crc then sat32 p.crc 1 else p.crc) ∧
      w'.out = w.out ++ [.flit k { vc := 0, ctl := true, seq := p.txSeq, body := ctlBody (modAt p.owed (creditIx v (h.dlc % 2)) (· + i)) (some ((p.rxSeq + i) % 4096)) }
        (((p.rxSeq + i) % 4096 + 4095) % 4096)]) ∧
    (good = true → m.dst = w.node → m.epoch ≠ w.link.epoch % 2 ^ 16 → ∃ w', w.receive k h m n wire = (w', false) ∧ w'.mem = w.mem ∧ w'.sched = w.sched ∧
      (plain → w'.job = w.job)) ∧
    (good = true → m.dst ≠ w.node → w.routeCfg.next w.node m.dst ≠ none → ∃ w', w.receive k h m n wire = (w', false) ∧ .message m.dst wire ∈ w'.out ∧ w'.mem = w.mem ∧
      w'.sched = w.sched) ∧
    (first = false → ∃ w', w.receive k h m n wire = (w', false) ∧ w'.mem = w.mem ∧ w'.sched = w.sched ∧ (w'.port k).rxSeq = p.rxSeq ∧
      w'.out = w.out ++ [.flit k { vc := 0, ctl := true, seq := p.txSeq, body := ctlBody p.owed (some p.rxSeq) } ((p.rxSeq + 4095) % 4096)])

/-- Remote memory: a read is answered with the whole sectors asked for, sealed where they are; what comes back is held here and the read is
over; a write puts its bytes at the home and is acknowledged; an acknowledgement ends its write, and the last one of a task that has ended
completes it (R159); a post of a PUSHPOST adds one to its
semaphore and is answered (R138, R161, R214, R215). -/
def Obligations.RemoteMemory : Prop :=
  ∀ (s : State) (k : Nat) (h : RxHdr) (m : MsgHdr) (data : Bytes) (w : World),
    let a := m.addr % 2 ^ 40
    let lo := a / 32 * 32
    let n := alignUp (a + m.len) 32 - lo
    (s.w.receive k h m 1 (wireOf m mRead []) = (w, true) → inHost lo n = true → (w.anySealed lo n = true → w.hasLinkSecret = true) →
      Gives (.readMsg k h m) s (w.sendMsg mReadData 1 m.src m.tag m.addr (w.load lo n) (w.anySealed lo n))) ∧
    (∀ r, s.w.receive k h m (flitsIn m) (wireOf m mReadData data) = (w, true) → w.job.reads.find? (fun r => r.tag == m.tag && r.node == m.src) = some r →
      w.job.toSend = [] → data.length = r.len →
      ∃ w', Gives (.readDataMsg k h m data) s w' ∧ w'.mem.far.getRun 0 r.addr r.len = data ∧ w'.job.reads = w.job.reads.erase r ∧ SameMemory w w' ∧
        w'.link.credits = min 1024 (w.link.credits + 1)) ∧
    (s.w.receive k h m (flitsIn m) (wireOf m mWrite data) = (w, true) → inHost a data.length = true →
      ∃ w', Gives (.writeMsg k h m data) s w' ∧ Wrote w w' a data ∧ w' = (w.store a data).sendMsg mWriteAck 1 m.src m.tag m.addr [] false) ∧
    (∀ r, s.w.receive k h m (flitsIn m) (wireOf m mWriteAck []) = (w, true) → w.mem.rwrites.find? (fun r => r.tag == m.tag && r.node == m.src) = some r →
      (w.job.toSend = [] → (∀ t, w.task? ⟨r.task.1, r.task.2⟩ = some t → t.closing = none) →
        ∃ w', Gives (.writeAckMsg k h m) s w' ∧ w'.mem = { w.mem with rwrites := w.mem.rwrites.erase r } ∧ w'.link.credits = min 1024 (w.link.credits + 1)) ∧
      (∀ t x, w.task? ⟨r.task.1, r.task.2⟩ = some t → t.closing = some x →
        ∃ w', Gives (.writeAckMsg k h m) s w' ∧ w'.mem.rwrites = w.mem.rwrites.erase r ∧
          ((w.mem.rwrites.erase r).any (fun y => y.task == r.task) = false → w.Completes t x w') ∧
          ((w.mem.rwrites.erase r).any (fun y => y.task == r.task) = true → w'.task? t.id = some t))) ∧
    (∀ sem q slot core, s.w.receive k h m (flitsIn m) (wireOf m mPost ([byteOf sem, byteOf q] ++ leBytes 2 slot ++ [byteOf core])) = (w, true) →
      sem < 256 → (w.sem false sem).value < 65535 → w.streamSem sem = false →
      ∃ w', Gives (.pushpostPostMsg k h m sem q slot core) s w' ∧ (w'.sem false sem).value = (w.sem false sem).value + 1 ∧ w'.mem = w.mem)

/-- Collectives' messages: a setup or a partial whose ID or leaf-count exponent is not that of the collective here stops the job's tasks
(R219); a partial joins its tree, and a result from above goes on down and is written to D (R216, R218). What comes before its
collective is kept for it.

Messages about a global semaphore (R138, R140): at its home a wait takes one and is answered, or waits where the value is 0, and a
post adds one and is answered; at the waiter the answer lets its stage go on as an owner, and at the poster it completes the
operation, with 0x0809 where the home refused the post (R103). -/
def Obligations.CollectiveAndSemaphoreMessages : Prop :=
  (∀ (s : State) (k : Nat) (h : RxHdr) (m : MsgHdr) (lam node span : Nat) (data : Bytes) (w : World) (c : Coll) (r : Run),
     let id := m.addr % 2 ^ 32
     let seq := m.addr / 2 ^ 32 % 2 ^ 16
     let here := w.job.colls.find? (fun c => c.seq % 2 ^ 16 == seq)
     let early := fun (down : Bool) =>
       ({ id := id, seq := seq, lam := lam, node := if span = 0 then 0 else node, down := down, src := m.src, data := data } : Early)
     (∀ down, s.w.receive k h m 1 (wireOf m mSetup (setupBytes lam node span down)) = (w, true) → here = some c →
       (c.id = id → c.lam = lam → Gives (.collectiveSetupMsg k h m lam node span down) s w) ∧
       ((c.id ≠ id ∨ c.lam ≠ lam) → Gives (.collectiveSetupMsg k h m lam node span down) s (w.mismatch m.src))) ∧
     (∀ down, s.w.receive k h m (max 1 (cdiv m.len 64)) data = (w, true) →
       (here = some c → (c.id ≠ id ∨ c.lam ≠ lam) → Gives (.collectiveData k h m lam node span down data) s (w.mismatch m.src)) ∧
       (here = some c → c.id = id → c.lam = lam → down = true → w.collRun c = some r → c.toRoot = false → c.op ≠ .slots →
         Gives (.collectiveData k h m lam node span down data) s ((w.sendDown c data).writeColl c r data {})) ∧
       (here = none → w.barrierAt seq = false → (seq + 2 ^ 16 - w.job.collSeq % 2 ^ 16) % 2 ^ 16 < 2 ^ 15 →
         Gives (.collectiveData k h m lam node span down data) s { w with job := { w.job with early := w.job.early ++ [early down] } })) ∧
     (s.w.receive k h m (flitsIn m) (wireOf m mSkip (setupBytes lam node span false)) = (w, true) → here = some c → c.id = id → c.lam = lam →
       Gives (.skipNoticeMsg k h m lam node span) s ((w.updColl c.seq (fun c => { c with notices := c.notices ++ [node] })).advanceColl c.seq)) ∧
     (∀ q n g x, s.w.job.colls.find? (fun c => c.task == ⟨q, n⟩ && c.stage == g) = some c → s.w.train.mode = 1 → c.op = .sum →
       c.nodes.find? (fun x => x.1 + x.2.1 == node && x.1 % (2 * x.2.1) == 0) = some x → node < c.leaves s.w.link.jobSize →
       leafOwner s.w.link.jobSize c.lam node ≠ s.w.link.logical → c.skipped.contains node = false → c.nodes.any (fun y => y.1 == node) = false →
       ∃ w', Gives (.latenessDeadline q n g node) s w' ∧ w'.link.skips = sat32 s.w.link.skips 1 ∧ w'.link.nondet = true)) ∧
  (∀ (s : State) (k : Nat) (h : RxHdr) (m : MsgHdr) (n q slot core rank : Nat) (w : World), n < 256 →
     let came := fun (op : Nat) => s.w.receive k h m (flitsIn m) (wireOf m mSem (semBytes op n q slot core rank)) = (w, true)
     let x := w.sem true n
     (came 0 → w.semHere = true → 1 ≤ x.value → Gives (.semaphoreMsg k h m 0 n q slot core rank) s
       ((w.updSem true n (fun y => { y with value := y.value - 1, owner := some { engine := m.srcLog, task := ⟨q, slot⟩, slot := slot, core := core } })).semMsg
         m.srcLog 2 n q slot core rank)) ∧
     (came 0 → w.semHere = true → x.value = 0 → ∃ w', Gives (.semaphoreMsg k h m 0 n q slot core rank) s w' ∧ (w'.sem true n).value = 0 ∧
       (w'.sem true n).far = x.far ++ [{ engine := m.srcLog, queue := q, slot := slot, core := core, rank := rank, ord := w.sched.order }]) ∧
     (came 1 → w.semHere = true → x.value < 65535 → x.owner = none → Gives (.semaphoreMsg k h m 1 n q slot core rank) s
       ((w.updSem true n (fun y => { y with value := y.value + 1 })).semMsg m.srcLog 3 n q slot core rank)) ∧
     (came 1 → w.semHere = true → 65535 ≤ x.value → Gives (.semaphoreMsg k h m 1 n q slot core rank) s (w.semMsg m.srcLog 4 n q slot core rank)) ∧
     (∀ t g, came 2 → w.taskAt q slot = some t → w.task? t.id = some t → t.parking = false → t.stageAt core (Phase.asks n) = some g →
       ∃ w', Gives (.semaphoreMsg k h m 2 n q slot core rank) s w' ∧ w'.phase? t.id g = some .granted ∧ (w'.task? t.id).map (·.owns) = some (t.owns ++ [n])) ∧
     (∀ t g, w.taskAt q slot = some t → t.stageAt core Phase.posts = some g → (Desc.ofBytes ((t.stgs[g]?).elim [] (·.desc))).pgl = true →
       (came 3 → Gives (.semaphoreMsg k h m 3 n q slot core rank) s (w.posted t.id g true)) ∧
       (came 4 → Gives (.semaphoreMsg k h m 4 n q slot core rank) s (w.posted t.id g false))))

/-- Votes: one that comes up is heard, and waits where the vote is not complete (R25, R217). An answer that comes down to an admission
makes the task ready or ends it with the refusal (R25), to a barrier lets its operation go on (R218), and to the commits of a step
performs the act here (R26). -/
def Obligations.VoteMessages : Prop :=
  ∀ (s : State) (k : Nat) (h : RxHdr) (m : MsgHdr) (kind status value : Nat) (w : World), (s.w.train.steps.map (·.task)).Nodup →
    let came := fun (kind : Nat) (down : Bool) (status : Nat) =>
      s.w.receive k h m (flitsIn m) (wireOf m mVote (voteBytes kind down status value)) = (w, true)
    (s.w.job.votes = [] → came kind false status → kind ∈ [0, 1, 4] →
      ∃ w', Gives (.voteMsg k h m kind false status value) s w' ∧ w'.job.votes = [{ kind := kind, value := value, got := [(m.srcLog, status)] }]) ∧
    (∀ v t, s.w.job.votes = [v] → v.value = value → v.own = some 0 → s.w.task? v.task = some t →
      (v.kind = 0 → came 0 true 0 → t.st = .posted → ∃ w', Gives (.voteMsg k h m 0 true 0 value) s w' ∧ w'.task? v.task = some { t with st := .ready }) ∧
      (v.kind = 0 → came 0 true status → status ≠ 0 → t.st = .posted →
        ∃ w', Gives (.voteMsg k h m 0 true status value) s w' ∧ w.Completes t status w') ∧
      (v.kind = 3 → came 3 true 0 → s.w.phase? v.task v.stage = some .collective →
        ∃ w' res, Gives (.voteMsg k h m 3 true 0 value) s w' ∧ w'.phase? v.task v.stage = some (.executed res) ∧ res.status = 0 ∧ w'.job.votes = []) ∧
      (∀ st, v.kind = 1 → came 1 true 0 → s.w.step? v.task = some st → st.committed = false → s.w.phase? v.task v.stage = some .collective →
        ∃ t' res, exec (.voteMsg k h m 1 true 0 value) s = .next t' ∧ t'.w.phase? v.task v.stage = some (.executed res) ∧ res.status = 0 ∧
          t'.w.train.stepCtr = w.train.stepCtr + 1 ∧
          (let x := s.vault.tenants.get {} st.tenant
           let y := t'.vault.tenants.get {} st.tenant
           (y.live, y.spent, y.budget) = (1 - x.live, x.spent + spendOf t.sigma t.q, x.budget))))

/-! Power. -/

/-- WAKE. A level that is newly high starts a wake at stage 1 from Dormant; in Doze it is an exit event, which waits for the residency;
up to step D2 it abandons a power-down, and later it is kept for the end of it; elsewhere only the pin changes (R249, R251, R254).

WAKE low. It starts a power-down from Active or Idle, which ends the segmented transfers; it cancels a power-up, which unwinds; up to
D2 it makes 0x2000:03 the target of a power-down; and in Doze it goes on to power the engine off where that object says so (R249, R250,
R297). -/
def Obligations.WakePin : Prop :=
  (∀ (s : State),
     let w := s.w
     let p := w.power
     let up := ({ w with pins := { w.pins with wake := true } } : World)
     (w.pins.wake = true → Gives .wakeRise s w) ∧
     (w.pins.wake = false →
       (p.st = .active ∨ p.st = .idle ∨ p.st = .up ∨ p.st = .unwind ∨ p.st = .wakeFailed → Gives .wakeRise s up) ∧
       (p.st = .dormant → ∃ w', Gives .wakeRise s w' ∧ (w'.power.st, w'.power.stage, w'.power.attempts) = (.up, 1, [1, 0, 0, 0, 0, 0]) ∧
         w'.pins.wake = true ∧ w'.clock.ns = 0 ∧ w'.sched.tasks = []) ∧
       (p.st = .doze → p.exiting = none → p.resided = true → ∃ w', Gives .wakeRise s w' ∧
         (w'.power.st, w'.power.exiting, w'.power.dozeCause, w'.power.req) = (.doze, some 0, 0, 0) ∧
         w'.power.dozeExits = sat32 p.dozeExits 1 ∧ w'.pins.wake = true ∧ w'.mem = w.mem) ∧
       (p.st = .doze → p.exiting = none → p.resided = false →
         Gives .wakeRise s { up with power := { p with heldExit := some (p.heldExit.getD 0) } }) ∧
       (p.st = .down → p.dstep ≤ 2 → p.req = 0 → ∃ w', Gives .wakeRise s w' ∧ (w'.power.st, w'.power.dstep) = (.active, 0) ∧
         w'.power.aborted = sat32 p.aborted 1 ∧ w'.mem = w.mem) ∧
       (p.st = .down → p.dstep ≤ 2 → p.req = 1 → w.quiet = true → ∃ w', Gives .wakeRise s w' ∧ (w'.power.st, w'.power.dstep) = (.idle, 0) ∧
         w'.power.aborted = sat32 p.aborted 1 ∧ w'.mem = w.mem) ∧
       (p.st = .down → 2 < p.dstep → Gives .wakeRise s { up with power := { p with follow := some 0 } }))) ∧
  (∀ (s : State),
     let w := s.w
     let p := w.power
     let low := ({ w with pins := { w.pins with wake := false } } : World)
     (p.st = .active ∨ p.st = .idle → ∃ w', Gives .wakeFall s w' ∧ (w'.power.st, w'.power.dstep) = (.down, 1) ∧
       (w'.power.toDoze, w'.power.byReq) = (p.lowTarget == 1, false) ∧ w'.stn.transfers = [] ∧ w'.pins.wake = false ∧ w'.mem = w.mem ∧ w'.sched = w.sched) ∧
     (p.st = .up → ∃ w', Gives .wakeFall s w' ∧ (w'.power.st, w'.power.settling) = (.unwind, false) ∧ w'.pins.wake = false) ∧
     (p.st = .down → p.dstep ≤ 2 → Gives .wakeFall s { low with power := { p with toDoze := p.lowTarget == 1 } }) ∧
     (p.st = .down → 2 < p.dstep → Gives .wakeFall s low) ∧
     (p.st = .doze → p.lowTarget = 1 → Gives .wakeFall s low) ∧
     (p.st = .doze → p.lowTarget ≠ 1 → p.exiting = none → ∃ w', Gives .wakeFall s w' ∧ (w'.power.st, w'.power.dstep) = (.down, 5) ∧
       (w'.pins.vio, w'.pins.faultN) = (false, none)) ∧
     (p.st = .dormant ∨ p.st = .unwind ∨ p.st = .wakeFailed → Gives .wakeFall s low))

/-- The wake stages. Each that completes starts the next with its first attempt: stage 2 raises VIO and FAULT_N, stage 4 takes what OTP and
the straps hold and starts the timestamp where the factory area passes its checks, and stage 6 raises READY in Active at OP0. A stage that
does not complete is attempted again after its settle, three times, and then the wake unwinds (R8, R242 to R244). In stage 4 an attempt
that finds a reserved ball held up fails too (R346; bit 9 on of the operand).

The end of an unwind and Wake-Failed: a wake that failed ends in Wake-Failed, whose READY pulses count the stage out, and WAKE low leads
from there to Dormant; a wake that was cancelled ends in Dormant, and a new one starts at once where WAKE is high (R244 to R246, R250). -/
def Obligations.WakeStages : Prop :=
  (∀ (s : State) (straps : Nat), s.w.power.st = .up →
     let w := s.w
     let p := w.power
     let n := p.attempts.getD (p.stage - 1) 0
     let next := { p with stage := p.stage + 1, attempts := setAt p.attempts p.stage 1 }
     (p.settling = false →
       (p.stage = 1 ∨ p.stage = 3 ∨ p.stage = 5 → Gives (.wakeStageDone straps) s { w with power := next }) ∧
       (p.stage = 2 → Gives (.wakeStageDone straps) s
         { w with power := next, pins := { w.pins with vio := true, faultN := some true }, pt := { w.pt with coreMv := 600 } }) ∧
       (p.stage = 4 → 2 ^ 9 ≤ straps → n < 3 → Gives (.wakeStageDone straps) s { w with power := { p with settling := true } }) ∧
       (p.stage = 4 → straps < 2 ^ 9 → factoryOk s.otp.factory = true → ∃ w', Gives (.wakeStageDone straps) s w' ∧ (w'.live, w'.clock.ns, w'.power.stage) = (s.otp.load straps, 0, 5) ∧
         w'.link.jobSize = (if w'.live.cls = 1 then 2 else if w'.live.cls = 2 then 8 else 1)) ∧
       (p.stage = 6 → w.pins.pwrAlertN = true → w.pins.coolOk = true → ∃ w', Gives (.wakeStageDone straps) s w' ∧ (w'.power.st, w'.pins.ready) = (.active, true) ∧
         (w'.pt.op, w'.pt.mem, w'.pt.coreMv) = (0, 0, w.trimMv 0) ∧ w'.power.lastWakeUs = p.wakeUs ∧ w'.mem = w.mem) ∧
       (n < 3 → Gives .wakeStageTimeout s { w with power := { p with settling := true } }) ∧
       (3 ≤ n → ∃ w', Gives .wakeStageTimeout s w' ∧ (w'.power.st, w'.power.failed, w'.power.toFail) = (.unwind, p.stage, true))) ∧
     (p.settling = true → Gives .retrySettleEnd s
       (({ w with power := { p with settling := false, attempts := setAt p.attempts (p.stage - 1) (n + 1) } } : World).event 0x0002 srcAlwaysOn 0 p.stage (n + 1)))) ∧
  (∀ (s : State),
     let w := s.w
     let p := w.power
     (p.st = .unwind → p.toFail = true → ∃ w', Gives .unwindDone s w' ∧ (w'.power.st, w'.power.failed) = (.wakeFailed, p.failed) ∧
       w'.out = w.out ++ [.pulses p.failed] ∧ w'.pins.faultN = some false ∧ w'.pins.ready = false) ∧
     (p.st = .unwind → p.toFail = false → w.pins.wake = false → ∃ w', Gives .unwindDone s w' ∧ (w'.power.st, w'.pins.ready, w'.pins.vio) = (.dormant, false, false)) ∧
     (p.st = .unwind → p.toFail = false → w.pins.wake = true → w.pins.resetN = true → ∃ w', Gives .unwindDone s w' ∧ (w'.power.st, w'.power.stage) = (.up, 1)) ∧
     (p.st = .wakeFailed → Gives .readyBurst s { w with out := w.out ++ [.pulses p.failed] }) ∧
     (p.st = .wakeFailed → w.pins.wake = false → ∃ w', Gives .wakeFailedExit s w' ∧ (w'.power.st, w'.pins.faultN) = (.dormant, none)) ∧
     (p.st = .wakeFailed → w.pins.wake = true → Gives .wakeFailedExit s w))

/-- The trims: each operating point has one trim byte b, and its rails run at 400 + 5 × b mV from wake stage 4 on, as 0x2100:01 to 0x2100:08
read. Stage 4 fails where a trimmed voltage lies more than 50 mV from the typical one of its point, or they do not rise with the point
(R259). -/
def Obligations.TrimmedVoltages : Prop :=
  ∀ (s : State) (straps : Nat), straps < 2 ^ 9 → s.w.power.st = .up → s.w.power.stage = 4 → s.w.power.settling = false →
    let w := s.w
    let mv := fun (i : Nat) => 400 + 5 * leAt s.otp.factory (16 + i) 1
    (factoryOk s.otp.factory = true → ∃ w', Gives (.wakeStageDone straps) s w' ∧ w'.power.stage = 5 ∧ ∀ i, i < 8 →
      w'.trimMv i = mv i ∧ w'.pt.coreMv = mv 0 ∧ (∀ rq v, w'.readObj s.otp v rq 0x2100 (i + 1) = leBytes 2 (mv i)) ∧
      (∀ m, ∃ t, exec .voltageRampDone { s with w := { w' with pt := { w'.pt with ramp := some (i, m) } } } = .next t ∧ (t.w.pt.op, t.w.pt.coreMv) = (i, mv i))) ∧
    (((∃ i, i < 8 ∧ (typicalMv i + 50 < mv i ∨ mv i + 50 < typicalMv i)) ∨ (∃ i, i < 7 ∧ mv (i + 1) ≤ mv i)) → w.power.attempts.getD 3 0 < 3 →
      Gives (.wakeStageDone straps) s { w with power := { w.power with settling := true } })

/-- A power-down: D1 waits until no task is on a core, unless a halt has stopped the cores; D2 writes the caches back from its start, so that
an abort in it finds the lines clean (R251); D3 has ended every task with POWER_DOWN, takes the link ports down and drops READY, while the
queues keep what host software wrote and their sequences (R241; log entry 33); D4 reaches Doze or goes on; and D5 and D6 lead to Dormant, where no tenant is
left (R247, R248, R251, R284).

RESET_N low and a loss of VIN power the engine off from any state but Dormant, without waiting: memory, tasks and tenants are gone, and D5
is next. RESET_N is ignored in Wake-Failed. RESET_N going high again in Dormant lets a wake start (R240, R255, R256). -/
def Obligations.PowerDownAndLoss : Prop :=
  (∀ (s : State), s.w.power.st = .down →
     let w := s.w
     let p := w.power
     let c := Instr.powerDownStepDone
     (p.dstep = 1 → (w.quiet || w.pt.halted) = true → ∃ w', Gives c s w' ∧ w'.power = { p with dstep := 2 } ∧ SameMemory w w' ∧ w'.sched = w.sched ∧
       (∀ e ∈ w'.mem.sets, ∀ way ∈ e.2.ways, ∀ l ∈ way, l.dirty = 0)) ∧
     (p.dstep = 1 → (w.quiet || w.pt.halted) = false → Gives c s w) ∧
     (p.dstep = 2 → w.sched.tasks = [] → ∃ w', Gives c s w' ∧ w'.power.dstep = 3 ∧ w'.pins.ready = false ∧ (∀ x ∈ w'.link.ports, x.st = 0) ∧
       w'.mem.seals = w.mem.seals ∧ SameMemory w w' ∧ (∀ n,
         let q := w.queue n
         let q' := w'.queue n
         (q'.enabled, q'.st, q'.f, q'.c, q'.a, q'.p) = (q.enabled, q.st, q.f, q.c, q.a, q.f))) ∧
     (∀ t, p.dstep = 2 → w.sched.tasks = [t] → w.step? t.id = none → w.multi = false →
       ∃ w', Gives c s w' ∧ w'.power.dstep = 3 ∧ w'.pins.ready = false ∧ w.Completes t 0x0602 w') ∧
     (p.dstep = 3 → Gives c s { w with power := { p with dstep := 4 } }) ∧
     (p.dstep = 4 → w.pins.wake = true → p.toDoze = true → ∃ w', Gives c s w' ∧ (w'.power.st, w'.power.resided, w'.power.heldExit) = (.doze, false, p.follow) ∧
       w'.mem.mem = w.mem.mem ∧ w'.mem.seals = w.mem.seals ∧ (w'.mem.sets, w'.mem.l1, w'.mem.staging) = ([], [], []) ∧ w'.num = w.num ∧ w'.train = w.train) ∧
     (p.dstep = 4 → w.pins.wake = true → p.toDoze = false →
       ∃ w', exec c s = .next { s with vault := resetVault, w := w' } ∧ w'.power.dstep = 5 ∧ (w'.pins.vio, w'.pins.faultN) = (false, none)) ∧
     (p.dstep = 5 → exec c s = .next { s with vault := resetVault, w := { w with power := { p with dstep := 6 } } }) ∧
     (p.dstep = 6 → w.pins.wake = false →
       ∃ w', exec c s = .next { s with vault := resetVault, w := w' } ∧ w'.power.st = .dormant ∧ w'.mem = {} ∧ w'.sched.tasks = [] ∧ w'.train = {}) ∧
     (p.dstep = 6 → w.pins.wake = true → w.pins.resetN = true →
       ∃ w', exec c s = .next { s with vault := resetVault, w := w' } ∧ (w'.power.st, w'.power.stage) = (.up, 1) ∧ w'.mem = {})) ∧
  (∀ (s : State),
     let w := s.w
     let low := ({ w with pins := { w.pins with resetN := false } } : World)
     let high := ({ w with pins := { w.pins with resetN := true } } : World)
     let gone := fun (w' : World) => (w'.power.st, w'.power.dstep) = (.down, 5) ∧ w'.mem = {} ∧ w'.sched = {} ∧ w'.train = {} ∧ w'.log = {} ∧
       (w'.pins.ready, w'.pins.vio, w'.pins.faultN) = (false, false, none) ∧ (w'.pins.wake, w'.pins.pwrAlertN, w'.pins.coolOk) = (w.pins.wake, w.pins.pwrAlertN, w.pins.coolOk)
     (w.power.st ≠ .dormant → w.power.st ≠ .wakeFailed →
       ∃ w', exec .resetNLow s = .next { s with vault := resetVault, w := w' } ∧ gone w' ∧ w'.pins.resetN = false) ∧
     (w.power.st = .dormant ∨ w.power.st = .wakeFailed → exec .resetNLow s = .next { s with vault := resetVault, w := low }) ∧
     (w.power.st ≠ .dormant → ∃ w', exec .vinLoss s = .next { s with vault := resetVault, w := w' } ∧ gone w' ∧ w'.pins.resetN = w.pins.resetN) ∧
     (w.power.st = .dormant → w.pins.wake = true → ∃ w', Gives .resetNRelease s w' ∧ (w'.power.st, w'.power.stage, w'.pins.resetN) = (.up, 1, true)) ∧
     (w.power.st = .dormant → w.pins.wake = false → ∃ w', Gives .resetNRelease s w' ∧ (w'.power.st, w'.pins.resetN) = (.dormant, true)) ∧
     (w.power.st ≠ .dormant → Gives .resetNRelease s high))

/-- Entry to Idle ends when no task is on a core (R237). An exit from Doze starts with CLKREQ_N or a frame, where 0x2000:0A lets it, or waits
for the residency; such a frame's request waits for the return, the seventeenth is answered BUSY, and one of another EtherType is ignored
(R298, R300); the return ends in Active with READY high (R239, R241, R254, R302). The energy of Doze is counted (R277). -/
def Obligations.IdleAndDoze : Prop :=
  ∀ (s : State),
    let w := s.w
    let p := w.power
    (p.st = .active → p.entering = true → w.quiet = true → ∃ w', Gives .idleEntryDone s w' ∧ (w'.power.st, w'.power.entering) = (.idle, false) ∧ w'.mem = w.mem) ∧
    (p.st = .active → w.quiet = false → Gives .idleEntryDone s w) ∧
    (p.st = .doze →
      (bitAt p.dozeSrc 0 = true → w.live.clkreq = true → w.host.speed ≠ 0 → w.pins.wake = true → p.exiting = none →
        Gives .dozeExitPcie s { w with power := if p.resided then
          { p with exiting := some 1, heldExit := none, req := 0, dozeCause := 1, dozeExits := sat32 p.dozeExits 1 }
          else { p with heldExit := some (p.heldExit.getD 1) } }) ∧
      (∀ dmac smac wait msg,
        let b := unpad msg
        let m := msgOf b
        let c := Instr.dozeExitFrame (.frame dmac smac etherType true wait) msg
        w.accepts dmac m = true → m.src < 32 → m.isAck false = false → w.pins.wake = true → p.exiting = none →
        (bitAt p.dozeSrc 1 = true → ∃ w', Gives c s w' ∧ w'.mem = w.mem ∧ w'.adp.accepted = add64 w.adp.accepted 1 ∧
          (if w.stn.waiting < 16 then w'.stn.rx = w.stn.rx ++ [.frame smac b []]
            else w'.stn.rx = w.stn.rx ∧ w'.adp.busyCnt = sat32 w.adp.busyCnt 1 ∧
              (w.stn.txq.length < 16 → (smac, respond w.live.nodeId m 0x0816 0 0 []) ∈ w'.stn.txq)) ∧
          (if p.resided then (w'.power.exiting, w'.power.dozeCause) = (some 2, 2) else w'.power.heldExit = some (p.heldExit.getD 2))) ∧
        (bitAt p.dozeSrc 1 = false → ∃ w', Gives c s w' ∧ w'.stn.rx = w.stn.rx ∧ w'.power = p ∧ w'.adp.rxDrops = sat32 w.adp.rxDrops 1)) ∧
      (∀ dmac smac etype wait msg, etype ≠ etherType → Gives (.dozeExitFrame (.frame dmac smac etype true wait) msg) s w) ∧
      (p.resided = false → p.heldExit = none → Gives .dozeResidencyEnd s { w with power := { p with resided := true } }) ∧
      (∀ c, p.resided = false → p.heldExit = some c → w.pins.wake = true → Gives .dozeResidencyEnd s { w with power :=
        { p with resided := true, exiting := some c, heldExit := none, req := 0, dozeCause := c, dozeExits := sat32 p.dozeExits 1 } }) ∧
      (∀ c, p.exiting = some c → w.stn.rx = [] → w.pins.wake = true → p.req = 0 → w.pins.pwrAlertN = true → w.pins.coolOk = true →
        ∃ w', Gives .dozeExitComplete s w' ∧ (w'.power.st, w'.power.exiting, w'.pins.ready) = (.active, none, true) ∧ w'.mem = w.mem ∧ w'.sched = w.sched) ∧
      (∀ uj, Gives (.dozeEnergyIntegration uj) s { w with meter := { w.meter with energy := add64 w.meter.energy uj } }))

/-- The cap loop (R267): by the domain with the largest ratio of power to budget it lowers once above the budget, twice above 5 % over and four
times above 15 % over; where no domain is above 90 % of its budget the eighth calm sample raises once; between, it counts from 0 again. -/
def Obligations.CapLoop : Prop :=
  ∀ (p : OpPoint) (doms : List Nat), (∀ d, d < 4 → 0 < (p.ratio doms d).2) → p.capMem ≤ 2 → p.notch ≤ 19 →
    let past := fun (pct : Nat) => ∃ d, d < 4 ∧ pct * (p.ratio doms d).2 < (p.ratio doms d).1
    let lowered := fun (n : Nat) => (p.capLoop doms).notch + p.capMem = p.notch + (p.capLoop doms).capMem + n ∧ (p.capLoop doms).calm = 0
    (past 115 → lowered 4) ∧ (past 105 → ¬past 115 → lowered 2) ∧ (past 100 → ¬past 105 → lowered 1) ∧ (past 90 → ¬past 100 → lowered 0) ∧
    (¬past 90 → p.calm < 7 → p.capLoop doms = { p with calm := p.calm + 1 }) ∧
    (¬past 90 → 7 ≤ p.calm → p.capLoop doms = { p.raise with calm := 0 }) ∧
    (∀ d, d < 4 → (p.ratio doms d).1 * (p.ratio doms (p.worst doms)).2 ≤ (p.ratio doms (p.worst doms)).1 * (p.ratio doms d).2)

/-- A sample of power and VIN is metered, the cap loop and the thermal ceiling take a step, and an engine outside a job moves to its ceiling:
downwards at once, upwards after the voltage has ramped (R261, R262, R267, R271, R277, R280). A ramp that ends leaves the engine at its
point and that point's voltage. After a safety source the ceiling rises by at most one point at each sample (R276); VIN below 2.9 V, or a
current at the hard limit, is a regulator alert (R274). The issue clamp engages at 8/16 and releases by 2/16 up to the ladder's limit (R269).

Regulator calibration starts in Idle with no safety source and a stale age, and its end makes the age 0 (R277, R278). An age past 3,600 s is
logged once (R405), and so is a count of profile-band conflicts that has changed (R281). -/
def Obligations.PowerSamples : Prop :=
  (∀ (s : State) (doms : List Nat) (vin : Nat), s.w.clocked = true →
     let w := s.w
     let r := w.rampDone.pt
     (doms.length = 4 → w.inJob = false → w.pt.safety = false → w.pt.slow = false → 2900 ≤ vin →
       ∃ w', Gives (.dvfsSample doms vin) s w' ∧ (w'.meter.energy, w'.meter.doms, w'.meter.vin) = (add64 w.meter.energy doms.sum, doms, vin) ∧
         w'.meter.vinLow = min w.meter.vinLow vin ∧ w'.mem = w.mem ∧ w'.sched = w.sched ∧
         (let l := (r.capLoop doms).thermal w.meter.hot w.meter.onset
          (w'.pt.notch, w'.pt.capMem, w'.pt.calm, w'.pt.thermCeil, w'.pt.cool) = (l.notch, l.capMem, l.calm, l.thermCeil, l.cool)) ∧
         w'.link.ownCeil = ptVal w'.ceilingNow ∧
         (w'.ceilingNow.1 < r.op → (w'.pt.op, w'.pt.mem) = w'.ceilingNow) ∧
         (r.op < w'.ceilingNow.1 → w'.pt.op = r.op ∧ w'.pt.ramp = some w'.ceilingNow)) ∧
     (doms.length = 4 → w.inJob = false → w.pt.safety = false → w.pt.slow = true → 2900 ≤ vin →
       ∃ w', Gives (.dvfsSample doms vin) s w' ∧ (ptOf w'.link.ownCeil).1 ≤ r.op + 1 ∧ (w'.pt.slow = false → w'.goal.1 ≤ 7 → w'.link.ownCeil = ptVal (w'.ceilingTo 7))) ∧
     (doms.length = 4 → vin < 2900 → w.pt.regAlert = false → ∃ w', Gives (.dvfsSample doms vin) s w' ∧ w'.pt.regAlert = true ∧ (w'.pt.op, w'.pt.mem) = (0, 0)) ∧
     (∀ p, w.pt.ramp = some p → ∃ w', Gives .voltageRampDone s w' ∧
       (w'.pt.op, w'.pt.mem, w'.pt.ramp, w'.pt.coreMv) = (p.1, p.2, none, 400 + 5 * w.live.trims.getD p.1 0)) ∧
     (∀ ma, w.pt.softMa < ma → ma < 16000 → ∃ w', Gives (.currentClampEngage ma) s w' ∧ w'.pt = { w.pt with clamp := 8, profile := w.profileNow } ∧
       bitAt w'.meter.reasons 5 = true) ∧
     (∀ ma, w.pt.softMa < ma → 16000 ≤ ma → ∃ w', Gives (.currentClampEngage ma) s w' ∧ w'.pt.clamp = 8 ∧ w'.pt.regAlert = true) ∧
     (w.pt.clamp ≤ w.pt.ladder → ∃ w', Gives .currentClampReleaseStep s w' ∧
       w'.pt = { w.pt with clamp := if w.pt.ladder ≤ w.pt.clamp + 2 then w.pt.ladder else w.pt.clamp + 2, profile := w.profileNow })) ∧
  (∀ (s : State),
     let w := s.w
     (w.power.st = .idle → w.pt.safety = false → 60 < w.meter.calAge → Gives .regulatorCalibrationStart s { w with meter := { w.meter with calRun := true } }) ∧
     (w.power.st ≠ .idle ∨ w.pt.safety = true ∨ w.meter.calAge ≤ 60 → Gives .regulatorCalibrationStart s w) ∧
     (w.meter.calRun = true → Gives .regulatorCalibrationDone s { w with meter := { w.meter with calRun := false, calAge := 0, calNs := 0, stale := false } }) ∧
     (w.clocked = true → 3600 < w.meter.calAge → w.meter.stale = false → w.log.staged.length < 64 →
       ∃ w', Gives .calibrationStale s w' ∧ w'.meter.stale = true ∧ w'.log.staged = w.log.staged ++
         [{ ns := w.clock.ns, seq := w.log.seq, code := 0x0041, kind := 3, inst := 0, a1 := w.meter.calAge, a2 := 0 }]) ∧
     (w.meter.stale = true → Gives .calibrationStale s w) ∧
     (w.clocked = true → w.pt.conf ≠ w.pt.confSeen → w.log.staged.length < 64 →
       ∃ w', Gives .pwrBandConflict s w' ∧ w'.pt = { w.pt with confSeen := w.pt.conf } ∧ w'.log.staged = w.log.staged ++
         [{ ns := w.clock.ns, seq := w.log.seq, code := 0x0022, kind := 3, inst := 0, a1 := 0, a2 := w.pt.conf }]) ∧
     (w.pt.conf = w.pt.confSeen → Gives .pwrBandConflict s w))

/-- The sensors: the hottest and the coldest of 24 readings are taken, and one at 115 °C trips: the engine halts at (OP0, M0) with FAULT_N low,
counted and logged (R271, R272, R275). A trip releases below 95 °C, and the last cause of a halt to release lets the cores resume, with FAULT_N
high again unless the watchdog holds it (R272, R275, R401).

The alerts force the engine to (OP0, M0): PWR_ALERT_N low, which abandons the steps that have not committed, a regulator alert, which
abandons none, and COOL_OK low, which halts it. Each holds until its own release, which leaves an engine that they took down where it stands
(R28, R273 to R276); PWR_ALERT_N low again within its hold abandons the steps again. A regulator at 125 °C alerts, and its alert does not
clear while VIN or a regulator is still a cause (R274). A retraining falls due where Tj has left that of the last one by 8 °C (R169). -/
def Obligations.SensorsAndSafety : Prop :=
  (∀ (s : State) (temps : List Int),
     let w := s.w
     let past := fun (w' : World) => (w'.pins.faultN, w'.pt.halted) = (some (!w.log.wd), false) ∧ w'.train = w.train ∧ (w.Least → w'.Least)
     (w.clocked = true → temps.length = 24 → ∃ w', Gives (.sensorSample temps) s w' ∧ w'.meter.hot ∈ temps ∧ w'.meter.cold ∈ temps ∧
       (∀ x ∈ temps, w'.meter.cold ≤ x ∧ x ≤ w'.meter.hot) ∧ temps[w'.meter.hotIx]? = some w'.meter.hot ∧ w'.meter.highest = max w.meter.highest w'.meter.hot ∧
       w'.mem = { w.mem with chans := w'.mem.chans } ∧ (w'.meter.hot < 115 * 16 → w'.pt = w.pt) ∧
       (∀ i x, (i = 20 ∨ i = 21) → temps[i]? = some x → x ≤ w'.meter.regHot ∧ (125 * 16 ≤ x → w'.pt.regAlert = true)) ∧
       (∀ ch, ch < 16 →
         let c := w.mem.chans.get {} ch
         w'.mem.chans.get {} ch = (match c.trained with
           | none => { c with trained := some w'.meter.hot }
           | some t => { c with dueTrain := c.dueTrain || decide (t + 128 ≤ w'.meter.hot) || decide (w'.meter.hot + 128 ≤ t) })) ∧
       (115 * 16 ≤ w'.meter.hot → w.pt.halted = false → w'.pt.trip = true ∧ (w'.pt.op, w'.pt.mem) = (0, 0) ∧ w'.pins.faultN = some false ∧
         w'.meter.halts = sat32 w.meter.halts 1)) ∧
     (w.pt.trip = true → w.pt.coolStop = false → w.meter.hot < 95 * 16 → ∃ w', Gives .thermalTripRelease s w' ∧ past w') ∧
     (w.pt.coolStop = true → w.pt.trip = false → w.pins.coolOk = true → w.meter.hot < 95 * 16 → ∃ w', Gives .haltRelease s w' ∧ past w') ∧
     (95 * 16 ≤ w.meter.hot → Gives .thermalTripRelease s w ∧ Gives .haltRelease s w)) ∧
  (∀ (s : State), s.w.clocked = true →
     let w := s.w
     let least := fun (w' : World) => (w'.pt.op, w'.pt.mem) = (0, 0)
     (w.pins.pwrAlertN = true → ∃ w', Gives .pwrAlertFall s w' ∧ (w'.pins.pwrAlertN, w'.pt.alert) = (false, true) ∧ (w.pt.alert = false → least w') ∧
       (∀ x t, w.train.steps = [x] → x.committed = false → x.marked = false → w.task? x.task = some t → t.stop = none → w.multi = false →
         (w'.step? x.task).map (fun y => (y.abandon, y.agreed)) = some (some 0x0601, true))) ∧
     Gives .pwrAlertRise s { w with pins := { w.pins with pwrAlertN := true } } ∧
     (w.pins.pwrAlertN = true → w.pt.alert = true → ∃ w', Gives .pwrAlertHoldEnd s w' ∧ w'.pt.alert = false ∧ w'.train = w.train ∧ w'.sched = w.sched ∧
       (w.Least → w'.Least)) ∧
     (w.pins.pwrAlertN = false → Gives .pwrAlertHoldEnd s w) ∧
     (w.pt.regAlert = false → ∃ w', Gives .regulatorAlert s w' ∧ w'.pt.regAlert = true ∧ least w' ∧ w'.train = w.train ∧ w'.sched = w.sched) ∧
     (w.pt.regAlert = true → 2900 ≤ w.meter.vin → w.meter.regHot < 125 * 16 →
       ∃ w', Gives .regulatorAlertClear s w' ∧ w'.pt.regAlert = false ∧ w'.train = w.train ∧ w'.sched = w.sched ∧ (w.Least → w'.Least)) ∧
     (w.meter.vin < 2900 ∨ 125 * 16 ≤ w.meter.regHot → Gives .regulatorAlertClear s w) ∧
     (w.pt.halted = false → (w.pins.pwrAlertN || w.pt.alert) = true → ∃ w', Gives .coolOkFall s w' ∧ (w'.pins.coolOk, w'.pt.coolStop) = (false, true) ∧ least w' ∧
       w'.pins.faultN = some false ∧ w'.meter.halts = sat32 w.meter.halts 1 ∧ w'.sched = w.sched ∧ w'.mem = w.mem) ∧
     Gives .coolOkRise s { w with pins := { w.pins with coolOk := true } })

/-! The dictionary. -/

/-- A READ that passes its checks is answered with the object's value as it stands when the message is taken, whole where it fits into
1,024 bytes, and changes nothing else but the carrier's own state (R292, R293, R295).

A READ that a check refuses is answered with the status of the first check that fails, and no data (R292, R293).

A request of a frame that has to wait stands behind those that wait already, and the seventeenth is answered BUSY (R300); a frame of
another EtherType is ignored (R298). -/
def Obligations.ReadsAnswer : Prop :=
  (∀ (s : State) (r : Req) (index sub : Nat) (o : Option ObjRun), index < 2 ^ 16 → sub < 256 → s.w.carries r kRead = true → s.w.room r = true →
     s.w.objCheck (reqClient r) index sub false true = (0, o) → s.w.selCheck (reqOf r index sub) index sub = 0 →
     ¬(index = 0x1101 ∧ sub = 1) → ¬(index = 0x1300 ∧ sub = 8) →
     let msg := reqMsg s.w r kRead index sub []
     let w := s.w.hears r msg
     let v := w.readObj s.otp s.vault (reqOf r index sub) index sub
     v.length ≤ 1024 →
     ∃ w', Gives (.adpRead (reqCarrier s.w r) msg) s w' ∧ w.AnsweredFrom w' ∧ w'.replied r (reqResp s.w r kRead index sub 0 2 1 v)) ∧
  (∀ (s : State) (r : Req) (index sub status : Nat) (o : Option ObjRun), index < 2 ^ 16 → sub < 256 → s.w.carries r kRead = true → s.w.room r = true →
     s.w.objCheck (reqClient r) index sub false true = (status, o) → 0 < status → status < 2 ^ 16 →
     let msg := reqMsg s.w r kRead index sub []
     ∃ w', Gives (.adpRead (reqCarrier s.w r) msg) s w' ∧ (s.w.hears r msg).AnsweredFrom w' ∧ w'.replied r (reqResp s.w r kRead index sub status 0 0 [])) ∧
  (∀ (s : State) (mac : Nat) (msg : Bytes),
     let w := s.w
     let b := unpad msg
     let m := msgOf b
     let c := Instr.adpRead (.frame w.mac mac etherType true true) msg
     w.t1sOn = true → w.power.st ≠ .doze → w.accepts w.mac m = true → m.src < 32 → m.src ≠ w.live.nodeId → leAt msg 1 1 = kRead →
     (w.stn.waiting < 16 → ∃ w', Gives c s w' ∧ w'.stn.rx = w.stn.rx ++ [.frame mac b []] ∧ w'.stn.txq = w.stn.txq ∧ w'.mem = w.mem) ∧
     (16 ≤ w.stn.waiting → w.stn.txq.length < 16 → ∃ w', Gives c s w' ∧ w'.stn.rx = w.stn.rx ∧ w'.adp.busyCnt = sat32 w.adp.busyCnt 1 ∧
       w'.stn.txq = w.stn.txq ++ [(mac, respond w.live.nodeId m 0x0816 0 0 [])])) ∧
  (∀ (s : State) (dmac smac etype : Nat) (wait : Bool) (msg : Bytes), etype ≠ etherType → s.w.stn.rx = [] → leAt msg 1 1 = kRead →
     Gives (.adpRead (.frame dmac smac etype true wait) msg) s s.w)

/-- A WRITE that every check grants takes effect before its answer, or is answered PENDING first and takes effect then; its answer carries
the status of the effect (R289, R292). -/
def Obligations.WritesAct : Prop :=
  ∀ (s : State) (r : Req) (index sub : Nat) (d : Bytes), index < 2 ^ 16 → sub < 256 → d.length ≤ 1024 → s.w.admits r index sub d = true → s.w.room r = true →
    let msg := reqMsg s.w r kWrite index sub d
    let w := s.w.hears r msg
    let a := State.writeOf { s with w := w } (reqOf r index sub) index sub d
    (a.owed = none → a = { st := (State.writeNow { s with w := w } (reqOf r index sub) index sub d).1
                           status := (State.writeNow { s with w := w } (reqOf r index sub) index sub d).2 } ∧
      ∃ w', exec (.adpWrite (reqCarrier s.w r) msg) s = .next { a.st with w := w' } ∧ a.st.w.AnsweredFrom w' ∧
        w'.replied r (reqResp s.w r kWrite index sub a.status 0 0 [])) ∧
    (∀ x, a.owed = some x → (x.pend, x.index, x.sub, x.value) = (pendOf_ r index sub, index, sub, d) ∧
      ∃ w', exec (.adpWrite (reqCarrier s.w r) msg) s = .next (State.doOwed { s with w := w' } [] x) ∧ w.AnsweredFrom w' ∧
        w'.replied r (reqResp s.w r kWrite index sub 0x0103 0 0 []))

/-- Segments. A READ_SEG is answered with its 1,024 bytes of the snapshot, and the last one ends the transfer (R295, R297). A WRITE_SEG in
order is kept; with the last one the whole value is checked and applied as one write (R296). An ABORT ends the client's transfer; a transfer
that times out is marked so, and its client's next segment is told (R297). A segment or an ABORT whose object fails a check of R292 is
refused with that check's status, and the transfer stays (log entry 88). -/
def Obligations.SegmentedTransfers : Prop :=
  ∀ (s : State) (r : Req) (t : Transfer) (aux : Nat) (d : Bytes), s.w.room r = true → s.w.transfer (reqClient r) = some t → t.index < 2 ^ 16 → t.sub < 256 → aux < 2 ^ 16 → d.length ≤ 1024 →
    let c := reqClient r
    let car := reqCarrier s.w r
    let named := (s.w.objCheck c t.index t.sub t.write false).1
    let live := t.timedOut = false ∧ named = 0
    (live → s.w.carries r kReadSeg = true → t.write = false → aux < segCount t.data →
      let last := decide (aux + 1 = segCount t.data)
      ∃ w', Gives (.readSeg car (reqSeg s.w r kReadSeg t.index t.sub 0 aux [])) s w' ∧ w'.transfer c = (if last then none else some t) ∧
        w'.replied r (reqResp s.w r kReadSeg t.index t.sub 0 (if last then 2 else 0) aux ((t.data.drop (1024 * aux)).take 1024))) ∧
    (s.w.carries r kReadSeg = true → t.write = false → named = 0 → t.timedOut = true →
      ∃ w', Gives (.readSeg car (reqSeg s.w r kReadSeg t.index t.sub 0 aux [])) s w' ∧ w'.transfer c = none ∧
        w'.replied r (reqResp s.w r kReadSeg t.index t.sub 0x0815 0 0 [])) ∧
    (s.w.carries r kReadSeg = true → t.write = false → 0 < named → named < 2 ^ 16 →
      ∃ w', Gives (.readSeg car (reqSeg s.w r kReadSeg t.index t.sub 0 aux [])) s w' ∧ w'.transfer c = some t ∧
        w'.replied r (reqResp s.w r kReadSeg t.index t.sub named 0 0 [])) ∧
    (live → s.w.carries r kWriteSeg = true → t.write = true → aux = t.next → d.length = 1024 →
      ∃ w', Gives (.writeSeg car (reqSeg s.w r kWriteSeg t.index t.sub 0 aux d)) s w' ∧
        w'.transfer c = some { t with data := t.data ++ d, next := t.next + 1 } ∧ w'.replied r (reqResp s.w r kWriteSeg t.index t.sub 0 0 aux [])) ∧
    (live → s.w.carries r kWriteSeg = true → t.write = true → aux = t.next →
      let msg := reqSeg s.w r kWriteSeg t.index t.sub 2 aux d
      let w := (s.w.hears r msg).endTransfer c
      let a := State.writeOf { s with w := w } { reqOf r t.index t.sub with sel := t.sel } t.index t.sub (t.data ++ d)
      a.owed = none → a.status < 2 ^ 16 → ∃ w', exec (.writeSeg car msg) s = .next { a.st with w := w' } ∧ a.st.w.AnsweredFrom w' ∧
        w'.replied r (reqResp s.w r kWriteSeg t.index t.sub a.status 2 aux a.data)) ∧
    (∀ index sub, index < 2 ^ 16 → sub < 256 → s.w.carries r kAbort = true →
      (index = 0 ∧ sub = 0) ∨ (s.w.objCheck c index sub true false).1 = 0 →
      ∃ w', Gives (.adpAbort car (reqSeg s.w r kAbort index sub 0 0 [])) s w' ∧ w'.transfer c = none ∧ w'.replied r (reqResp s.w r kAbort index sub 0 0 0 [])) ∧
    (∃ w', Gives (.segmentTimeout c) s w' ∧ w'.transfer c = some { t with timedOut := true, data := [] } ∧
      w' = { s.w with stn := { s.w.stn with transfers := w'.stn.transfers } })

/-- DISCOVER is answered with the engine's identity, on either carrier, with no regard to levels (R294). GO submits the window's message, and
one more while BUSY sets OVERRUN; a narrow write, another value, or one that no register takes is ignored, and a narrow read or one of a
reserved range gives 0 (R303, R304). NOTIFY_ACK ends the resending of its notification and is not answered (R307).

Notifications and the segment. A watched object whose value is not the one last notified is notified, here in the ring of the window
(R305, R306). A notification that is not acknowledged is sent again three times and then dropped and counted (R307). Frames are sent one at
each transmit opportunity, the oldest first, while beacons come (R299). -/
def Obligations.DiscoverAndNotify : Prop :=
  (∀ (s : State) (r : Req),
     let hello := reqSeg s.w r kDiscover 0 0 0 0 []
     let answer := reqResp s.w r kDiscover 0 0 0 0 0 s.identity
     (s.w.carries r kDiscover = true → s.w.room r = true →
       ∃ w', Gives (.discover (reqCarrier s.w r) hello) s w' ∧ w'.replied r answer ∧ (s.w.hears r hello).AnsweredFrom w') ∧
     (s.w.carries r kDiscover = true → r.src = .window →
       ∃ w', Gives (.windowGo hello { n := 4, v := 1, wait := false }) s w' ∧ w'.replied r answer ∧ w'.stn.overrun = s.w.stn.overrun) ∧
     (∀ n mac seq, r.src = .node n mac → seq < 2 ^ 16 → s.w.carries r kAck = true →
       ∃ w', Gives (.notifyAck (reqCarrier s.w r) (reqSeg s.w r kAck 0 0 0 seq [])) s w' ∧
         w'.stn.unacked = s.w.stn.unacked.filter (fun u => !(u.seq == seq && u.mac == mac)) ∧ w'.stn.txq = s.w.stn.txq) ∧
     (s.w.hostUp = true →
       let go := fun (n v : Nat) => Instr.windowGo [] { n := n, v := v, wait := true }
       (s.w.stn.busy = false → Gives (go 4 1) s { s.w with stn := { s.w.stn with busy := true, rx := s.w.stn.rx ++ [.window (bufferMsg s.w.stn.reqBuf) [] false] } }) ∧
       (s.w.stn.busy = true → Gives (go 4 1) s { s.w with stn := { s.w.stn with overrun := true } }) ∧
       (∀ n v, v < 2 ^ 32 → n ≠ 4 ∨ v ≠ 1 → Gives (go n v) s s.w) ∧
       (∀ v, v < 2 ^ 32 → Gives (.windowStatusClear ⟨4, v⟩) s
         { s.w with stn := { s.w.stn with done := s.w.stn.done && !bitAt v 1, overrun := s.w.stn.overrun && !bitAt v 2 } }) ∧
       (∀ v, v < 256 → Gives (.notificationRingTailWrite ⟨4, v⟩) s { s.w with stn := { s.w.stn with tail := v } }) ∧
       (∀ n v, v < 2 ^ 32 → n ≠ 4 → Gives (.windowStatusClear ⟨n, v⟩) s s.w ∧ Gives (.notificationRingTailWrite ⟨n, v⟩) s s.w) ∧
       (∀ v, v < 2 ^ 32 → 256 ≤ v → Gives (.notificationRingTailWrite ⟨4, v⟩) s s.w)) ∧
     (s.w.hostUp = false → ∀ msg n v wait, Gives (.windowGo msg { n := n, v := v, wait := wait }) s s.w ∧ Gives (.windowStatusClear ⟨n, v⟩) s s.w ∧ Gives (.notificationRingTailWrite ⟨n, v⟩) s s.w)) ∧
  (∀ (w : World) (off n : Nat),
     (0x1000 ≤ off → off + n ≤ 0x1410 → w.dictRead off n = some (slice w.stn.respBuf (off - 0x1000) n)) ∧
     w.dictRead 0xF004 4 = some (leBytes 4 w.stn.status) ∧ w.dictRead 0xF008 4 = some (leBytes 4 w.stn.head) ∧
     (0x6000 ≤ off → n ≠ 4 → w.dictRead off n = some (zeros n))) ∧
  (∀ (s : State),
     let w := s.w
     (∀ index sub, w.clocked = true → w.adp.noteCar = 2 → w.adp.watch = (2 ^ 16 * index + 2 ^ 8 * sub) :: List.replicate 15 0 → index < 2 ^ 16 → 0 < index → sub < 256 →
       w.watchable index sub = true → w.adp.told.length = 16 → (w.stn.head + 1) % 256 ≠ w.stn.tail →
       let d := w.readObj s.otp s.vault { client := 254 } index sub
       (w.adp.told.getD 0 [] = d → Gives .watchCompare s w) ∧
       (w.adp.told.getD 0 [] ≠ d → ∃ w', Gives .watchCompare s w' ∧ w'.adp.told = setAt w.adp.told 0 d ∧ w'.stn.head = (w.stn.head + 1) % 256 ∧
         w'.stn.ring.get [] w.stn.head = adpMsg 0x10 0xFE 0xFE 0 index sub 0 w.stn.seqP 0 ([1#8, 0#8, 0#8, 0#8] ++ leBytes 2 index ++ [byteOf sub, 0#8] ++ slice d 0 8))) ∧
     (∀ u, w.clocked = true → w.stn.unacked.find? (fun x => x.seq == u.seq) = some u →
       (u.resends < 3 → w.stn.txq.length < 16 → ∃ w', Gives (.notifyResend u.seq) s w' ∧ w'.stn.txq = w.stn.txq ++ [(u.mac, u.msg)] ∧
         w'.adp.resends = sat32 w.adp.resends 1 ∧ w'.stn.unacked.find? (fun x => x.seq == u.seq) = some { u with resends := u.resends + 1 }) ∧
       (3 ≤ u.resends → ∃ w', Gives (.notifyResend u.seq) s w' ∧ w'.stn.txq = w.stn.txq ∧ w'.stn.unacked = w.stn.unacked.filter (fun x => decide (x.seq ≠ u.seq)) ∧
         w'.adp.unackDrops = sat32 w.adp.unackDrops 1)) ∧
     (w.clocked = true → w.t1sOn = true →
       Gives .plcaBeacon s { w with adp := { w.adp with beaconOk := true }, out := if w.live.nodeId = 0 then w.out ++ [.beacon] else w.out } ∧
       (∀ e r, w.adp.beaconOk = true → w.stn.txq = e :: r → Gives .transmitOpportunity s { w with stn := { w.stn with txq := r }, out := w.out ++ [.frame (etherFrame e.1 w.mac e.2)] }) ∧
       (w.adp.beaconOk = false ∨ w.stn.txq = [] → Gives .transmitOpportunity s w)) ∧
     Gives .beaconLoss s { w with adp := { w.adp with beaconOk := false } })

/-- Levels. A challenge is drawn afresh and answered, unless its client is locked out or the entropy source has failed (R310, R312, R375). The
right response opens the level it names; a wrong one is counted, spends the challenge, and from the third in a row locks the client out, for
1 s doubling to 64 s (R310, R312). Levels close on request, when they idle, and challenges and lockouts run out (R311).

Debug. Its challenge is drawn as a level's is; with nothing held here the right response unlocks the chain and a wrong one is counted, and
the chain locks again on request, both logged (R390, R391, R393). -/
def Obligations.LevelsAndDebug : Prop :=
  (∀ (s : State) (r : Req), s.w.room r = true →
     let w := s.w
     let id := reqClient r
     let c := w.client id
     (w.carries r kRead = true →
       (c.locked = 0 → w.sec.entropyBad = false → ∃ w', Gives (.levelChallenge r) s w' ∧ (w'.client id).chal = some (Config.entropy w.sec.drawn % 2 ^ 128) ∧
         w'.sec.drawn = w.sec.drawn + 1 ∧ w'.replied r (reqResp w r kRead 0x1101 1 0 2 1 (leBytes 16 (Config.entropy w.sec.drawn % 2 ^ 128)))) ∧
       (c.locked ≠ 0 → ∃ w', Gives (.levelChallenge r) s w' ∧ w'.client id = c ∧ w'.replied r (reqResp w r kRead 0x1101 1 0x0704 0 0 [])) ∧
       (c.locked = 0 → w.sec.entropyBad = true → ∃ w', Gives (.levelChallenge r) s w' ∧ w'.client id = c ∧ w'.replied r (reqResp w r kRead 0x1101 1 0x070E 0 0 []))) ∧
     (∀ d, w.admits r 0x1101 2 d = true → w.live.hasRec = true → (leAt d 0 1 = 2 → bitAt s.otp.secBits 2 = false ∧ w.stn.clients.all (fun x => x.id == id || x.level != 2) = true) →
       let lvl := leAt d 0 1
       let right := fun (ch : Nat) => hmac (if lvl = 1 then w.integratorKey else w.factoryPassword)
         (leBytes 16 ch ++ [byteOf lvl, clientByte id] ++ slice w.live.factory 0 8) = slice d 1 32
       (∀ ch, c.chal = some ch → right ch → w.keepsLevel id = true → ∃ w', Gives (.levelResponse r d) s w' ∧ (w'.client id).level = lvl ∧
         ((w'.client id).chal, (w'.client id).wrong, (w'.client id).locked) = (none, 0, 0) ∧ w'.replied r (reqResp w r kWrite 0x1101 2 0 0 0 [])) ∧
       ((∀ ch, c.chal = some ch → ¬right ch) → ∃ w', Gives (.levelResponse r d) s w' ∧ (w'.client id).level = c.level ∧ (w'.client id).chal = none ∧
         (w'.client id).wrong = c.wrong + 1 ∧ (2 ≤ c.wrong → (w'.client id).locked = w.clock.ns + min 64 (2 ^ (c.wrong - 2)) * 1000000000) ∧
         w'.adp.wrong = sat32 w.adp.wrong 1 ∧ w'.replied r (reqResp w r kWrite 0x1101 2 0x0703 0 0 []))) ∧
     (∀ v, w.admits r 0x1101 4 (leBytes 1 v) = true → ∃ w', Gives (.closeLevel r v) s w' ∧ (w'.client id).level = 0 ∧ w'.mem = w.mem) ∧
     (w.adp.idleS ≠ 0 → ∃ w', Gives (.levelIdleTimeout id) s w' ∧ w'.client id = { c with level := 0 }) ∧
     (w.adp.idleS = 0 → Gives (.levelIdleTimeout id) s w) ∧
     (∀ debug, (∃ w', Gives (.challengeExpiry id debug) s w' ∧ w'.client id = (if debug then { c with dchal := none } else { c with chal := none })) ∧
       (∃ w', Gives (.lockoutExpiry id debug) s w' ∧ w'.client id = (if debug then { c with dlocked := 0 } else { c with locked := 0 })))) ∧
  (∀ (s : State) (r : Req), s.w.room r = true → s.w.log.staged.length < 63 →
     let w := s.w
     let id := reqClient r
     let c := w.client id
     (w.carries r kRead = true → w.objCheck id 0x1300 8 false true = (0, some (ro 8 1 16)) → c.dlocked = 0 → w.sec.entropyBad = false →
       ∃ w', Gives (.debugChallenge r) s w' ∧ (w'.client id).dchal = some (Config.entropy w.sec.drawn % 2 ^ 128) ∧ w'.sec.drawn = w.sec.drawn + 1) ∧
     (∀ d, w.admits r 0x1300 9 d = true → bitAt s.otp.secBits 1 = false → (leAt d 0 1 = 2 → bitAt s.otp.secBits 2 = false) → s.vault.held = [] →
       w.sec.session = false → w.link.jobState = 0 →
       (∀ ch, c.dchal = some ch → w.debugRight (leAt d 0 1) ch (slice d 1 32) = true → ∃ w', Gives (.debugResponse r d) s w' ∧ w'.sec.unlocked = true ∧
         ((w'.client id).dchal, (w'.client id).dwrong) = (none, 0) ∧ (w'.log.staged.getLast?).map (fun e => (e.code, e.kind, e.inst, e.a1)) = some (0x0030, 7, id, leAt d 0 1)) ∧
       ((∀ ch, c.dchal = some ch → w.debugRight (leAt d 0 1) ch (slice d 1 32) = false) → ∃ w', Gives (.debugResponse r d) s w' ∧ w'.sec.unlocked = w.sec.unlocked ∧
         ((w'.client id).dchal, (w'.client id).dwrong) = (none, c.dwrong + 1))) ∧
     (∀ v, w.admits r 0x1300 11 (leBytes 1 v) = true → s.vault.held = [] → w.sec.session = false → w.sec.unlocked = true →
       ∃ w', Gives (.relockDebug r v) s w' ∧ w'.sec.unlocked = false ∧ (w'.log.staged.getLast?).map (fun e => (e.code, e.kind, e.inst)) = some (0x0031, 7, id)))

/-- A write of 0 to 0x2000:01 returns from Idle to Active, or abandons a power-down that a request for Doze started, up to D2; 1 starts the entry
to Idle; and 2 starts the power-down to Doze (R236, R237, R247, R252).

Queue control: 1 enables a queue that may be enabled, at its start sequence with nothing fetched; 0 disables it, and its tasks go on; 2 resets
it once its tasks, which are cancelled, have ended (R321, R328).

A TDM port that may run is enabled; a stream context that may be open is opened at its start, and closed; and a semaphore's value is
written (R139, R332, R335).

Starting a job: an engine alone runs its job at once as logical engine 0, in epoch 1; one of several, where class, firmware and
configuration agree, first trains its ports, and one whose class is not valid is refused with 0x0206 (R12, R210). Stopping it cancels its tasks and leaves the engine in no job (R248). -/
def Obligations.PowerHostAndJobRequests : Prop :=
  (∀ (s : State) (r : Req), s.w.pins.wake = true →
     let w := s.w
     let p := w.power
     let asks := fun (v : Nat) => w.admits r 0x2000 1 (leBytes 1 v) = true
     (asks 0 → p.st = .idle → ∃ w', Gives (.requestActive r) s w' ∧ (w'.power.st, w'.power.req) = (.active, 0) ∧ w'.mem = w.mem) ∧
     (asks 0 → p.st = .active → ∃ w', Gives (.requestActive r) s w' ∧ (w'.power.st, w'.power.req, w'.power.entering) = (.active, 0, false) ∧ w'.sched = w.sched) ∧
     (asks 0 → p.st = .down → p.byReq = true → p.dstep ≤ 2 → ∃ w', Gives (.requestActive r) s w' ∧ (w'.power.st, w'.power.req, w'.power.dstep) = (.active, 0, 0) ∧
       w'.power.aborted = sat32 p.aborted 1) ∧
     (asks 1 → p.st = .active → ∃ w', Gives (.requestIdle r) s w' ∧ (w'.power.st, w'.power.req, w'.power.entering) = (.active, 1, true) ∧ w'.sched = w.sched) ∧
     (asks 2 → p.st = .active ∨ p.st = .idle → ∃ w', Gives (.requestDoze r) s w' ∧
       (w'.power.st, w'.power.req, w'.power.dstep, w'.power.toDoze, w'.power.byReq) = (.down, 2, 1, true, true) ∧ w'.sched = w.sched ∧ w'.mem = w.mem)) ∧
  (∀ (s : State) (r : Req) (q : Nat), q < 64 →
     let w := s.w
     let asks := fun (v : Nat) => w.admits r (0x3040 + q) 1 (leBytes 1 v) = true
     (asks 1 → (w.queue q).resetting = false → (w.queue q).enabled = false → (w.queue q).canStart = true →
       ∃ w', Gives (.queueEnable r q) s w' ∧ w'.queue q = (w.queue q).start ∧ w'.sched = w.sched ∧ (∀ n, n ≠ q → w'.queue n = w.queue n)) ∧
     (asks 0 → ∃ w', Gives (.queueDisable r q) s w' ∧ w'.queue q = { w.queue q with enabled := false, st := 0, cancel := none } ∧ w'.sched = w.sched ∧
       (∀ n, n ≠ q → w'.queue n = w.queue n)) ∧
     (asks 2 → w.sched.tasks.any (fun t => t.id.queue == q) = false → ∃ w', Gives (.queueReset r q) s w' ∧
       ((w'.queue q).enabled, (w'.queue q).st, (w'.queue q).resetting) = (false, 0, false) ∧ w'.sched = w.sched) ∧
     (asks 2 → w.sched.tasks.any (fun t => t.id.queue == q) = true → ∃ w', Gives (.queueReset r q) s w' ∧ (w'.queue q).resetting = true ∧
       (∀ t ∈ w'.sched.tasks, t.id.queue = q → t.stop.isSome = true) ∧ w'.sched.tasks.map (·.id) = w.sched.tasks.map (·.id))) ∧
  (∀ (s : State) (r : Req),
     let w := s.w
     (∀ p, p < 2 → w.admits r (0x3180 + p) 1 (leBytes 1 1) = true → (w.tdm p).en = false → (w.tdm p).ok = true →
       ∃ w', Gives (.tdmPortEnable r p) s w' ∧ w'.tdm p = { w.tdm p with en := true, st := if (w.tdm p).role = 1 then 2 else 1, good := 0, enAt := w.clock.ns } ∧
         w'.host.ctxs = w.host.ctxs) ∧
     (∀ c, c < 128 → w.admits r (0x3100 + c) 1 (leBytes 1 1) = true → (w.ctx c).isOpen = false → w.openStatus s.vault c (w.ctx c) = 0 →
       ∃ w', Gives (.contextOpen r c) s w' ∧ ((w'.ctx c).isOpen, (w'.ctx c).next, (w'.ctx c).untaken, (w'.ctx c).t0) = (true, 0, 0, w.ctxStart (w.ctx c)) ∧
         w'.host.tdms = w.host.tdms ∧ (∀ n, n ≠ c → w'.ctx n = w.ctx n)) ∧
     (∀ c, c < 128 → w.admits r (0x3100 + c) 1 (leBytes 1 0) = true → ∃ w', Gives (.contextClose r c) s w' ∧
       w'.ctx c = { w.ctx c with isOpen := false, capture := false } ∧ (∀ n, n ≠ c → w'.ctx n = w.ctx n)) ∧
     (∀ v, v < 2 ^ 16 → w.admits r 0x3230 2 (leBytes 2 v) = true →
       let n := w.selOf (reqOf r 0x3230 2) 0x3230
       ∃ w', Gives (.semValueWrite r v) s w' ∧ w'.sem (bitAt n 8) (n % 256) = { w.sem (bitAt n 8) (n % 256) with value := v } ∧ w'.sched.tasks = w.sched.tasks)) ∧
  (∀ (s : State) (r : Req),
     let w := s.w
     let p := pendOf_ r 0x3600 6
     (∀ peers, w.admits r 0x3600 6 (leBytes 1 1) = true → w.link.jobState = 0 ∨ w.link.jobState = 5 → w.jobConfigOk peers = true → w.live.cls ≠ 0xFF →
       peers.all (fun q => q.stepping == w.stepping && q.fwHigh == w.sec.fw / 2 ^ 16 && q.cls != 0xFF) = true → w.jobPorts ≠ [] → w.link.ports.length = 4 →
       ∃ w', Gives (.jobStart r peers) s w' ∧ (w'.link.jobState, w'.link.logical, w'.job.startReq) = (1, 0xFF, some p) ∧
         (∀ k ∈ w.jobPorts, ((w'.port k).st, (w'.port k).stage, (w'.port k).attempt, (w'.port k).txSeq, (w'.port k).rxSeq) = (1, 1, 1, 0, 0))) ∧
     (w.admits r 0x3600 6 (leBytes 1 1) = true → w.link.jobState = 0 ∨ w.link.jobState = 5 → w.jobConfigOk [] = true → w.link.jobSize = 1 →
       w.live.cls ≠ 1 → w.live.cls ≠ 2 → w.live.cls ≠ 0xFF → ∃ w', Gives (.jobStart r []) s w' ∧ (w'.link.jobState, w'.link.status, w'.link.logical, w'.link.epoch) = (2, 0, 0, 1) ∧
         w'.link.map = [(0, w.node)] ∧ w'.job.salt = Config.entropy w.sec.drawn % 2 ^ 128) ∧
     (∀ peers, w.admits r 0x3600 6 (leBytes 1 1) = true → w.link.jobState = 0 ∨ w.link.jobState = 5 → w.live.cls = 0xFF →
       peers.all (fun q => q.stepping == w.stepping && q.fwHigh == w.sec.fw / 2 ^ 16) = true →
       ∃ w', Gives (.jobStart r peers) s w' ∧ w'.link = { w.link with status := 0x0206 }) ∧
     (w.admits r 0x3600 6 (leBytes 1 2) = true → ∃ w', Gives (.jobStop r) s w' ∧ (w'.link.jobState, w'.link.logical, w'.link.map) = (0, 0xFF, []) ∧
       (w.multi = true → w.link.jobState ≠ 1 → ∀ t ∈ w'.sched.tasks, t.job = true → t.stop = some 0x020C)))

/-- OTP requests: where VIN and the temperatures allow it, a staged record, a key hash for a slot that holds none, the revocation of a slot beside
which another is usable, the retirement of the factory level and the disabling of debug are each queued to be programmed word by word (R368,
R371, R374, R394). A firmware load copies the image, and until it has verified no firmware version is shown (R14, R373).

A session opens with the tenants that its basis and its arming bits give, or with none, and closes with its manifest; each begins by
advancing the session counter (R385, R387). A close writes the blob of each armed tenant first (R387). -/
def Obligations.ProgrammingAndSessionRequests : Prop :=
  (∀ (s : State) (r : Req),
     let w := s.w
     let queues := fun (c : Instr) (sub : Nat) (index : Nat) (j : OtpJob) =>
       ∃ w', Gives c s w' ∧ w'.sec.otpJobs = w.sec.otpJobs ++ [(j, some (pendOf_ r index sub))] ∧ w'.mem = w.mem ∧ w'.sched = w.sched
     (w.otpConditions = true →
       (∀ b g, w.admits r 0x1200 5 (leBytes 1 1) = true → w.sec.staged = some b → s.nextGen = some g → queues (.programStagedRecord r) 5 0x1200 (.record g (recordOf b) 0)) ∧
       (w.admits r 0x1200 9 (leBytes 1 1) = true → queues (.retireFactoryLevel r) 9 0x1200 (.security 4)) ∧
       (∀ slot hash, w.admits r 0x1300 4 (leBytes 1 slot ++ zeros 3 ++ hash) = true → slot < 4 → s.slotUsed slot = false →
         queues (.programKeySlot r slot hash) 4 0x1300 (.hash slot (slice hash 0 32) 0)) ∧
       (∀ slot other, w.admits r 0x1300 5 (leBytes 1 slot) = true → slot < 4 → other < 4 → other ≠ slot → usableSlot s.marksDue other = true →
         queues (.revokeKeySlot r slot) 5 0x1300 (.mark (2 ^ (slot + 4)))) ∧
       (w.admits r 0x1300 12 (leBytes 1 1) = true → queues (.disableDebug r) 12 0x1300 (.security 2))) ∧
     (∀ addr len, addr < 2 ^ 64 → len < 2 ^ 32 → w.admits r 0x1300 1 (leBytes 8 addr ++ leBytes 4 len ++ zeros 4) = true → w.sec.loading = none →
       w.sec.fw = 0 ∨ (w.power.st = .idle ∧ w.sched.tasks = [] ∧ w.link.jobState = 0) →
       ∃ w', Gives (.firmwareLoad r addr len) s w' ∧ w'.sec.loading = some (w.load addr len, pendOf_ r 0x1300 1) ∧ (w'.sec.fw, w'.sec.fwPrev) = (0, w.sec.fw))) ∧
  (∀ (s : State) (r : Req) (d : Bytes), s.w.admits r 0x3700 4 d = true → s.w.sec.req = none → s.otp.session < 12288 → s.w.otpConditions = true →
     let w := s.w
     let p := pendOf_ r 0x3700 4
     let out := leAt d 24 8
     let room := leAt d 4 4
     let a := leAt d 8 8
     let advances := fun (w' : World) => w'.sec.otpJobs = w.sec.otpJobs ++ [(.session s.otp.session, some p)]
     (∀ es, leAt d 0 1 = 1 → w.sec.session = false → (a = 0 → es = []) → (a ≠ 0 → w.basis s.otp.session a = some es) → 64 + 48 * es.length ≤ room →
       ∃ w', Gives (.sessionOpen r d) s w' ∧ advances w' ∧ w'.mem = w.mem ∧ w'.sec.req = some ({
         op := 1
         outLen := room
         out := out
         entries := es.map (fun (e : ManEntry) => { e with armed := bitAt (leAt (w.load (leAt d 16 8) 512) (e.id / 8) 1) (e.id % 8) }) }, p)) ∧
     (leAt d 0 1 = 2 → w.sec.session = true → s.vault.held = [] → 64 + 48 * w.sec.entries.length ≤ room →
       ∃ w', Gives (.sessionClose r d) s w' ∧ advances w' ∧ SameMemory w w' ∧ w'.sec.req = some ({
         op := 2
         outLen := 64 + 48 * w.sec.entries.length
         out := out
         entries := w.sec.entries.map (fun (e : ManEntry) => { e with armed := false, done := false }) }, p)) ∧
     (∀ id t, leAt d 0 1 = 2 → w.sec.session = true → s.vault.held = [(id, t)] → t.st = 2 → w.tenantBusy id = false → w.sec.entries = [] →
       128 + t.blobLen ≤ room → ∃ w', Gives (.sessionClose r d) s w' ∧ advances w' ∧ Wrote w w' (out + 128) (w.blob id t (s.otp.session + 1))))

/-- Tenants. In a session a creation record makes an absent tenant: armed, its areas sealed, and zeroed but for generation 0 (R382). An import makes
the tenant of a blob that the session's manifest lists and the export key opens, on areas of its own (R386). A retirement zeroes and unseals
the areas of a tenant that no task and no context names, and it is absent (R384). The final status follows (R289). -/
def Obligations.TenantRequests : Prop :=
  ∀ (s : State) (r : Req) (d : Bytes),
    let w := s.w
    let inAny := fun (as_ : List (Nat × Nat)) (x : Nat) => as_.any (fun a => decide (a.1 ≤ x) && decide (x < a.1 + a.2))
    let granules := fun (t : Tenant) => t.areas.flatMap (fun a => granulesOf a.1 a.2)
    let others := fun (id : Nat) (t' : State) => ∀ n, n ≠ id → t'.vault.tenant n = s.vault.tenant n
    (w.admits r 0x3702 1 d = true → w.sec.session = true → (s.vault.tenant (leAt d 0 2)).st = 0 →
      let id := leAt d 0 2
      let t := tenantOfRecord d
      ∃ t', exec (.createTenant r d) s = .next t' ∧ t'.vault.tenant id = t ∧ others id t' ∧ t'.otp = s.otp ∧
        (∀ g ∈ granules t, t'.w.mem.seals.get 0 g = id + 1) ∧ (∀ g, g ∉ granules t → t'.w.mem.seals.get 0 g = w.mem.seals.get 0 g) ∧
        (∀ x, t'.w.mem.mem.get 0 x = if inAny ((t.genBase 1, alignUp t.genLen 4096) :: t.areas.drop 1) x then 0 else w.mem.mem.get 0 x) ∧
        t'.w.sec.tenReqs = w.sec.tenReqs ++ [(0, pendOf_ r 0x3702 1)]) ∧
    (∀ e pt, w.admits r 0x3702 2 d = true → leAt d 0 1 = 1 → w.sec.session = true → w.sec.entries.find? (fun e => e.id == leAt d 2 2) = some e → e.done = false →
      (s.vault.tenant (leAt d 2 2)).st = 0 → w.openBlob e (leAt d 8 8) = some pt →
      let id := leAt d 2 2
      let t := tenantOfBlob pt e.armed (fun i => leAt d (16 + 8 * i) 8)
      pt.length = 96 + t.genLen → w.areasOk t = true →
      ∃ t', exec (.tenantImport r d) s = .next t' ∧ t'.vault.tenant id = t ∧ others id t' ∧ t'.w.mem.mem.getRun 0 (t.genBase 0) t.genLen = slice pt 96 t.genLen ∧
        (∀ g ∈ granules t, t'.w.mem.seals.get 0 g = id + 1) ∧ (∀ x ∈ t'.w.sec.entries, x.id = id → x.done = true) ∧
        t'.w.sec.tenReqs = w.sec.tenReqs ++ [(0, pendOf_ r 0x3702 2)]) ∧
    (w.admits r 0x3702 2 d = true → leAt d 0 1 = 2 → (s.vault.tenant (leAt d 2 2)).st ≠ 0 → w.tenantBusy (leAt d 2 2) = false →
      let id := leAt d 2 2
      let t := s.vault.tenant id
      ∃ t', exec (.tenantRetire r d) s = .next t' ∧ t'.vault.tenant id = {} ∧ others id t' ∧ (∀ g ∈ granules t, t'.w.mem.seals.get 0 g = 0) ∧
        (∀ x, t'.w.mem.mem.get 0 x = if inAny t.areas x then 0 else w.mem.mem.get 0 x) ∧ t'.w.sec.tenReqs = w.sec.tenReqs ++ [(0, pendOf_ r 0x3702 2)]) ∧
    (∀ status p rest, w.sec.tenReqs = (status, p) :: rest → ∃ w', Gives .tenantCommandDone s w' ∧ (w'.sec.tenReqs, w'.sec.tenStatus) = (rest, status)) ∧
    (w.sec.tenReqs = [] → Gives .tenantCommandDone s w)

/-! OTP, firmware, faults and the test access port. -/

/-- 0x1000:04 reads 0 while a firmware load lasts, and otherwise one whole version: a step leaves it as it was, makes it 0, gives back the one
before the load, or makes it the version of the image that has verified. That it reads 0 during a load is kept by every step (R14). -/
def Obligations.FirmwareVersionIsWhole : Prop :=
  (∀ (w : World) (o : Otp) (v : Vault) (rq : Rq), w.readObj o v rq 0x1000 4 = leBytes 4 w.sec.fw) ∧
  ∀ s t : State, step s = .next t → (s.w.sec.loading.isSome = true → s.w.sec.fw = 0) →
    (t.w.sec.loading.isSome = true → t.w.sec.fw = 0) ∧
    (t.w.sec.fw = s.w.sec.fw ∨ t.w.sec.fw = 0 ∨
      ∃ img p, s.w.sec.loading = some (img, p) ∧ s.pending.head? = some .firmwareLoadDone ∧ t.w.sec.loading = none ∧
        ((s.otp.verify img = 0 ∧ t.w.sec.fw = leAt img 4 4) ∨ (s.otp.verify img ≠ 0 ∧ t.w.sec.fw = s.w.sec.fwPrev)))

/-- Programming: the request at the front takes one word, whose ones are added to what OTP holds, and goes on with the next; a mark, a
security bit and the advance of the session counter end with one word. A word that does not verify has added some of its ones, and is
counted; the session counter then tries its next bit (R368).

An image that verifies becomes the firmware, and FAULT_N that the watchdog held goes high unless the engine is halted; any other leaves the
firmware that ran before (R14, R373, R401). A failed health test of the entropy source holds until it passes (R375).

An image verifies only under a key slot that is valid and not revoked and whose hash is its key's, with the magic number, the length and the
reserved bytes it should have (R373); a slot that is not usable gives KEY_REVOKED. -/
def Obligations.OtpAndFirmware : Prop :=
  (∀ (s : State) (p : Option Pend) (rest : List (OtpJob × Option Pend)),
     let jobs := s.w.sec.otpJobs
     (∀ g d k, jobs = (.record g d k, p) :: rest → g < s.otp.records.length → k < 31 →
       ∃ t, exec (.otpWordProgrammed true) s = .next t ∧ t.otp = { s.otp with records := modAt s.otp.records g (fun b => orWord b k (leAt d (4 * k) 4)) } ∧
         t.w.sec.otpJobs = (.record g d (k + 1), p) :: rest ∧ t.vault = s.vault ∧ t.w.mem = s.w.mem) ∧
     (∀ g d k, jobs = (.record g d k, p) :: rest → g < s.otp.records.length → k < 31 →
       ∃ t v, exec (.otpWordProgrammed false) s = .next t ∧ t.otp = { s.otp with records := modAt s.otp.records g (fun b => orWord b k (Nat.land (leAt d (4 * k) 4) v)) } ∧
         t.w.sec.otpJobs = (.record g d (k + 1), p) :: rest ∧ t.w.sec.verFail = sat32 s.w.sec.verFail 1) ∧
     (∀ h d k, jobs = (.hash h d k, p) :: rest → k < 7 → ∃ t, exec (.otpWordProgrammed true) s = .next t ∧
       t.otp = { s.otp with hashes := modAt s.otp.hashes h (fun b => orWord b k (leAt d (4 * k) 4)) } ∧ t.w.sec.otpJobs = (.hash h d (k + 1), p) :: rest) ∧
     (∀ b, jobs = (.mark b, p) :: rest → ∃ t, exec (.otpWordProgrammed true) s = .next t ∧ t.otp = { s.otp with marks := Nat.lor s.otp.marks (physicalBits 8 b) } ∧
       t.w.sec.otpJobs = rest) ∧
     (∀ b, jobs = (.security b, p) :: rest → ∃ t, exec (.otpWordProgrammed true) s = .next t ∧ t.otp = { s.otp with sec := Nat.lor s.otp.sec (physicalBits 3 b) } ∧
       t.w.sec.otpJobs = rest) ∧
     (∀ i, jobs = (.session i, p) :: rest → s.w.sec.req = none → ∃ t, exec (.otpWordProgrammed true) s = .next t ∧ i + 1 ≤ t.otp.session ∧
       (t.w.sec.session, t.w.sec.entries) = (true, []) ∧ t.w.sec.otpJobs = rest) ∧
     (∀ i, jobs = (.session i, p) :: rest → i + 1 < 12288 → ∃ w', Gives (.otpWordProgrammed false) s w' ∧ w'.sec.otpJobs = (.session (i + 1), p) :: rest) ∧
     (jobs = [] → ∀ ok, Gives (.otpWordProgrammed ok) s s.w)) ∧
  (∀ (s : State) (img : Bytes) (p : Pend),
     let w := s.w
     (w.host.waits = [] → w.sec.loading = some (img, p) → s.otp.verify img = 0 → ∃ w', Gives .firmwareLoadDone s w' ∧
       (w'.sec.fw, w'.sec.fwSlot, w'.sec.fwStatus) = (leAt img 4 4, leAt img 12 1, 0) ∧ w'.sec.loading = none ∧ w'.log.wd = false ∧
       (w.log.wd = true → w'.pins.faultN = some (!w.pt.halted)) ∧ w'.mem = w.mem) ∧
     (w.host.waits = [] → w.sec.loading = some (img, p) → s.otp.verify img ≠ 0 → ∃ w', Gives .firmwareLoadDone s w' ∧
       (w'.sec.fw, w'.sec.fwSlot, w'.sec.fwStatus) = (w.sec.fwPrev, w.sec.fwSlot, s.otp.verify img) ∧ w'.sec.loading = none ∧ w'.pins = w.pins) ∧
     (w.sec.loading = none → Gives .firmwareLoadDone s w) ∧
     (∀ b, w.clocked = true → Gives (.entropyHealthTestFail b) s { w with sec := { w.sec with entropyBad := b } })) ∧
  (∀ (o : Otp) (img : Bytes),
     (o.verify img = 0 → leAt img 0 4 = 0x4D574659 ∧ img.length = 160 + leAt img 8 4 ∧ leAt img 12 1 < 4 ∧ usableSlot o.markBits (leAt img 12 1) = true ∧
       sha256 (slice img 16 64) = o.hashes.getD (leAt img 12 1) []) ∧
     (leAt img 0 4 = 0x4D574659 → allZero (slice img 13 3) = true → allZero (slice img 144 16) = true → 1 ≤ leAt img 8 4 → leAt img 8 4 ≤ 2 ^ 23 →
       img.length = 160 + leAt img 8 4 → usableSlot o.markBits (leAt img 12 1) = false → o.verify img = 0x0709))

/-- Faults. The watchdog ends every task with DEVICE_FAULT, stops the firmware and drives FAULT_N low until firmware has verified again (R401). An
uncorrectable error of a core ends its task with CORE_ERROR, clears the core's staging SRAM and its L1, and marks the tasks that were
switched out there (R399, R400).

The event log: the oldest entry staged goes to its slot of the ring, and where entries were dropped since, one LOG_GAP entry says how many and
from which sequence (R403, R404). An event takes the next sequence, and is dropped and counted where 64 are staged (R403).

The test access port, while VIO is on. BYPASS, IDCODE and SAMPLE/PRELOAD shift their registers and leave the balls to the engine; EXTEST and
CLAMP let the cells drive them and HIGHZ lets nothing drive them, with one event and the loss of the clock of every running TDM port on entry;
Test-Logic-Reset ends a takeover (R361, R362). A code that is not public acts as BYPASS while the vendor debug chain is locked (R361).

The signals: BCLK and FSYNC of a TDM port are driven while the port is enabled as master and are inputs otherwise and from power-down step D3
to the return from Doze; a pull that is not passive exists only while its domain is up (R341, R352). -/
def Obligations.FaultsAndTestPort : Prop :=
  (∀ (s : State), s.w.clocked = true →
     let w := s.w
     let counted := fun (cause : Nat) (w' : World) => cause ≤ w.log.faults.length → w'.log.faults.getD (cause - 1) 0 = sat32 (w.log.faults.getD (cause - 1) 0) 1
     (w.sched.tasks = [] → ∃ w', Gives .watchdog s w' ∧ (w'.sec.fw, w'.sec.fwPrev, w'.sec.loading) = (0, 0, none) ∧ (w'.log.wd, w'.pins.faultN) = (true, some false) ∧
       counted 10 w' ∧ w'.mem = w.mem) ∧
     (∀ t, w.sched.tasks = [t] → ∃ w', Gives .watchdog s w' ∧ w.Completes t 0x0404 w' ∧ (w'.sec.fw, w'.log.wd) = (0, true)) ∧
     (∀ c, c < 16 → w.sched.tasks.find? (fun t => t.runsOn c) = none → ∃ w', Gives (.coreError c) s w' ∧ counted 3 w' ∧ w'.mem.l1.get [] c = [] ∧
       (∀ k, w'.mem.staging.get 0 k = if k / 524288 = c then 0 else w.mem.staging.get 0 k) ∧ SameMemory w w' ∧
       (∀ t ∈ w'.sched.tasks, t.out.contains c = true → t.lost = true)) ∧
     (∀ c t, c < 16 → w.sched.tasks.find? (fun t => t.runsOn c) = some t → w.task? t.id = some t → w.multi = false →
       ∃ w', Gives (.coreError c) s w' ∧ w.Completes t 0x0403 w' ∧ counted 3 w')) ∧
  (∀ (s : State) (e : Entry) (rest : List Entry), s.w.log.staged = e :: rest →
     let w := s.w
     (w.clocked = true → bitAt w.adp.noteCar 2 = false → bitAt w.adp.noteCar 3 = false →
       ∃ w', Gives .eventLogCopy s w' ∧ w'.log.ring.get {} (e.seq % 1024) = e ∧ w'.log.copied = add64 w.log.copied 1 ∧
         (w.log.gap = none → w'.log.staged = rest) ∧
         (∀ n first, w.log.gap = some (n, first) → rest.length < 64 → w'.log.gap = none ∧
           w'.log.staged = rest ++ [{ ns := w.clock.ns, seq := w.log.seq, code := 0x0040, kind := 3, inst := 0, a1 := n, a2 := first }])) ∧
     (∀ code kind inst a1 a2, rest.length < 63 → (w.event code kind inst a1 a2).log.staged =
       w.log.staged ++ [{ ns := w.clock.ns, seq := w.log.seq, code := code, kind := kind, inst := inst, a1 := a1, a2 := a2 }]) ∧
     (∀ code kind inst a1 a2, 63 ≤ rest.length → (w.event code kind inst a1 a2).log.staged = w.log.staged ∧
       (w.event code kind inst a1 a2).log.dropped = sat32 w.log.dropped 1 ∧ (w.event code kind inst a1 a2).log.seq = (w.log.seq + 1) % 2 ^ 32)) ∧
  (∀ (s : State), s.w.pins.vio = true →
     let w := s.w
     let free := fun (w' : World) => w'.tap.takeover = false ∧ w'.readyBall = some w.pins.ready ∧ w'.faultBall = w.pins.faultN
     let taken := fun (code : Nat) (w' : World) => (w'.tap.ir, w'.tap.takeover) = (code, true) ∧ w'.tap.cells = w.tap.cells ∧
       (w.tap.takeover = false → w.clocked = true → ∀ p, p < 2 → (w.tdm p).en = true → (w'.tdm p).st = if (w.tdm p).st = 2 then 3 else (w.tdm p).st) ∧
       (w.tap.takeover = false → w.log.staged.length < 64 → ∃ e, w'.log.staged = w.log.staged ++ [e] ∧ (e.code, e.a1) = (0x0017, code))
     (∀ code b, code = 0xFF ∨ (publicCodes.contains code = false ∧ w.chainOpen s.otp = false) →
       ∃ w', Gives (.tapBypass ⟨code, b⟩) s w' ∧ free w' ∧ (w'.tap.ir, w'.tap.byp) = (code, b % 2) ∧ w'.out = w.out ++ [.tdo 0]) ∧
     (∃ w', Gives .tapIdcode s w' ∧ free w' ∧ w'.tap.ir = 0x01 ∧ w'.out = w.out ++ [.tdo 0x10416A4B]) ∧
     (∀ cells, ∃ w' v, Gives (.tapSample cells) s w' ∧ free w' ∧ (w'.tap.ir, w'.tap.cells) = (0x02, cells % 2 ^ 25) ∧ w'.out = w.out ++ [.tdo v] ∧
       (bitAt v 0, bitAt v 10, bitAt v 11, bitAt v 12) = (w.pins.perstN, w.pins.wake, w.pins.ready, w.pins.faultN.getD true) ∧
       (bitAt v 13, bitAt v 14, bitAt v 15) = (w.pins.pwrAlertN, w.pins.coolOk, w.pins.resetN)) ∧
     (∃ w', Gives .tapExtest s w' ∧ taken 0x00 w' ∧ w'.readyBall = some (bitAt w.tap.cells 11) ∧ w'.faultBall = some (bitAt w.tap.cells 12)) ∧
     (∃ w', Gives .tapHighz s w' ∧ taken 0x03 w' ∧ (w'.readyBall, w'.faultBall) = (none, none)) ∧
     (∃ w', Gives .tapClamp s w' ∧ taken 0x04 w' ∧ w'.readyBall = some (bitAt w.tap.cells 11) ∧ w'.faultBall = some (bitAt w.tap.cells 12)) ∧
     (∃ w', Gives .testLogicReset s w' ∧ free w' ∧ w'.tap.ir = 0x01)) ∧
  (∀ (w : World),
     (∀ p, (w.wire (.fsync p)).drives = (w.wire (.bclk p)).drives ∧ (w.tdmPins = false → (w.wire (.bclk p)).drives = false) ∧
       (w.tdmPins = true → w.tap.takeover = false → (w.wire (.bclk p)).drives = ((w.tdm p).en && (w.tdm p).role == 1))) ∧
     (w.pins.vio = false → ∀ x, x.onVio = true → (w.wire x).pull = none) ∧ ((w.wire .wake).pull, (w.wire .ready).pull) = (some false, some false))
end

