-- ==== Sys2Proof/Laws/Crypto.lean ====
section
/-! SUPPORT. What is sealed with AES-256-GCM opens again under its key, nonce and additional data (R376, R386). -/

namespace Sys2Proof.Laws.Crypto

open Sys2Proof.Machine

/-- A schedule of words of four bytes. -/
def Words (ws : List (List Nat)) (n : Nat) : Prop := ws.length = n ∧ ∀ w ∈ ws, w.length = 4

theorem Words.getD {ws : List (List Nat)} {n i : Nat} (h : Words ws n) (hi : i < n) : (ws.getD i []).length = 4 := by
  have hi' : i < ws.length := h.1 ▸ hi
  rw [List.getD_eq_getElem?_getD, List.getElem?_eq_getElem hi', Option.getD_some]
  exact h.2 _ (List.getElem_mem hi')

theorem next_word_length {t : List Nat} {q : List Nat} {i rc : Nat} (hq : q.length = 4) : ∀ p : List Nat, p.length = 4 →
    (List.zipWith Nat.xor q
      (if i % 8 = 0 then
        match p with
        | [a, b, c, d] => [Nat.xor (subByte t b) rc, subByte t c, subByte t d, subByte t a]
        | _ => p
      else if i % 8 = 4 then p.map (subByte t) else p)).length = 4 := by
  intro p hp
  match p, hp with
  | [a, b, c, d], _ =>
    split
    · simp [hq]
    · split <;> simp [hq]

/-- The key schedule grows by words of four bytes. -/
theorem expand_words {t : List Nat} : ∀ (n i rc : Nat) (ws : List (List Nat)), Words ws i → 8 ≤ i → Words (aesExpand t n i rc ws) (i + n)
  | 0, _, _, _, h, _ => h
  | n + 1, i, rc, ws, h, hi => by
    rw [show i + (n + 1) = (i + 1) + n by omega]
    refine expand_words n (i + 1) _ _ ⟨?_, ?_⟩ (by omega)
    · simp [h.1]
    · intro w hw
      rcases List.mem_append.1 hw with hw | hw
      · exact h.2 w hw
      · rw [List.mem_singleton.1 hw]
        exact next_word_length (h.getD (i := i - 8) (by omega)) _ (h.getD (i := i - 1) (by omega))

theorem flatten_length : ∀ (l : List (List Nat)), (∀ w ∈ l, w.length = 4) → l.flatten.length = 4 * l.length
  | [], _ => rfl
  | w :: l, h => by
    have := flatten_length l (fun x hx => h x (List.mem_cons_of_mem _ hx))
    simp only [List.flatten_cons, List.length_append, List.length_cons, this, h w List.mem_cons_self]
    omega

/-- There are fifteen round keys of sixteen bytes. -/
theorem keys_shape (t : List Nat) (key : Bytes) : (aesKeys t key).length = 15 ∧ ∀ k ∈ aesKeys t key, k.length = 16 := by
  have h0 : Words ((List.range 8).map (fun i => (slice key (4 * i) 4).map (·.toNat))) 8 := by
    refine ⟨by simp, fun w hw => ?_⟩
    obtain ⟨i, -, rfl⟩ := List.mem_map.1 hw
    simp only [slice, List.length_map, List.length_append, List.length_take, List.length_drop, List.length_replicate]
    omega
  have h := expand_words (t := t) 52 8 1 _ h0 (Nat.le_refl 8)
  refine ⟨by simp [aesKeys], fun k hk => ?_⟩
  obtain ⟨r, hr, rfl⟩ := List.mem_map.1 hk
  have hr : r < 15 := List.mem_range.1 hr
  rw [flatten_length _ (fun w hw => h.2 w (List.mem_of_mem_drop (List.mem_of_mem_take hw)))]
  simp only [List.length_take, List.length_drop, h.1]
  omega

theorem rounds_length {t : List Nat} : ∀ (ks : List (List Nat)) (s : List Nat), ks ≠ [] → (∀ k ∈ ks, k.length = 16) → (aesRounds t ks s).length = 16
  | [], _, h, _ => absurd rfl h
  | [k], s, _, h => by simp [aesRounds, shiftRows, h k List.mem_cons_self]
  | k :: k' :: ks, s, _, h => by
    rw [aesRounds]
    · exact rounds_length (k' :: ks) _ (List.cons_ne_nil _ _) (fun x hx => h x (List.mem_cons_of_mem _ hx))
    · simp

/-- A block is sixteen bytes. -/
theorem block_length (t : List Nat) (key blk : Bytes) : (aesBlock t (aesKeys t key) blk).length = 16 := by
  obtain ⟨hl, hk⟩ := keys_shape t key
  match hks : aesKeys t key, hl with
  | k0 :: k1 :: rest, _ =>
    rw [hks] at hk
    simp only [aesBlock, List.length_map]
    exact rounds_length _ _ (List.cons_ne_nil _ _) (fun x hx => hk x (List.mem_cons_of_mem _ hx))

theorem stream_length (t : List Nat) (key nonce : Bytes) : ∀ n c, (gcmStream t (aesKeys t key) nonce n c).length = 16 * n
  | 0, _ => rfl
  | n + 1, c => by
    rw [gcmStream, List.length_append, block_length, stream_length t key nonce n]
    omega

theorem xorBytes_length (a b : Bytes) (h : a.length ≤ b.length) : (xorBytes a b).length = a.length := by simp [xorBytes, h]

theorem xorBytes_again : ∀ a b : Bytes, a.length ≤ b.length → xorBytes (xorBytes a b) b = a
  | [], _, _ => rfl
  | _ :: _, [], h => absurd h (by simp)
  | x :: a, y :: b, h => by
    have := xorBytes_again a b (by simpa using h)
    simp only [xorBytes, List.zipWith_cons_cons] at this ⊢
    rw [this]
    congr 1
    rw [BitVec.xor_assoc, BitVec.xor_self, BitVec.xor_zero]

theorem stream_covers (t : List Nat) (key nonce pt : Bytes) : pt.length ≤ (gcmStream t (aesKeys t key) nonce (cdiv pt.length 16) 2).length := by
  rw [stream_length]
  unfold cdiv
  omega

theorem gcmSeal_length (key nonce aad pt : Bytes) : (gcmSeal key nonce aad pt).1.length = pt.length := xorBytes_length _ _ (stream_covers _ _ _ _)

/-- Sealing and opening agree. -/
theorem gcmOpen_gcmSeal (key nonce aad pt : Bytes) : gcmOpen key nonce aad (gcmSeal key nonce aad pt).1 (gcmSeal key nonce aad pt).2 = some pt := by
  have hc := stream_covers aesSboxTab key nonce pt
  have hl := xorBytes_length _ _ hc
  simp only [gcmOpen, gcmSeal, if_true]
  rw [hl, xorBytes_again _ _ hc]

end Sys2Proof.Laws.Crypto
end

