-- ==== Sys2Proof/Laws/Tab.lean ====
section
/-! SUPPORT. Sparse tables: what a read gives after each operation, and that each keeps the canonical form. -/

namespace Sys2Proof.Machine

variable {α : Type}

theorem Tab.get_put (d : α) (t : Tab α) (k : Nat) (a : α) (j : Nat) :
    Tab.get d (t.put k a) j = if j = k then a else Tab.get d t j := by
  induction t with
  | nil => simp [Tab.put, Tab.get]
  | cons e t ih =>
    obtain ⟨k', a'⟩ := e
    simp only [Tab.put]
    split
    · simp [Tab.get]
    · split
      · subst_vars; simp only [Tab.get]; split <;> rfl
      · simp only [Tab.get, ih]; split
        · subst_vars; rw [if_neg (by omega)]
        · rfl

@[simp] theorem Tab.length_getRun (d : α) (t : Tab α) (k n : Nat) : (t.getRun d k n).length = n := by
  induction n generalizing k with
  | zero => rfl
  | succ n ih => simp [Tab.getRun, ih]

/-- Each value of a run is the value at its key. -/
theorem Tab.getD_getRun (d : α) (t : Tab α) (k n i : Nat) (hi : i < n) : (t.getRun d k n).getD i d = Tab.get d t (k + i) := by
  induction n generalizing k i with
  | zero => omega
  | succ n ih =>
    cases i with
    | zero => simp [Tab.getRun]
    | succ i =>
      simp only [Tab.getRun, List.getD_cons_succ]
      rw [ih (k + 1) i (by omega)]
      congr 1; omega

variable [DecidableEq α]

theorem Tab.wfFrom_mono {d : α} {l l' : Nat} {t : Tab α} (hl : l' ≤ l) (h : Tab.wfFrom d (some l) t = true) : Tab.wfFrom d (some l') t = true := by
  cases t with
  | nil => rfl
  | cons e t =>
    simp only [Tab.wfFrom, Bool.and_eq_true, decide_eq_true_eq] at h ⊢
    exact ⟨⟨by omega, h.1.2⟩, h.2⟩

theorem Tab.wfFrom_none {d : α} {l : Nat} {t : Tab α} (h : Tab.wfFrom d (some l) t = true) : Tab.wfFrom d none t = true := by
  cases t with
  | nil => rfl
  | cons e t =>
    simp only [Tab.wfFrom, Bool.and_eq_true, Bool.true_and] at h ⊢
    exact ⟨h.1.2, h.2⟩

/-- A key at or below the bound reads as unlisted. -/
theorem Tab.get_of_le {d : α} {l k : Nat} {t : Tab α} (h : Tab.wfFrom d (some l) t = true) (hk : k ≤ l) : Tab.get d t k = d := by
  induction t generalizing l with
  | nil => rfl
  | cons e t ih =>
    simp only [Tab.wfFrom, Bool.and_eq_true, decide_eq_true_eq] at h
    simp only [Tab.get]
    rw [if_neg (by omega)]
    exact ih h.2 (by omega)

theorem Tab.wfFrom_put {d : α} {lo : Option Nat} {t : Tab α} {k : Nat} {a : α} (h : Tab.wfFrom d lo t = true)
    (hk : ∀ l, lo = some l → l < k) (ha : a ≠ d) : Tab.wfFrom d lo (t.put k a) = true := by
  induction t generalizing lo with
  | nil => cases lo <;> simp_all [Tab.put, Tab.wfFrom]
  | cons e t ih =>
    obtain ⟨k', a'⟩ := e
    simp only [Tab.wfFrom, Bool.and_eq_true, decide_eq_true_eq] at h
    simp only [Tab.put]
    split
    · rename_i hlt
      cases lo <;> simp_all [Tab.wfFrom]
    · split
      · subst_vars; cases lo <;> simp_all [Tab.wfFrom]
      · have hr := ih h.2 (fun l hl => by cases hl; omega)
        cases lo <;> simp_all [Tab.wfFrom]

theorem Tab.wfFrom_filter {d : α} {lo : Option Nat} {t : Tab α} (p : Nat × α → Bool) (h : Tab.wfFrom d lo t = true) :
    Tab.wfFrom d lo (t.filter p) = true := by
  induction t generalizing lo with
  | nil => simpa using h
  | cons e t ih =>
    simp only [Tab.wfFrom, Bool.and_eq_true] at h
    rw [List.filter_cons]
    split
    · have hr := ih h.2
      simp only [Tab.wfFrom, Bool.and_eq_true]
      exact ⟨h.1, hr⟩
    · cases lo with
      | none => exact ih (Tab.wfFrom_none h.2)
      | some l => exact ih (Tab.wfFrom_mono (by simp at h; omega) h.2)

omit [DecidableEq α] in
theorem Tab.get_filter_ne (d : α) (t : Tab α) (k j : Nat) :
    Tab.get d (t.filter (fun e => decide (e.1 ≠ k))) j = if j = k then d else Tab.get d t j := by
  induction t with
  | nil => simp [Tab.get]
  | cons e t ih =>
    rw [List.filter_cons]
    split
    · rename_i hne
      simp only [Tab.get, ih]
      simp only [decide_eq_true_eq] at hne
      split
      · subst_vars; rw [if_neg hne]
      · rfl
    · rename_i hne
      simp only [ne_eq, decide_not, Bool.not_eq_true', decide_eq_false_iff_not, Decidable.not_not] at hne
      rw [ih]
      simp only [Tab.get]
      subst hne
      split
      · rfl
      · rfl

theorem Tab.wf_set {d : α} {t : Tab α} {k : Nat} {a : α} (h : t.wf d = true) : (Tab.set d t k a).wf d = true := by
  unfold Tab.set
  split
  · exact Tab.wfFrom_filter _ h
  · exact Tab.wfFrom_put h (by simp) ‹_›

/-- A read after a write, in canonical form or not. -/
theorem Tab.get_set (d : α) (t : Tab α) (k : Nat) (a : α) (j : Nat) :
    Tab.get d (Tab.set d t k a) j = if j = k then a else Tab.get d t j := by
  unfold Tab.set
  split
  · rename_i ha; rw [Tab.get_filter_ne d t k j, ha]
  · exact Tab.get_put d t k a j

theorem Tab.wf_upd {d : α} {t : Tab α} {k : Nat} {f : α → α} (h : t.wf d = true) : (Tab.upd d t k f).wf d = true := Tab.wf_set h

theorem Tab.wf_keep {d : α} {t : Tab α} {p : Nat → α → Bool} (h : t.wf d = true) : (t.keep p).wf d = true := Tab.wfFrom_filter _ h

theorem Tab.wf_setRun {d : α} {t : Tab α} {k : Nat} {as : List α} (h : t.wf d = true) : (Tab.setRun d t k as).wf d = true := by
  induction as generalizing t k with
  | nil => exact h
  | cons a as ih => exact ih (Tab.wf_set h)

/-- A read after a run of values is the value written there, and elsewhere what it was. -/
theorem Tab.get_setRun (d : α) (t : Tab α) (k : Nat) (as : List α) (j : Nat) :
    Tab.get d (Tab.setRun d t k as) j = if k ≤ j ∧ j < k + as.length then as.getD (j - k) d else Tab.get d t j := by
  induction as generalizing t k with
  | nil =>
    rw [if_neg (by simp only [List.length_nil]; omega)]
    rfl
  | cons a as ih =>
    simp only [Tab.setRun, List.length_cons]
    rw [ih, Tab.get_set]
    by_cases hj : j = k
    · subst hj
      rw [if_neg (by omega), if_pos rfl, if_pos (by omega)]
      simp
    · by_cases hr : k + 1 ≤ j ∧ j < k + 1 + as.length
      · rw [if_pos hr, if_pos (by omega)]
        obtain ⟨n, rfl⟩ : ∃ n, j = k + 1 + n := ⟨j - (k + 1), by omega⟩
        rw [show k + 1 + n - (k + 1) = n by omega, show k + 1 + n - k = n + 1 by omega]
        simp
      · rw [if_neg hr, if_neg hj, if_neg (by omega)]

theorem Tab.wfFrom_mapAll {d : α} {lo : Option Nat} {t : Tab α} (f : Nat → α → α) (h : Tab.wfFrom d lo t = true) :
    Tab.wfFrom d lo ((t.map (fun e => (e.1, f e.1 e.2))).filter (fun e => decide (e.2 ≠ d))) = true := by
  induction t generalizing lo with
  | nil => rfl
  | cons e t ih =>
    simp only [Tab.wfFrom, Bool.and_eq_true] at h
    rw [List.map_cons, List.filter_cons]
    split
    · rename_i hne
      have hr := ih h.2
      simp only [Tab.wfFrom, Bool.and_eq_true]
      exact ⟨⟨h.1.1, by simpa using hne⟩, hr⟩
    · cases lo with
      | none => exact ih (Tab.wfFrom_none h.2)
      | some l => exact ih (Tab.wfFrom_mono (by simp at h; omega) h.2)

theorem Tab.wf_mapAll {d : α} {t : Tab α} {f : Nat → α → α} (h : t.wf d = true) : (t.mapAll d f).wf d = true := Tab.wfFrom_mapAll f h

end Sys2Proof.Machine
end

