-- ==== Sys2Proof/Laws/Blob.lean ====
section
/-! SUPPORT. A blob that lies in memory, sealed under the export key, opens to its plaintext (R386, Table 15.10). -/

namespace Sys2Proof.Laws.Blob

open Sys2Proof Sys2Proof.Machine

@[simp] theorem slice_length (b : Bytes) (off n : Nat) : (slice b off n).length = n := by
  simp only [slice, List.length_append, List.length_take, List.length_drop, List.length_replicate]
  omega

/-- Within a run, a slice is what is there. -/
theorem slice_within (b : Bytes) (off n : Nat) (h : off + n ≤ b.length) : slice b off n = (b.drop off).take n := by
  have : ((b.drop off).take n).length = n := by
    simp only [List.length_take, List.length_drop]
    omega
  simp [slice, this]

theorem slice_left (a b : Bytes) (off n : Nat) (h : off + n ≤ a.length) : slice (a ++ b) off n = slice a off n := by
  rw [slice_within _ _ _ h, slice_within _ _ _ (by rw [List.length_append]; omega), List.drop_append_of_le_length (by omega),
    List.take_append_of_le_length (by rw [List.length_drop]; omega)]

theorem slice_middle (a b c : Bytes) : slice (a ++ b ++ c) a.length b.length = b := by
  rw [slice_within _ _ _ (by simp only [List.length_append]; omega), List.append_assoc, List.drop_left, List.take_left]

theorem slice_right (a b : Bytes) : slice (a ++ b) a.length b.length = b := by
  rw [slice_within _ _ _ (by simp only [List.length_append]; omega), List.drop_left, List.take_of_length_le (Nat.le_refl _)]

theorem leBytes_length : ∀ n v, (leBytes n v).length = n
  | 0, _ => rfl
  | n + 1, v => congrArg (· + 1) (leBytes_length n (v / 256))

theorem tag_length (key nonce aad pt : Bytes) : (gcmSeal key nonce aad pt).2.length = 16 := by
  simp [gcmSeal, gcmTag, beBytes, leBytes_length]

/-- A run that has been stored reads back. -/
theorem getRun_setRun (t : Tab Byte) (a : Nat) (b : Bytes) : (Tab.setRun 0 t a b).getRun 0 a b.length = b := by
  refine List.ext_getElem (by simp) (fun i h _ => ?_)
  have hi : i < b.length := by simpa using h
  have := Tab.getD_getRun (0 : Byte) (Tab.setRun 0 t a b) a b.length i hi
  rw [List.getD_eq_getElem?_getD, List.getElem?_eq_getElem h, Option.getD_some, Tab.get_setRun] at this
  rw [this]
  simp [hi]

/-- The blob of a header and a plaintext, sealed, opens where the checks of R386 hold of its header and its digest. -/
theorem openBlob_sealed (w : World) (e : ManEntry) (a : Nat) (head body : Bytes)
    (hh : head.length = 40) (hlen : e.len = 56 + body.length) (h96 : 96 ≤ body.length) (hin : inHost a e.len = true)
    (hload : w.load a e.len = head ++ (gcmSeal w.exportKey (slice head 24 12) head body).1 ++ (gcmSeal w.exportKey (slice head 24 12) head body).2)
    (hdig : e.digest = sha256 (w.load a e.len)) (hmagic : leAt head 0 4 = 0x58544659) (hid : leAt head 4 2 = e.id)
    (hchip : slice head 16 8 = slice w.live.factory 0 8) (hn : leAt head 36 4 = body.length) :
    w.openBlob e a = some body := by
  have hc := Crypto.gcmSeal_length w.exportKey (slice head 24 12) head body
  have ht := tag_length w.exportKey (slice head 24 12) head body
  have ho := Crypto.gcmOpen_gcmSeal w.exportKey (slice head 24 12) head body
  generalize hct : (gcmSeal w.exportKey (slice head 24 12) head body).1 = ct at *
  generalize htag : (gcmSeal w.exportKey (slice head 24 12) head body).2 = tag at *
  have field : ∀ off n, off + n ≤ 40 → slice (head ++ ct ++ tag) off n = slice head off n := fun off n h => by
    rw [List.append_assoc]
    exact slice_left _ _ _ _ (by omega)
  have f1 : leAt (head ++ ct ++ tag) 0 4 = 0x58544659 := by rw [← hmagic, leAt, leAt, field _ _ (by omega)]
  have f2 : leAt (head ++ ct ++ tag) 4 2 = e.id := by rw [← hid, leAt, leAt, field _ _ (by omega)]
  have f3 : slice (head ++ ct ++ tag) 16 8 = slice w.live.factory 0 8 := by rw [field _ _ (by omega), hchip]
  have f4 : leAt (head ++ ct ++ tag) 36 4 = body.length := by rw [← hn, leAt, leAt, field _ _ (by omega)]
  have f5 : slice (head ++ ct ++ tag) 24 12 = slice head 24 12 := field _ _ (by omega)
  have f6 : slice (head ++ ct ++ tag) 0 40 = head := by
    rw [field _ _ (by omega), slice_within _ _ _ (by omega), List.drop_zero, List.take_of_length_le (by omega)]
  have f7 : slice (head ++ ct ++ tag) 40 body.length = ct := by
    have := slice_middle head ct tag
    rwa [hh, hc] at this
  have f8 : slice (head ++ ct ++ tag) (e.len - 16) 16 = tag := by
    have := slice_right (head ++ ct) tag
    rwa [List.length_append, hh, hc, ht, show 40 + body.length = e.len - 16 by omega] at this
  have h152 : ¬ e.len < 152 := by omega
  have hsum : body.length + 56 = e.len := by omega
  rw [hload] at hdig
  simp only [World.openBlob, hin, hload, hdig, f1, f2, f3, f4, f5, f6, f7, f8, ho, h152, hsum]
  simp

end Sys2Proof.Laws.Blob
end

