-- ==== Sys2Proof/Laws/Memory.lean ====
section
/-! SUPPORT. Every memory operation keeps the canonical form of Memory.wf, and what a read gives after a store. -/

namespace Sys2Proof.Machine

/-- The canonical form, table by table. -/
theorem Memory.wf_iff (m : Mem) : Memory.wf m = true ↔
    m.mem.wf 0 = true ∧ m.dram.wf 0 = true ∧ m.staging.wf 0 = true ∧ m.far.wf 0 = true ∧ m.l1.wf [] = true ∧ m.sets.wf {} = true ∧
      m.slices.wf {} = true ∧ m.chans.wf {} = true ∧ m.seals.wf 0 = true := by
  simp only [Memory.wf, Bool.and_eq_true, and_assoc]

/-- A fold of steps that keep the canonical form keeps it. -/
theorem Memory.wf_foldl {β : Type} {f : Mem → β → Mem} (hf : ∀ m b, Memory.wf m = true → Memory.wf (f m b) = true) :
    ∀ (l : List β) (m : Mem), Memory.wf m = true → Memory.wf (l.foldl f m) = true
  | [], _, h => h
  | b :: l, m, h => Memory.wf_foldl hf l (f m b) (hf m b h)

theorem Memory.wf_putSet {m : Mem} (k : Nat) (c : CSet) (h : Memory.wf m = true) : Memory.wf (m.putSet k c) = true := by
  rw [Memory.wf_iff] at h ⊢
  obtain ⟨h1, h2, h3, h4, h5, h6, h7, h8, h9⟩ := h
  exact ⟨h1, h2, h3, h4, h5, Tab.wf_set h6, h7, h8, h9⟩

theorem Memory.wf_countEnc {m : Mem} (b : Bool) (h : Memory.wf m = true) : Memory.wf (m.countEnc b) = true := by
  unfold Mem.countEnc
  split
  · exact h
  · exact h

theorem Memory.wf_readBack (m : Mem) (s : Nat) (h : Memory.wf m = true) : Memory.wf (m.readBack s) = true := by
  rw [Memory.wf_iff] at h ⊢
  obtain ⟨h1, h2, h3, h4, h5, h6, h7, h8, h9⟩ := h
  exact ⟨Tab.wf_setRun h1, h2, h3, h4, h5, h6, h7, h8, h9⟩

theorem Memory.wf_dropMisses {m : Mem} (cores : List Nat) (la : Nat) (h : Memory.wf m = true) : Memory.wf (m.dropMisses cores la) = true := by
  unfold Mem.dropMisses
  rw [Memory.wf_iff] at h ⊢
  obtain ⟨h1, h2, h3, h4, h5, h6, h7, h8, h9⟩ := h
  dsimp only
  exact ⟨h1, h2, h3, h4, h5, h6, Tab.wf_mapAll h7, h8, h9⟩

theorem Memory.wf_writeBack (m : Mem) (s : Nat) (h : Memory.wf m = true) : Memory.wf (m.writeBack s) = true := by
  rw [Memory.wf_iff] at h ⊢
  obtain ⟨h1, h2, h3, h4, h5, h6, h7, h8, h9⟩ := h
  exact ⟨h1, Tab.wf_setRun h2, h3, h4, h5, h6, h7, h8, h9⟩

theorem Memory.wf_evict (m : Mem) (l : Line) (h : Memory.wf m = true) : Memory.wf (m.evict l) = true := by
  unfold Mem.evict
  split
  · rw [Memory.wf_iff] at h ⊢
    obtain ⟨h1, h2, h3, h4, h5, h6, h7, h8, h9⟩ := h
    dsimp only
    exact ⟨h1, h2, h3, Tab.wf_keep h4, h5, h6, h7, h8, h9⟩
  · exact Memory.wf_foldl (fun m i hm => Memory.wf_writeBack m _ hm) _ _ h

theorem Memory.wf_place (m : Mem) (l : Line) (h : Memory.wf m = true) : Memory.wf (m.place l) = true := by
  simp only [Mem.place]
  split
  · exact Memory.wf_putSet _ _ h
  · exact Memory.wf_putSet _ _ (Memory.wf_foldl Memory.wf_evict _ _ h)

theorem Memory.wf_countMove {m : Mem} (h : Memory.wf m = true) : Memory.wf m.countMove = true := h

theorem Memory.wf_resettle {m : Mem} (key : Nat) (c : CSet) (i : Nat) (l : Line) (rest : List Line) (h : Memory.wf m = true) :
    Memory.wf (m.resettle key c i l rest) = true := by
  unfold Mem.resettle
  split
  · exact Memory.wf_foldl Memory.wf_place _ _ (Memory.wf_putSet _ _ (Memory.wf_countMove h))
  · split <;> exact Memory.wf_putSet _ _ h

theorem Memory.wf_recode (m : Mem) (la : Nat) (remote : Bool) (h : Memory.wf m = true) : Memory.wf (m.recode la remote) = true := by
  unfold Mem.recode
  dsimp only
  split
  · exact Memory.wf_resettle _ _ _ _ _ (Memory.wf_countEnc _ h)
  · exact h

theorem Memory.wf_touch (m : Mem) (la valid dirty : Nat) (h : Memory.wf m = true) : Memory.wf (m.touch la valid dirty) = true := by
  simp only [Mem.touch]
  apply Memory.wf_recode
  split
  · exact Memory.wf_putSet _ _ h
  · exact Memory.wf_place _ _ h

theorem Memory.wf_storeValue {m : Mem} (a : Nat) (bs : Bytes) (h : Memory.wf m = true) : Memory.wf (m.storeValue a bs) = true := by
  rw [Memory.wf_iff] at h ⊢
  obtain ⟨h1, h2, h3, h4, h5, h6, h7, h8, h9⟩ := h
  exact ⟨Tab.wf_setRun h1, h2, h3, h4, h5, h6, h7, h8, h9⟩

theorem Memory.wf_store {m : Mem} (a : Nat) (bs : Bytes) (h : Memory.wf m = true) : Memory.wf (m.store a bs) = true :=
  Memory.wf_foldl (fun m _ hm => Memory.wf_touch m _ _ _ hm) _ _ (Memory.wf_storeValue a bs h)

theorem Memory.wf_storeAround {m : Mem} (a : Nat) (bs : Bytes) (h : Memory.wf m = true) : Memory.wf (m.storeAround a bs) = true := by
  rw [Memory.wf_iff] at h ⊢
  obtain ⟨h1, h2, h3, h4, h5, h6, h7, h8, h9⟩ := h
  exact ⟨Tab.wf_setRun h1, Tab.wf_setRun h2, h3, h4, h5, h6, h7, h8, h9⟩

theorem Memory.wf_poisonSector {m : Mem} (s : Nat) (b : Bool) (h : Memory.wf m = true) : Memory.wf (m.poisonSector s b) = true :=
  Memory.wf_writeBack m s h

theorem Memory.wf_remove {m : Mem} (la : Nat) (remote : Bool) (h : Memory.wf m = true) : Memory.wf (m.remove la remote) = true := by
  simp only [Mem.remove]
  split
  · exact Memory.wf_putSet _ _ h
  · exact h

theorem Memory.wf_dropNow (m : Mem) (cores : List Nat) (remote : Bool) (la : Nat) (h : Memory.wf m = true) :
    Memory.wf (m.dropNow cores remote la) = true := by
  have hl : ∀ (m : Mem) (x y : Nat), Memory.wf m = true → Memory.wf { m with
      l1 := m.l1.mapAll [] (fun c ls => if cores.contains c then ls.filter (· != (la, remote)) else ls), dropLines := x, dropDirty := y } = true := by
    intro m x y h
    rw [Memory.wf_iff] at h ⊢
    obtain ⟨h1, h2, h3, h4, h5, h6, h7, h8, h9⟩ := h
    dsimp only
    exact ⟨h1, h2, h3, h4, Tab.wf_mapAll h5, h6, h7, h8, h9⟩
  simp only [Mem.dropNow]
  split
  · refine Memory.wf_remove _ _ (hl _ _ _ ?_)
    split
    · exact Memory.wf_evict _ _ h
    · exact Memory.wf_foldl (fun m i hm => Memory.wf_readBack m _ hm) _ _ h
  · exact h

theorem Memory.wf_dropLine (m : Mem) (cores : List Nat) (remote : Bool) (la : Nat) (h : Memory.wf m = true) :
    Memory.wf (m.dropLine cores remote la) = true := by
  unfold Mem.dropLine
  split
  · exact Memory.wf_dropMisses _ _ h
  · exact Memory.wf_dropNow m cores remote la h

theorem Memory.wf_dropExtent {m : Mem} (cores : List Nat) (edge remote : Bool) (a n : Nat) (h : Memory.wf m = true) :
    Memory.wf (m.dropExtent cores edge remote a n) = true :=
  Memory.wf_foldl (fun m la hm => Memory.wf_dropLine m cores remote la hm) _ _ h

theorem Memory.wf_allocL1 {m : Mem} (core la : Nat) (remote : Bool) (h : Memory.wf m = true) : Memory.wf (m.allocL1 core la remote) = true := by
  unfold Mem.allocL1
  rw [Memory.wf_iff] at h ⊢
  obtain ⟨h1, h2, h3, h4, h5, h6, h7, h8, h9⟩ := h
  dsimp only
  exact ⟨h1, h2, h3, h4, Tab.wf_set h5, h6, h7, h8, h9⟩

theorem Memory.wf_acquire {m : Mem} (h : Memory.wf m = true) : Memory.wf m.acquire = true := by
  unfold Mem.acquire
  rw [Memory.wf_iff] at h ⊢
  obtain ⟨h1, h2, h3, h4, h5, h6, h7, h8, h9⟩ := h
  dsimp only
  exact ⟨h1, h2, h3, Tab.wf_keep h4, h5, h6, h7, h8, h9⟩

theorem Memory.wf_updateFar {m : Mem} (a : Nat) (bs : Bytes) (h : Memory.wf m = true) : Memory.wf (m.updateFar a bs) = true := by
  have hf : ∀ (l : List Nat) (t : Tab (BitVec 8)), t.wf 0 = true → (l.foldl (fun far s =>
      if m.farValid (32 * s) 32 then Tab.setRun 0 far (max a (32 * s))
        (slice bs (max a (32 * s) - a) (min (a + bs.length) (32 * s + 32) - max a (32 * s))) else far) t).wf 0 = true := by
    intro l
    induction l with
    | nil => exact fun _ ht => ht
    | cons s l ih =>
      intro t ht
      simp only [List.foldl_cons]
      apply ih
      split
      · exact Tab.wf_setRun ht
      · exact ht
  rw [Memory.wf_iff] at h ⊢
  obtain ⟨h1, h2, h3, h4, h5, h6, h7, h8, h9⟩ := h
  exact ⟨h1, h2, h3, hf _ _ h4, h5, h6, h7, h8, h9⟩

theorem Memory.wf_fillFar {m : Mem} (a : Nat) (bs : Bytes) (seq : Nat) (current : Bool) (h : Memory.wf m = true) :
    Memory.wf (m.fillFar a bs seq current) = true := by
  have hf : ∀ g, Memory.wf { m with far := m.far.setRun 0 a bs, given := g } = true := by
    intro g
    rw [Memory.wf_iff] at h ⊢
    obtain ⟨h1, h2, h3, h4, h5, h6, h7, h8, h9⟩ := h
    exact ⟨h1, h2, h3, Tab.wf_setRun h4, h5, h6, h7, h8, h9⟩
  simp only [Mem.fillFar]
  split
  · exact hf _
  · refine Memory.wf_foldl (fun m la hm => Memory.wf_recode _ _ _ ?_) _ _ (hf _)
    split
    · exact Memory.wf_putSet _ _ hm
    · split
      · exact hm
      · split
        · exact Memory.wf_place _ _ hm
        · exact Memory.wf_putSet _ _ (Memory.wf_foldl Memory.wf_evict _ _ hm)

/-! What slices do leaves the coherent value of every byte (R149), but for the drop of a dirty line. -/

theorem Mem.mem_foldl {β : Type} {f : Mem → β → Mem} (hf : ∀ m b, (f m b).mem = m.mem) :
    ∀ (l : List β) (m : Mem), (l.foldl f m).mem = m.mem
  | [], _ => rfl
  | b :: l, m => (Mem.mem_foldl hf l (f m b)).trans (hf m b)

@[simp] theorem Mem.putSet_mem (m : Mem) (k : Nat) (c : CSet) : (m.putSet k c).mem = m.mem := rfl

@[simp] theorem Mem.countEnc_mem (m : Mem) (b : Bool) : (m.countEnc b).mem = m.mem := by cases b <;> rfl

@[simp] theorem Mem.writeBack_mem (m : Mem) (s : Nat) : (m.writeBack s).mem = m.mem := rfl

@[simp] theorem Mem.dropMisses_mem (m : Mem) (cores : List Nat) (la : Nat) : (m.dropMisses cores la).mem = m.mem := rfl

@[simp] theorem Mem.countMove_mem (m : Mem) : m.countMove.mem = m.mem := rfl

@[simp] theorem Mem.evict_mem (m : Mem) (l : Line) : (m.evict l).mem = m.mem := by
  unfold Mem.evict
  split
  · rfl
  · exact Mem.mem_foldl (f := fun m i => m.writeBack (4 * l.addr + i)) (fun _ _ => rfl) _ _

@[simp] theorem Mem.place_mem (m : Mem) (l : Line) : (m.place l).mem = m.mem := by
  simp only [Mem.place]
  split
  · rfl
  · exact Mem.mem_foldl Mem.evict_mem _ _

@[simp] theorem Mem.resettle_mem (m : Mem) (key : Nat) (c : CSet) (i : Nat) (l : Line) (rest : List Line) :
    (m.resettle key c i l rest).mem = m.mem := by
  unfold Mem.resettle
  split
  · exact Mem.mem_foldl Mem.place_mem _ _
  · split <;> rfl

@[simp] theorem Mem.recode_mem (m : Mem) (la : Nat) (remote : Bool) : (m.recode la remote).mem = m.mem := by
  unfold Mem.recode
  dsimp only
  split
  · exact (Mem.resettle_mem _ _ _ _ _ _).trans (Mem.countEnc_mem _ _)
  · rfl

@[simp] theorem Mem.touch_mem (m : Mem) (la v d : Nat) : (m.touch la v d).mem = m.mem := by
  simp only [Mem.touch, Mem.recode_mem]
  split
  · rfl
  · exact Mem.place_mem _ _

/-- A store leaves the coherent values that its run of bytes gives (R149). -/
theorem Mem.store_mem (m : Mem) (a : Nat) (bs : Bytes) : (m.store a bs).mem = m.mem.setRun 0 a bs :=
  (Mem.mem_foldl (f := fun m la => m.touch la (touchMask la a bs.length) (touchMask la a bs.length)) (fun m la => Mem.touch_mem m la _ _) _ _).trans rfl

/-- A byte read after a store: the byte stored there, or the byte before. -/
theorem World.store_wrote (w : World) (a : Nat) (bs : Bytes) : Wrote w (w.store a bs) a bs := by
  intro x
  show Tab.get 0 (w.mem.store a bs).mem x = _
  rw [Mem.store_mem, Tab.get_setRun]

end Sys2Proof.Machine
end

