-- ==== Sys2Proof/Laws/State.lean ====
section
/-! SUPPORT. What each named update leaves of the state: one lemma for each field that it does not touch. -/

namespace Sys2Proof.Machine

/-! Lifting a change of the engine to the state. -/

@[simp] theorem State.onW_otp (s : State) (f : World → World) : (s.onW f).otp = s.otp := rfl
@[simp] theorem State.onW_vault (s : State) (f : World → World) : (s.onW f).vault = s.vault := rfl
@[simp] theorem State.onW_pending (s : State) (f : World → World) : (s.onW f).pending = s.pending := rfl
@[simp] theorem State.onW_w (s : State) (f : World → World) : (s.onW f).w = f s.w := rfl
@[simp] theorem State.onRW_otp (s : State) (f : Vault → World → World) : (s.onRW f).otp = s.otp := rfl
@[simp] theorem State.onRW_vault (s : State) (f : Vault → World → World) : (s.onRW f).vault = s.vault := rfl
@[simp] theorem State.onRW_pending (s : State) (f : Vault → World → World) : (s.onRW f).pending = s.pending := rfl
@[simp] theorem State.onRW_w (s : State) (f : Vault → World → World) : (s.onRW f).w = f s.vault s.w := rfl
@[simp] theorem State.onOW_otp (s : State) (f : Otp → Vault → World → World) : (s.onOW f).otp = s.otp := rfl
@[simp] theorem State.onOW_vault (s : State) (f : Otp → Vault → World → World) : (s.onOW f).vault = s.vault := rfl
@[simp] theorem State.onOW_pending (s : State) (f : Otp → Vault → World → World) : (s.onOW f).pending = s.pending := rfl
@[simp] theorem State.onOW_w (s : State) (f : Otp → Vault → World → World) : (s.onOW f).w = f s.otp s.vault s.w := rfl
@[simp] theorem State.onVW_otp (s : State) (f : Vault → World → Vault × World) : (s.onVW f).otp = s.otp := rfl
@[simp] theorem State.onVW_pending (s : State) (f : Vault → World → Vault × World) : (s.onVW f).pending = s.pending := rfl
@[simp] theorem State.onVW_w (s : State) (f : Vault → World → Vault × World) : (s.onVW f).w = (f s.vault s.w).2 := rfl
@[simp] theorem State.onVW_vault (s : State) (f : Vault → World → Vault × World) : (s.onVW f).vault = (f s.vault s.w).1 := rfl
@[simp] theorem State.onOVW_otp (s : State) (f : Otp → Vault → World → Vault × World) : (s.onOVW f).otp = s.otp := rfl
@[simp] theorem State.onOVW_pending (s : State) (f : Otp → Vault → World → Vault × World) : (s.onOVW f).pending = s.pending := rfl
@[simp] theorem State.onOVW_w (s : State) (f : Otp → Vault → World → Vault × World) : (s.onOVW f).w = (f s.otp s.vault s.w).2 := rfl
@[simp] theorem State.onOVW_vault (s : State) (f : Otp → Vault → World → Vault × World) : (s.onOVW f).vault = (f s.otp s.vault s.w).1 := rfl

/-! Updates of the engine. -/

@[simp] theorem World.send_live (w : World) (o : Out) : (w.send o).live = w.live := rfl
@[simp] theorem World.send_power (w : World) (o : Out) : (w.send o).power = w.power := rfl
@[simp] theorem World.send_pins (w : World) (o : Out) : (w.send o).pins = w.pins := rfl
@[simp] theorem World.send_pt (w : World) (o : Out) : (w.send o).pt = w.pt := rfl
@[simp] theorem World.send_meter (w : World) (o : Out) : (w.send o).meter = w.meter := rfl
@[simp] theorem World.send_clock (w : World) (o : Out) : (w.send o).clock = w.clock := rfl
@[simp] theorem World.send_log (w : World) (o : Out) : (w.send o).log = w.log := rfl
@[simp] theorem World.send_adp (w : World) (o : Out) : (w.send o).adp = w.adp := rfl
@[simp] theorem World.send_stn (w : World) (o : Out) : (w.send o).stn = w.stn := rfl
@[simp] theorem World.send_host (w : World) (o : Out) : (w.send o).host = w.host := rfl
@[simp] theorem World.send_sched (w : World) (o : Out) : (w.send o).sched = w.sched := rfl
@[simp] theorem World.send_num (w : World) (o : Out) : (w.send o).num = w.num := rfl
@[simp] theorem World.send_train (w : World) (o : Out) : (w.send o).train = w.train := rfl
@[simp] theorem World.send_mem (w : World) (o : Out) : (w.send o).mem = w.mem := rfl
@[simp] theorem World.send_link (w : World) (o : Out) : (w.send o).link = w.link := rfl
@[simp] theorem World.send_job (w : World) (o : Out) : (w.send o).job = w.job := rfl
@[simp] theorem World.send_sec (w : World) (o : Out) : (w.send o).sec = w.sec := rfl
@[simp] theorem World.send_tap (w : World) (o : Out) : (w.send o).tap = w.tap := rfl
@[simp] theorem World.send_msix (w : World) (o : Out) : (w.send o).msix = w.msix := rfl

@[simp] theorem World.vector_live (w : World) (v : Nat) : (w.vector v).live = w.live := by unfold World.vector; repeat' (first | rfl | split)
@[simp] theorem World.vector_power (w : World) (v : Nat) : (w.vector v).power = w.power := by unfold World.vector; repeat' (first | rfl | split)
@[simp] theorem World.vector_pins (w : World) (v : Nat) : (w.vector v).pins = w.pins := by unfold World.vector; repeat' (first | rfl | split)
@[simp] theorem World.vector_pt (w : World) (v : Nat) : (w.vector v).pt = w.pt := by unfold World.vector; repeat' (first | rfl | split)
@[simp] theorem World.vector_meter (w : World) (v : Nat) : (w.vector v).meter = w.meter := by unfold World.vector; repeat' (first | rfl | split)
@[simp] theorem World.vector_clock (w : World) (v : Nat) : (w.vector v).clock = w.clock := by unfold World.vector; repeat' (first | rfl | split)
@[simp] theorem World.vector_log (w : World) (v : Nat) : (w.vector v).log = w.log := by unfold World.vector; repeat' (first | rfl | split)
@[simp] theorem World.vector_adp (w : World) (v : Nat) : (w.vector v).adp = w.adp := by unfold World.vector; repeat' (first | rfl | split)
@[simp] theorem World.vector_stn (w : World) (v : Nat) : (w.vector v).stn = w.stn := by unfold World.vector; repeat' (first | rfl | split)
@[simp] theorem World.vector_host (w : World) (v : Nat) : (w.vector v).host = w.host := by unfold World.vector; repeat' (first | rfl | split)
@[simp] theorem World.vector_sched (w : World) (v : Nat) : (w.vector v).sched = w.sched := by unfold World.vector; repeat' (first | rfl | split)
@[simp] theorem World.vector_num (w : World) (v : Nat) : (w.vector v).num = w.num := by unfold World.vector; repeat' (first | rfl | split)
@[simp] theorem World.vector_train (w : World) (v : Nat) : (w.vector v).train = w.train := by unfold World.vector; repeat' (first | rfl | split)
@[simp] theorem World.vector_mem (w : World) (v : Nat) : (w.vector v).mem = w.mem := by unfold World.vector; repeat' (first | rfl | split)
@[simp] theorem World.vector_link (w : World) (v : Nat) : (w.vector v).link = w.link := by unfold World.vector; repeat' (first | rfl | split)
@[simp] theorem World.vector_job (w : World) (v : Nat) : (w.vector v).job = w.job := by unfold World.vector; repeat' (first | rfl | split)
@[simp] theorem World.vector_sec (w : World) (v : Nat) : (w.vector v).sec = w.sec := by unfold World.vector; repeat' (first | rfl | split)
@[simp] theorem World.vector_tap (w : World) (v : Nat) : (w.vector v).tap = w.tap := by unfold World.vector; repeat' (first | rfl | split)

@[simp] theorem World.vector65_live (w : World) : (w.vector65).live = w.live := by unfold World.vector65; split <;> (try split) <;> first | rfl | simp
@[simp] theorem World.vector65_power (w : World) : (w.vector65).power = w.power := by unfold World.vector65; split <;> (try split) <;> first | rfl | simp
@[simp] theorem World.vector65_pins (w : World) : (w.vector65).pins = w.pins := by unfold World.vector65; split <;> (try split) <;> first | rfl | simp
@[simp] theorem World.vector65_pt (w : World) : (w.vector65).pt = w.pt := by unfold World.vector65; split <;> (try split) <;> first | rfl | simp
@[simp] theorem World.vector65_meter (w : World) : (w.vector65).meter = w.meter := by unfold World.vector65; split <;> (try split) <;> first | rfl | simp
@[simp] theorem World.vector65_clock (w : World) : (w.vector65).clock = w.clock := by unfold World.vector65; split <;> (try split) <;> first | rfl | simp
@[simp] theorem World.vector65_log (w : World) : (w.vector65).log = w.log := by unfold World.vector65; split <;> (try split) <;> first | rfl | simp
@[simp] theorem World.vector65_adp (w : World) : (w.vector65).adp = w.adp := by unfold World.vector65; split <;> (try split) <;> first | rfl | simp
@[simp] theorem World.vector65_host (w : World) : (w.vector65).host = w.host := by unfold World.vector65; split <;> (try split) <;> first | rfl | simp
@[simp] theorem World.vector65_sched (w : World) : (w.vector65).sched = w.sched := by unfold World.vector65; split <;> (try split) <;> first | rfl | simp
@[simp] theorem World.vector65_num (w : World) : (w.vector65).num = w.num := by unfold World.vector65; split <;> (try split) <;> first | rfl | simp
@[simp] theorem World.vector65_train (w : World) : (w.vector65).train = w.train := by unfold World.vector65; split <;> (try split) <;> first | rfl | simp
@[simp] theorem World.vector65_mem (w : World) : (w.vector65).mem = w.mem := by unfold World.vector65; split <;> (try split) <;> first | rfl | simp
@[simp] theorem World.vector65_link (w : World) : (w.vector65).link = w.link := by unfold World.vector65; split <;> (try split) <;> first | rfl | simp
@[simp] theorem World.vector65_job (w : World) : (w.vector65).job = w.job := by unfold World.vector65; split <;> (try split) <;> first | rfl | simp
@[simp] theorem World.vector65_sec (w : World) : (w.vector65).sec = w.sec := by unfold World.vector65; split <;> (try split) <;> first | rfl | simp
@[simp] theorem World.vector65_tap (w : World) : (w.vector65).tap = w.tap := by unfold World.vector65; split <;> (try split) <;> first | rfl | simp

@[simp] theorem World.vector67_live (w : World) : (w.vector67).live = w.live := by unfold World.vector67; split <;> (try split) <;> first | rfl | simp
@[simp] theorem World.vector67_power (w : World) : (w.vector67).power = w.power := by unfold World.vector67; split <;> (try split) <;> first | rfl | simp
@[simp] theorem World.vector67_pins (w : World) : (w.vector67).pins = w.pins := by unfold World.vector67; split <;> (try split) <;> first | rfl | simp
@[simp] theorem World.vector67_pt (w : World) : (w.vector67).pt = w.pt := by unfold World.vector67; split <;> (try split) <;> first | rfl | simp
@[simp] theorem World.vector67_meter (w : World) : (w.vector67).meter = w.meter := by unfold World.vector67; split <;> (try split) <;> first | rfl | simp
@[simp] theorem World.vector67_clock (w : World) : (w.vector67).clock = w.clock := by unfold World.vector67; split <;> (try split) <;> first | rfl | simp
@[simp] theorem World.vector67_log (w : World) : (w.vector67).log = w.log := by unfold World.vector67; split <;> (try split) <;> first | rfl | simp
@[simp] theorem World.vector67_adp (w : World) : (w.vector67).adp = w.adp := by unfold World.vector67; split <;> (try split) <;> first | rfl | simp
@[simp] theorem World.vector67_stn (w : World) : (w.vector67).stn = w.stn := by unfold World.vector67; split <;> (try split) <;> first | rfl | simp
@[simp] theorem World.vector67_sched (w : World) : (w.vector67).sched = w.sched := by unfold World.vector67; split <;> (try split) <;> first | rfl | simp
@[simp] theorem World.vector67_num (w : World) : (w.vector67).num = w.num := by unfold World.vector67; split <;> (try split) <;> first | rfl | simp
@[simp] theorem World.vector67_train (w : World) : (w.vector67).train = w.train := by unfold World.vector67; split <;> (try split) <;> first | rfl | simp
@[simp] theorem World.vector67_mem (w : World) : (w.vector67).mem = w.mem := by unfold World.vector67; split <;> (try split) <;> first | rfl | simp
@[simp] theorem World.vector67_link (w : World) : (w.vector67).link = w.link := by unfold World.vector67; split <;> (try split) <;> first | rfl | simp
@[simp] theorem World.vector67_job (w : World) : (w.vector67).job = w.job := by unfold World.vector67; split <;> (try split) <;> first | rfl | simp
@[simp] theorem World.vector67_sec (w : World) : (w.vector67).sec = w.sec := by unfold World.vector67; split <;> (try split) <;> first | rfl | simp
@[simp] theorem World.vector67_tap (w : World) : (w.vector67).tap = w.tap := by unfold World.vector67; split <;> (try split) <;> first | rfl | simp

@[simp] theorem World.event_live (w : World) (code kind i a b : Nat) : (w.event code kind i a b).live = w.live := by simp only [World.event]; split <;> simp
@[simp] theorem World.event_power (w : World) (code kind i a b : Nat) : (w.event code kind i a b).power = w.power := by simp only [World.event]; split <;> simp
@[simp] theorem World.event_pins (w : World) (code kind i a b : Nat) : (w.event code kind i a b).pins = w.pins := by simp only [World.event]; split <;> simp
@[simp] theorem World.event_pt (w : World) (code kind i a b : Nat) : (w.event code kind i a b).pt = w.pt := by simp only [World.event]; split <;> simp
@[simp] theorem World.event_meter (w : World) (code kind i a b : Nat) : (w.event code kind i a b).meter = w.meter := by simp only [World.event]; split <;> simp
@[simp] theorem World.event_clock (w : World) (code kind i a b : Nat) : (w.event code kind i a b).clock = w.clock := by simp only [World.event]; split <;> simp
@[simp] theorem World.event_adp (w : World) (code kind i a b : Nat) : (w.event code kind i a b).adp = w.adp := by simp only [World.event]; split <;> simp
@[simp] theorem World.event_stn (w : World) (code kind i a b : Nat) : (w.event code kind i a b).stn = w.stn := by simp only [World.event]; split <;> simp
@[simp] theorem World.event_host (w : World) (code kind i a b : Nat) : (w.event code kind i a b).host = w.host := by simp only [World.event]; split <;> simp
@[simp] theorem World.event_sched (w : World) (code kind i a b : Nat) : (w.event code kind i a b).sched = w.sched := by simp only [World.event]; split <;> simp
@[simp] theorem World.event_num (w : World) (code kind i a b : Nat) : (w.event code kind i a b).num = w.num := by simp only [World.event]; split <;> simp
@[simp] theorem World.event_train (w : World) (code kind i a b : Nat) : (w.event code kind i a b).train = w.train := by simp only [World.event]; split <;> simp
@[simp] theorem World.event_mem (w : World) (code kind i a b : Nat) : (w.event code kind i a b).mem = w.mem := by simp only [World.event]; split <;> simp
@[simp] theorem World.event_link (w : World) (code kind i a b : Nat) : (w.event code kind i a b).link = w.link := by simp only [World.event]; split <;> simp
@[simp] theorem World.event_job (w : World) (code kind i a b : Nat) : (w.event code kind i a b).job = w.job := by simp only [World.event]; split <;> simp
@[simp] theorem World.event_sec (w : World) (code kind i a b : Nat) : (w.event code kind i a b).sec = w.sec := by simp only [World.event]; split <;> simp
@[simp] theorem World.event_tap (w : World) (code kind i a b : Nat) : (w.event code kind i a b).tap = w.tap := by simp only [World.event]; split <;> simp
@[simp] theorem World.event_msix (w : World) (code kind i a b : Nat) : (w.event code kind i a b).msix = w.msix := by simp only [World.event]; split <;> simp
@[simp] theorem World.event_out (w : World) (code kind i a b : Nat) : (w.event code kind i a b).out = w.out := by simp only [World.event]; split <;> simp

@[simp] theorem World.countFault_live (w : World) (cause suspect kind i : Nat) : (w.countFault cause suspect kind i).live = w.live := by simp [World.countFault]
@[simp] theorem World.countFault_power (w : World) (cause suspect kind i : Nat) : (w.countFault cause suspect kind i).power = w.power := by simp [World.countFault]
@[simp] theorem World.countFault_pins (w : World) (cause suspect kind i : Nat) : (w.countFault cause suspect kind i).pins = w.pins := by simp [World.countFault]
@[simp] theorem World.countFault_pt (w : World) (cause suspect kind i : Nat) : (w.countFault cause suspect kind i).pt = w.pt := by simp [World.countFault]
@[simp] theorem World.countFault_meter (w : World) (cause suspect kind i : Nat) : (w.countFault cause suspect kind i).meter = w.meter := by simp [World.countFault]
@[simp] theorem World.countFault_clock (w : World) (cause suspect kind i : Nat) : (w.countFault cause suspect kind i).clock = w.clock := by simp [World.countFault]
@[simp] theorem World.countFault_adp (w : World) (cause suspect kind i : Nat) : (w.countFault cause suspect kind i).adp = w.adp := by simp [World.countFault]
@[simp] theorem World.countFault_stn (w : World) (cause suspect kind i : Nat) : (w.countFault cause suspect kind i).stn = w.stn := by simp [World.countFault]
@[simp] theorem World.countFault_host (w : World) (cause suspect kind i : Nat) : (w.countFault cause suspect kind i).host = w.host := by simp [World.countFault]
@[simp] theorem World.countFault_sched (w : World) (cause suspect kind i : Nat) : (w.countFault cause suspect kind i).sched = w.sched := by simp [World.countFault]
@[simp] theorem World.countFault_num (w : World) (cause suspect kind i : Nat) : (w.countFault cause suspect kind i).num = w.num := by simp [World.countFault]
@[simp] theorem World.countFault_train (w : World) (cause suspect kind i : Nat) : (w.countFault cause suspect kind i).train = w.train := by simp [World.countFault]
@[simp] theorem World.countFault_mem (w : World) (cause suspect kind i : Nat) : (w.countFault cause suspect kind i).mem = w.mem := by simp [World.countFault]
@[simp] theorem World.countFault_link (w : World) (cause suspect kind i : Nat) : (w.countFault cause suspect kind i).link = w.link := by simp [World.countFault]
@[simp] theorem World.countFault_job (w : World) (cause suspect kind i : Nat) : (w.countFault cause suspect kind i).job = w.job := by simp [World.countFault]
@[simp] theorem World.countFault_sec (w : World) (cause suspect kind i : Nat) : (w.countFault cause suspect kind i).sec = w.sec := by simp [World.countFault]
@[simp] theorem World.countFault_tap (w : World) (cause suspect kind i : Nat) : (w.countFault cause suspect kind i).tap = w.tap := by simp [World.countFault]
@[simp] theorem World.countFault_msix (w : World) (cause suspect kind i : Nat) : (w.countFault cause suspect kind i).msix = w.msix := by simp [World.countFault]
@[simp] theorem World.countFault_out (w : World) (cause suspect kind i : Nat) : (w.countFault cause suspect kind i).out = w.out := by simp [World.countFault]

@[simp] theorem World.queueFrame_live (w : World) (mac : Nat) (msg : Bytes) : (w.queueFrame mac msg).live = w.live := by unfold World.queueFrame; split <;> rfl
@[simp] theorem World.queueFrame_power (w : World) (mac : Nat) (msg : Bytes) : (w.queueFrame mac msg).power = w.power := by unfold World.queueFrame; split <;> rfl
@[simp] theorem World.queueFrame_pins (w : World) (mac : Nat) (msg : Bytes) : (w.queueFrame mac msg).pins = w.pins := by unfold World.queueFrame; split <;> rfl
@[simp] theorem World.queueFrame_pt (w : World) (mac : Nat) (msg : Bytes) : (w.queueFrame mac msg).pt = w.pt := by unfold World.queueFrame; split <;> rfl
@[simp] theorem World.queueFrame_meter (w : World) (mac : Nat) (msg : Bytes) : (w.queueFrame mac msg).meter = w.meter := by unfold World.queueFrame; split <;> rfl
@[simp] theorem World.queueFrame_clock (w : World) (mac : Nat) (msg : Bytes) : (w.queueFrame mac msg).clock = w.clock := by unfold World.queueFrame; split <;> rfl
@[simp] theorem World.queueFrame_log (w : World) (mac : Nat) (msg : Bytes) : (w.queueFrame mac msg).log = w.log := by unfold World.queueFrame; split <;> rfl
@[simp] theorem World.queueFrame_host (w : World) (mac : Nat) (msg : Bytes) : (w.queueFrame mac msg).host = w.host := by unfold World.queueFrame; split <;> rfl
@[simp] theorem World.queueFrame_sched (w : World) (mac : Nat) (msg : Bytes) : (w.queueFrame mac msg).sched = w.sched := by unfold World.queueFrame; split <;> rfl
@[simp] theorem World.queueFrame_num (w : World) (mac : Nat) (msg : Bytes) : (w.queueFrame mac msg).num = w.num := by unfold World.queueFrame; split <;> rfl
@[simp] theorem World.queueFrame_train (w : World) (mac : Nat) (msg : Bytes) : (w.queueFrame mac msg).train = w.train := by unfold World.queueFrame; split <;> rfl
@[simp] theorem World.queueFrame_mem (w : World) (mac : Nat) (msg : Bytes) : (w.queueFrame mac msg).mem = w.mem := by unfold World.queueFrame; split <;> rfl
@[simp] theorem World.queueFrame_link (w : World) (mac : Nat) (msg : Bytes) : (w.queueFrame mac msg).link = w.link := by unfold World.queueFrame; split <;> rfl
@[simp] theorem World.queueFrame_job (w : World) (mac : Nat) (msg : Bytes) : (w.queueFrame mac msg).job = w.job := by unfold World.queueFrame; split <;> rfl
@[simp] theorem World.queueFrame_sec (w : World) (mac : Nat) (msg : Bytes) : (w.queueFrame mac msg).sec = w.sec := by unfold World.queueFrame; split <;> rfl
@[simp] theorem World.queueFrame_tap (w : World) (mac : Nat) (msg : Bytes) : (w.queueFrame mac msg).tap = w.tap := by unfold World.queueFrame; split <;> rfl
@[simp] theorem World.queueFrame_msix (w : World) (mac : Nat) (msg : Bytes) : (w.queueFrame mac msg).msix = w.msix := by unfold World.queueFrame; split <;> rfl
@[simp] theorem World.queueFrame_out (w : World) (mac : Nat) (msg : Bytes) : (w.queueFrame mac msg).out = w.out := by unfold World.queueFrame; split <;> rfl

@[simp] theorem World.noteWindow_live (w : World) (i sub : Nat) (d : Bytes) : (w.noteWindow i sub d).live = w.live := by simp only [World.noteWindow]; split <;> simp
@[simp] theorem World.noteWindow_power (w : World) (i sub : Nat) (d : Bytes) : (w.noteWindow i sub d).power = w.power := by simp only [World.noteWindow]; split <;> simp
@[simp] theorem World.noteWindow_pins (w : World) (i sub : Nat) (d : Bytes) : (w.noteWindow i sub d).pins = w.pins := by simp only [World.noteWindow]; split <;> simp
@[simp] theorem World.noteWindow_pt (w : World) (i sub : Nat) (d : Bytes) : (w.noteWindow i sub d).pt = w.pt := by simp only [World.noteWindow]; split <;> simp
@[simp] theorem World.noteWindow_meter (w : World) (i sub : Nat) (d : Bytes) : (w.noteWindow i sub d).meter = w.meter := by simp only [World.noteWindow]; split <;> simp
@[simp] theorem World.noteWindow_clock (w : World) (i sub : Nat) (d : Bytes) : (w.noteWindow i sub d).clock = w.clock := by simp only [World.noteWindow]; split <;> simp
@[simp] theorem World.noteWindow_log (w : World) (i sub : Nat) (d : Bytes) : (w.noteWindow i sub d).log = w.log := by simp only [World.noteWindow]; split <;> simp
@[simp] theorem World.noteWindow_host (w : World) (i sub : Nat) (d : Bytes) : (w.noteWindow i sub d).host = w.host := by simp only [World.noteWindow]; split <;> simp
@[simp] theorem World.noteWindow_sched (w : World) (i sub : Nat) (d : Bytes) : (w.noteWindow i sub d).sched = w.sched := by simp only [World.noteWindow]; split <;> simp
@[simp] theorem World.noteWindow_num (w : World) (i sub : Nat) (d : Bytes) : (w.noteWindow i sub d).num = w.num := by simp only [World.noteWindow]; split <;> simp
@[simp] theorem World.noteWindow_train (w : World) (i sub : Nat) (d : Bytes) : (w.noteWindow i sub d).train = w.train := by simp only [World.noteWindow]; split <;> simp
@[simp] theorem World.noteWindow_mem (w : World) (i sub : Nat) (d : Bytes) : (w.noteWindow i sub d).mem = w.mem := by simp only [World.noteWindow]; split <;> simp
@[simp] theorem World.noteWindow_link (w : World) (i sub : Nat) (d : Bytes) : (w.noteWindow i sub d).link = w.link := by simp only [World.noteWindow]; split <;> simp
@[simp] theorem World.noteWindow_job (w : World) (i sub : Nat) (d : Bytes) : (w.noteWindow i sub d).job = w.job := by simp only [World.noteWindow]; split <;> simp
@[simp] theorem World.noteWindow_sec (w : World) (i sub : Nat) (d : Bytes) : (w.noteWindow i sub d).sec = w.sec := by simp only [World.noteWindow]; split <;> simp
@[simp] theorem World.noteWindow_tap (w : World) (i sub : Nat) (d : Bytes) : (w.noteWindow i sub d).tap = w.tap := by simp only [World.noteWindow]; split <;> simp

@[simp] theorem World.noteNode_live (w : World) (n mac i sub : Nat) (d : Bytes) : (w.noteNode n mac i sub d).live = w.live := by simp [World.noteNode]
@[simp] theorem World.noteNode_power (w : World) (n mac i sub : Nat) (d : Bytes) : (w.noteNode n mac i sub d).power = w.power := by simp [World.noteNode]
@[simp] theorem World.noteNode_pins (w : World) (n mac i sub : Nat) (d : Bytes) : (w.noteNode n mac i sub d).pins = w.pins := by simp [World.noteNode]
@[simp] theorem World.noteNode_pt (w : World) (n mac i sub : Nat) (d : Bytes) : (w.noteNode n mac i sub d).pt = w.pt := by simp [World.noteNode]
@[simp] theorem World.noteNode_meter (w : World) (n mac i sub : Nat) (d : Bytes) : (w.noteNode n mac i sub d).meter = w.meter := by simp [World.noteNode]
@[simp] theorem World.noteNode_clock (w : World) (n mac i sub : Nat) (d : Bytes) : (w.noteNode n mac i sub d).clock = w.clock := by simp [World.noteNode]
@[simp] theorem World.noteNode_log (w : World) (n mac i sub : Nat) (d : Bytes) : (w.noteNode n mac i sub d).log = w.log := by simp [World.noteNode]
@[simp] theorem World.noteNode_host (w : World) (n mac i sub : Nat) (d : Bytes) : (w.noteNode n mac i sub d).host = w.host := by simp [World.noteNode]
@[simp] theorem World.noteNode_sched (w : World) (n mac i sub : Nat) (d : Bytes) : (w.noteNode n mac i sub d).sched = w.sched := by simp [World.noteNode]
@[simp] theorem World.noteNode_num (w : World) (n mac i sub : Nat) (d : Bytes) : (w.noteNode n mac i sub d).num = w.num := by simp [World.noteNode]
@[simp] theorem World.noteNode_train (w : World) (n mac i sub : Nat) (d : Bytes) : (w.noteNode n mac i sub d).train = w.train := by simp [World.noteNode]
@[simp] theorem World.noteNode_mem (w : World) (n mac i sub : Nat) (d : Bytes) : (w.noteNode n mac i sub d).mem = w.mem := by simp [World.noteNode]
@[simp] theorem World.noteNode_link (w : World) (n mac i sub : Nat) (d : Bytes) : (w.noteNode n mac i sub d).link = w.link := by simp [World.noteNode]
@[simp] theorem World.noteNode_job (w : World) (n mac i sub : Nat) (d : Bytes) : (w.noteNode n mac i sub d).job = w.job := by simp [World.noteNode]
@[simp] theorem World.noteNode_sec (w : World) (n mac i sub : Nat) (d : Bytes) : (w.noteNode n mac i sub d).sec = w.sec := by simp [World.noteNode]
@[simp] theorem World.noteNode_tap (w : World) (n mac i sub : Nat) (d : Bytes) : (w.noteNode n mac i sub d).tap = w.tap := by simp [World.noteNode]
@[simp] theorem World.noteNode_out (w : World) (n mac i sub : Nat) (d : Bytes) : (w.noteNode n mac i sub d).out = w.out := by simp [World.noteNode]

@[simp] theorem World.noteCarriers_live (w : World) (x y i sub : Nat) (d : Bytes) : (w.noteCarriers x y i sub d).live = w.live := by simp only [World.noteCarriers]; split <;> split <;> simp
@[simp] theorem World.noteCarriers_power (w : World) (x y i sub : Nat) (d : Bytes) : (w.noteCarriers x y i sub d).power = w.power := by simp only [World.noteCarriers]; split <;> split <;> simp
@[simp] theorem World.noteCarriers_pins (w : World) (x y i sub : Nat) (d : Bytes) : (w.noteCarriers x y i sub d).pins = w.pins := by simp only [World.noteCarriers]; split <;> split <;> simp
@[simp] theorem World.noteCarriers_pt (w : World) (x y i sub : Nat) (d : Bytes) : (w.noteCarriers x y i sub d).pt = w.pt := by simp only [World.noteCarriers]; split <;> split <;> simp
@[simp] theorem World.noteCarriers_meter (w : World) (x y i sub : Nat) (d : Bytes) : (w.noteCarriers x y i sub d).meter = w.meter := by simp only [World.noteCarriers]; split <;> split <;> simp
@[simp] theorem World.noteCarriers_clock (w : World) (x y i sub : Nat) (d : Bytes) : (w.noteCarriers x y i sub d).clock = w.clock := by simp only [World.noteCarriers]; split <;> split <;> simp
@[simp] theorem World.noteCarriers_log (w : World) (x y i sub : Nat) (d : Bytes) : (w.noteCarriers x y i sub d).log = w.log := by simp only [World.noteCarriers]; split <;> split <;> simp
@[simp] theorem World.noteCarriers_host (w : World) (x y i sub : Nat) (d : Bytes) : (w.noteCarriers x y i sub d).host = w.host := by simp only [World.noteCarriers]; split <;> split <;> simp
@[simp] theorem World.noteCarriers_sched (w : World) (x y i sub : Nat) (d : Bytes) : (w.noteCarriers x y i sub d).sched = w.sched := by simp only [World.noteCarriers]; split <;> split <;> simp
@[simp] theorem World.noteCarriers_num (w : World) (x y i sub : Nat) (d : Bytes) : (w.noteCarriers x y i sub d).num = w.num := by simp only [World.noteCarriers]; split <;> split <;> simp
@[simp] theorem World.noteCarriers_train (w : World) (x y i sub : Nat) (d : Bytes) : (w.noteCarriers x y i sub d).train = w.train := by simp only [World.noteCarriers]; split <;> split <;> simp
@[simp] theorem World.noteCarriers_mem (w : World) (x y i sub : Nat) (d : Bytes) : (w.noteCarriers x y i sub d).mem = w.mem := by simp only [World.noteCarriers]; split <;> split <;> simp
@[simp] theorem World.noteCarriers_link (w : World) (x y i sub : Nat) (d : Bytes) : (w.noteCarriers x y i sub d).link = w.link := by simp only [World.noteCarriers]; split <;> split <;> simp
@[simp] theorem World.noteCarriers_job (w : World) (x y i sub : Nat) (d : Bytes) : (w.noteCarriers x y i sub d).job = w.job := by simp only [World.noteCarriers]; split <;> split <;> simp
@[simp] theorem World.noteCarriers_sec (w : World) (x y i sub : Nat) (d : Bytes) : (w.noteCarriers x y i sub d).sec = w.sec := by simp only [World.noteCarriers]; split <;> split <;> simp
@[simp] theorem World.noteCarriers_tap (w : World) (x y i sub : Nat) (d : Bytes) : (w.noteCarriers x y i sub d).tap = w.tap := by simp only [World.noteCarriers]; split <;> split <;> simp

@[simp] theorem World.writeDone_live (w : World) (p : Pend) (st : Nat) : (w.writeDone p st).live = w.live := by unfold World.writeDone; split <;> simp
@[simp] theorem World.writeDone_power (w : World) (p : Pend) (st : Nat) : (w.writeDone p st).power = w.power := by unfold World.writeDone; split <;> simp
@[simp] theorem World.writeDone_pins (w : World) (p : Pend) (st : Nat) : (w.writeDone p st).pins = w.pins := by unfold World.writeDone; split <;> simp
@[simp] theorem World.writeDone_pt (w : World) (p : Pend) (st : Nat) : (w.writeDone p st).pt = w.pt := by unfold World.writeDone; split <;> simp
@[simp] theorem World.writeDone_meter (w : World) (p : Pend) (st : Nat) : (w.writeDone p st).meter = w.meter := by unfold World.writeDone; split <;> simp
@[simp] theorem World.writeDone_clock (w : World) (p : Pend) (st : Nat) : (w.writeDone p st).clock = w.clock := by unfold World.writeDone; split <;> simp
@[simp] theorem World.writeDone_log (w : World) (p : Pend) (st : Nat) : (w.writeDone p st).log = w.log := by unfold World.writeDone; split <;> simp
@[simp] theorem World.writeDone_host (w : World) (p : Pend) (st : Nat) : (w.writeDone p st).host = w.host := by unfold World.writeDone; split <;> simp
@[simp] theorem World.writeDone_sched (w : World) (p : Pend) (st : Nat) : (w.writeDone p st).sched = w.sched := by unfold World.writeDone; split <;> simp
@[simp] theorem World.writeDone_num (w : World) (p : Pend) (st : Nat) : (w.writeDone p st).num = w.num := by unfold World.writeDone; split <;> simp
@[simp] theorem World.writeDone_train (w : World) (p : Pend) (st : Nat) : (w.writeDone p st).train = w.train := by unfold World.writeDone; split <;> simp
@[simp] theorem World.writeDone_mem (w : World) (p : Pend) (st : Nat) : (w.writeDone p st).mem = w.mem := by unfold World.writeDone; split <;> simp
@[simp] theorem World.writeDone_link (w : World) (p : Pend) (st : Nat) : (w.writeDone p st).link = w.link := by unfold World.writeDone; split <;> simp
@[simp] theorem World.writeDone_job (w : World) (p : Pend) (st : Nat) : (w.writeDone p st).job = w.job := by unfold World.writeDone; split <;> simp
@[simp] theorem World.writeDone_sec (w : World) (p : Pend) (st : Nat) : (w.writeDone p st).sec = w.sec := by unfold World.writeDone; split <;> simp
@[simp] theorem World.writeDone_tap (w : World) (p : Pend) (st : Nat) : (w.writeDone p st).tap = w.tap := by unfold World.writeDone; split <;> simp

@[simp] theorem World.writeDone?_live (w : World) (p : Option Pend) (st : Nat) : (w.writeDone? p st).live = w.live := by unfold World.writeDone?; split <;> simp
@[simp] theorem World.writeDone?_power (w : World) (p : Option Pend) (st : Nat) : (w.writeDone? p st).power = w.power := by unfold World.writeDone?; split <;> simp
@[simp] theorem World.writeDone?_pins (w : World) (p : Option Pend) (st : Nat) : (w.writeDone? p st).pins = w.pins := by unfold World.writeDone?; split <;> simp
@[simp] theorem World.writeDone?_pt (w : World) (p : Option Pend) (st : Nat) : (w.writeDone? p st).pt = w.pt := by unfold World.writeDone?; split <;> simp
@[simp] theorem World.writeDone?_meter (w : World) (p : Option Pend) (st : Nat) : (w.writeDone? p st).meter = w.meter := by unfold World.writeDone?; split <;> simp
@[simp] theorem World.writeDone?_clock (w : World) (p : Option Pend) (st : Nat) : (w.writeDone? p st).clock = w.clock := by unfold World.writeDone?; split <;> simp
@[simp] theorem World.writeDone?_log (w : World) (p : Option Pend) (st : Nat) : (w.writeDone? p st).log = w.log := by unfold World.writeDone?; split <;> simp
@[simp] theorem World.writeDone?_host (w : World) (p : Option Pend) (st : Nat) : (w.writeDone? p st).host = w.host := by unfold World.writeDone?; split <;> simp
@[simp] theorem World.writeDone?_sched (w : World) (p : Option Pend) (st : Nat) : (w.writeDone? p st).sched = w.sched := by unfold World.writeDone?; split <;> simp
@[simp] theorem World.writeDone?_num (w : World) (p : Option Pend) (st : Nat) : (w.writeDone? p st).num = w.num := by unfold World.writeDone?; split <;> simp
@[simp] theorem World.writeDone?_train (w : World) (p : Option Pend) (st : Nat) : (w.writeDone? p st).train = w.train := by unfold World.writeDone?; split <;> simp
@[simp] theorem World.writeDone?_mem (w : World) (p : Option Pend) (st : Nat) : (w.writeDone? p st).mem = w.mem := by unfold World.writeDone?; split <;> simp
@[simp] theorem World.writeDone?_link (w : World) (p : Option Pend) (st : Nat) : (w.writeDone? p st).link = w.link := by unfold World.writeDone?; split <;> simp
@[simp] theorem World.writeDone?_job (w : World) (p : Option Pend) (st : Nat) : (w.writeDone? p st).job = w.job := by unfold World.writeDone?; split <;> simp
@[simp] theorem World.writeDone?_sec (w : World) (p : Option Pend) (st : Nat) : (w.writeDone? p st).sec = w.sec := by unfold World.writeDone?; split <;> simp
@[simp] theorem World.writeDone?_tap (w : World) (p : Option Pend) (st : Nat) : (w.writeDone? p st).tap = w.tap := by unfold World.writeDone?; split <;> simp

@[simp] theorem World.store_live (w : World) (a : Nat) (bs : Bytes) : (w.store a bs).live = w.live := rfl
@[simp] theorem World.store_power (w : World) (a : Nat) (bs : Bytes) : (w.store a bs).power = w.power := rfl
@[simp] theorem World.store_pins (w : World) (a : Nat) (bs : Bytes) : (w.store a bs).pins = w.pins := rfl
@[simp] theorem World.store_pt (w : World) (a : Nat) (bs : Bytes) : (w.store a bs).pt = w.pt := rfl
@[simp] theorem World.store_meter (w : World) (a : Nat) (bs : Bytes) : (w.store a bs).meter = w.meter := rfl
@[simp] theorem World.store_clock (w : World) (a : Nat) (bs : Bytes) : (w.store a bs).clock = w.clock := rfl
@[simp] theorem World.store_log (w : World) (a : Nat) (bs : Bytes) : (w.store a bs).log = w.log := rfl
@[simp] theorem World.store_adp (w : World) (a : Nat) (bs : Bytes) : (w.store a bs).adp = w.adp := rfl
@[simp] theorem World.store_stn (w : World) (a : Nat) (bs : Bytes) : (w.store a bs).stn = w.stn := rfl
@[simp] theorem World.store_host (w : World) (a : Nat) (bs : Bytes) : (w.store a bs).host = w.host := rfl
@[simp] theorem World.store_sched (w : World) (a : Nat) (bs : Bytes) : (w.store a bs).sched = w.sched := rfl
@[simp] theorem World.store_num (w : World) (a : Nat) (bs : Bytes) : (w.store a bs).num = w.num := rfl
@[simp] theorem World.store_train (w : World) (a : Nat) (bs : Bytes) : (w.store a bs).train = w.train := rfl
@[simp] theorem World.store_link (w : World) (a : Nat) (bs : Bytes) : (w.store a bs).link = w.link := rfl
@[simp] theorem World.store_job (w : World) (a : Nat) (bs : Bytes) : (w.store a bs).job = w.job := rfl
@[simp] theorem World.store_sec (w : World) (a : Nat) (bs : Bytes) : (w.store a bs).sec = w.sec := rfl
@[simp] theorem World.store_tap (w : World) (a : Nat) (bs : Bytes) : (w.store a bs).tap = w.tap := rfl
@[simp] theorem World.store_msix (w : World) (a : Nat) (bs : Bytes) : (w.store a bs).msix = w.msix := rfl
@[simp] theorem World.store_out (w : World) (a : Nat) (bs : Bytes) : (w.store a bs).out = w.out := rfl

@[simp] theorem World.storeStaging_live (w : World) (c a : Nat) (bs : Bytes) : (w.storeStaging c a bs).live = w.live := rfl
@[simp] theorem World.storeStaging_power (w : World) (c a : Nat) (bs : Bytes) : (w.storeStaging c a bs).power = w.power := rfl
@[simp] theorem World.storeStaging_pins (w : World) (c a : Nat) (bs : Bytes) : (w.storeStaging c a bs).pins = w.pins := rfl
@[simp] theorem World.storeStaging_pt (w : World) (c a : Nat) (bs : Bytes) : (w.storeStaging c a bs).pt = w.pt := rfl
@[simp] theorem World.storeStaging_meter (w : World) (c a : Nat) (bs : Bytes) : (w.storeStaging c a bs).meter = w.meter := rfl
@[simp] theorem World.storeStaging_clock (w : World) (c a : Nat) (bs : Bytes) : (w.storeStaging c a bs).clock = w.clock := rfl
@[simp] theorem World.storeStaging_log (w : World) (c a : Nat) (bs : Bytes) : (w.storeStaging c a bs).log = w.log := rfl
@[simp] theorem World.storeStaging_adp (w : World) (c a : Nat) (bs : Bytes) : (w.storeStaging c a bs).adp = w.adp := rfl
@[simp] theorem World.storeStaging_stn (w : World) (c a : Nat) (bs : Bytes) : (w.storeStaging c a bs).stn = w.stn := rfl
@[simp] theorem World.storeStaging_host (w : World) (c a : Nat) (bs : Bytes) : (w.storeStaging c a bs).host = w.host := rfl
@[simp] theorem World.storeStaging_sched (w : World) (c a : Nat) (bs : Bytes) : (w.storeStaging c a bs).sched = w.sched := rfl
@[simp] theorem World.storeStaging_num (w : World) (c a : Nat) (bs : Bytes) : (w.storeStaging c a bs).num = w.num := rfl
@[simp] theorem World.storeStaging_train (w : World) (c a : Nat) (bs : Bytes) : (w.storeStaging c a bs).train = w.train := rfl
@[simp] theorem World.storeStaging_link (w : World) (c a : Nat) (bs : Bytes) : (w.storeStaging c a bs).link = w.link := rfl
@[simp] theorem World.storeStaging_job (w : World) (c a : Nat) (bs : Bytes) : (w.storeStaging c a bs).job = w.job := rfl
@[simp] theorem World.storeStaging_sec (w : World) (c a : Nat) (bs : Bytes) : (w.storeStaging c a bs).sec = w.sec := rfl
@[simp] theorem World.storeStaging_tap (w : World) (c a : Nat) (bs : Bytes) : (w.storeStaging c a bs).tap = w.tap := rfl
@[simp] theorem World.storeStaging_msix (w : World) (c a : Nat) (bs : Bytes) : (w.storeStaging c a bs).msix = w.msix := rfl
@[simp] theorem World.storeStaging_out (w : World) (c a : Nat) (bs : Bytes) : (w.storeStaging c a bs).out = w.out := rfl

@[simp] theorem World.updTask_live (w : World) (id : TaskId) (f : Task → Task) : (w.updTask id f).live = w.live := rfl
@[simp] theorem World.updTask_power (w : World) (id : TaskId) (f : Task → Task) : (w.updTask id f).power = w.power := rfl
@[simp] theorem World.updTask_pins (w : World) (id : TaskId) (f : Task → Task) : (w.updTask id f).pins = w.pins := rfl
@[simp] theorem World.updTask_pt (w : World) (id : TaskId) (f : Task → Task) : (w.updTask id f).pt = w.pt := rfl
@[simp] theorem World.updTask_meter (w : World) (id : TaskId) (f : Task → Task) : (w.updTask id f).meter = w.meter := rfl
@[simp] theorem World.updTask_clock (w : World) (id : TaskId) (f : Task → Task) : (w.updTask id f).clock = w.clock := rfl
@[simp] theorem World.updTask_log (w : World) (id : TaskId) (f : Task → Task) : (w.updTask id f).log = w.log := rfl
@[simp] theorem World.updTask_adp (w : World) (id : TaskId) (f : Task → Task) : (w.updTask id f).adp = w.adp := rfl
@[simp] theorem World.updTask_stn (w : World) (id : TaskId) (f : Task → Task) : (w.updTask id f).stn = w.stn := rfl
@[simp] theorem World.updTask_host (w : World) (id : TaskId) (f : Task → Task) : (w.updTask id f).host = w.host := rfl
@[simp] theorem World.updTask_num (w : World) (id : TaskId) (f : Task → Task) : (w.updTask id f).num = w.num := rfl
@[simp] theorem World.updTask_train (w : World) (id : TaskId) (f : Task → Task) : (w.updTask id f).train = w.train := rfl
@[simp] theorem World.updTask_mem (w : World) (id : TaskId) (f : Task → Task) : (w.updTask id f).mem = w.mem := rfl
@[simp] theorem World.updTask_link (w : World) (id : TaskId) (f : Task → Task) : (w.updTask id f).link = w.link := rfl
@[simp] theorem World.updTask_job (w : World) (id : TaskId) (f : Task → Task) : (w.updTask id f).job = w.job := rfl
@[simp] theorem World.updTask_sec (w : World) (id : TaskId) (f : Task → Task) : (w.updTask id f).sec = w.sec := rfl
@[simp] theorem World.updTask_tap (w : World) (id : TaskId) (f : Task → Task) : (w.updTask id f).tap = w.tap := rfl
@[simp] theorem World.updTask_msix (w : World) (id : TaskId) (f : Task → Task) : (w.updTask id f).msix = w.msix := rfl
@[simp] theorem World.updTask_out (w : World) (id : TaskId) (f : Task → Task) : (w.updTask id f).out = w.out := rfl

@[simp] theorem World.updStage_live (w : World) (id : TaskId) (g : Nat) (f : Stage → Stage) : (w.updStage id g f).live = w.live := rfl
@[simp] theorem World.updStage_power (w : World) (id : TaskId) (g : Nat) (f : Stage → Stage) : (w.updStage id g f).power = w.power := rfl
@[simp] theorem World.updStage_pins (w : World) (id : TaskId) (g : Nat) (f : Stage → Stage) : (w.updStage id g f).pins = w.pins := rfl
@[simp] theorem World.updStage_pt (w : World) (id : TaskId) (g : Nat) (f : Stage → Stage) : (w.updStage id g f).pt = w.pt := rfl
@[simp] theorem World.updStage_meter (w : World) (id : TaskId) (g : Nat) (f : Stage → Stage) : (w.updStage id g f).meter = w.meter := rfl
@[simp] theorem World.updStage_clock (w : World) (id : TaskId) (g : Nat) (f : Stage → Stage) : (w.updStage id g f).clock = w.clock := rfl
@[simp] theorem World.updStage_log (w : World) (id : TaskId) (g : Nat) (f : Stage → Stage) : (w.updStage id g f).log = w.log := rfl
@[simp] theorem World.updStage_adp (w : World) (id : TaskId) (g : Nat) (f : Stage → Stage) : (w.updStage id g f).adp = w.adp := rfl
@[simp] theorem World.updStage_stn (w : World) (id : TaskId) (g : Nat) (f : Stage → Stage) : (w.updStage id g f).stn = w.stn := rfl
@[simp] theorem World.updStage_host (w : World) (id : TaskId) (g : Nat) (f : Stage → Stage) : (w.updStage id g f).host = w.host := rfl
@[simp] theorem World.updStage_num (w : World) (id : TaskId) (g : Nat) (f : Stage → Stage) : (w.updStage id g f).num = w.num := rfl
@[simp] theorem World.updStage_train (w : World) (id : TaskId) (g : Nat) (f : Stage → Stage) : (w.updStage id g f).train = w.train := rfl
@[simp] theorem World.updStage_mem (w : World) (id : TaskId) (g : Nat) (f : Stage → Stage) : (w.updStage id g f).mem = w.mem := rfl
@[simp] theorem World.updStage_link (w : World) (id : TaskId) (g : Nat) (f : Stage → Stage) : (w.updStage id g f).link = w.link := rfl
@[simp] theorem World.updStage_job (w : World) (id : TaskId) (g : Nat) (f : Stage → Stage) : (w.updStage id g f).job = w.job := rfl
@[simp] theorem World.updStage_sec (w : World) (id : TaskId) (g : Nat) (f : Stage → Stage) : (w.updStage id g f).sec = w.sec := rfl
@[simp] theorem World.updStage_tap (w : World) (id : TaskId) (g : Nat) (f : Stage → Stage) : (w.updStage id g f).tap = w.tap := rfl
@[simp] theorem World.updStage_msix (w : World) (id : TaskId) (g : Nat) (f : Stage → Stage) : (w.updStage id g f).msix = w.msix := rfl
@[simp] theorem World.updStage_out (w : World) (id : TaskId) (g : Nat) (f : Stage → Stage) : (w.updStage id g f).out = w.out := rfl

@[simp] theorem World.updStep_live (w : World) (id : TaskId) (f : Step → Step) : (w.updStep id f).live = w.live := rfl
@[simp] theorem World.updStep_power (w : World) (id : TaskId) (f : Step → Step) : (w.updStep id f).power = w.power := rfl
@[simp] theorem World.updStep_pins (w : World) (id : TaskId) (f : Step → Step) : (w.updStep id f).pins = w.pins := rfl
@[simp] theorem World.updStep_pt (w : World) (id : TaskId) (f : Step → Step) : (w.updStep id f).pt = w.pt := rfl
@[simp] theorem World.updStep_meter (w : World) (id : TaskId) (f : Step → Step) : (w.updStep id f).meter = w.meter := rfl
@[simp] theorem World.updStep_clock (w : World) (id : TaskId) (f : Step → Step) : (w.updStep id f).clock = w.clock := rfl
@[simp] theorem World.updStep_log (w : World) (id : TaskId) (f : Step → Step) : (w.updStep id f).log = w.log := rfl
@[simp] theorem World.updStep_adp (w : World) (id : TaskId) (f : Step → Step) : (w.updStep id f).adp = w.adp := rfl
@[simp] theorem World.updStep_stn (w : World) (id : TaskId) (f : Step → Step) : (w.updStep id f).stn = w.stn := rfl
@[simp] theorem World.updStep_host (w : World) (id : TaskId) (f : Step → Step) : (w.updStep id f).host = w.host := rfl
@[simp] theorem World.updStep_sched (w : World) (id : TaskId) (f : Step → Step) : (w.updStep id f).sched = w.sched := rfl
@[simp] theorem World.updStep_num (w : World) (id : TaskId) (f : Step → Step) : (w.updStep id f).num = w.num := rfl
@[simp] theorem World.updStep_mem (w : World) (id : TaskId) (f : Step → Step) : (w.updStep id f).mem = w.mem := rfl
@[simp] theorem World.updStep_link (w : World) (id : TaskId) (f : Step → Step) : (w.updStep id f).link = w.link := rfl
@[simp] theorem World.updStep_job (w : World) (id : TaskId) (f : Step → Step) : (w.updStep id f).job = w.job := rfl
@[simp] theorem World.updStep_sec (w : World) (id : TaskId) (f : Step → Step) : (w.updStep id f).sec = w.sec := rfl
@[simp] theorem World.updStep_tap (w : World) (id : TaskId) (f : Step → Step) : (w.updStep id f).tap = w.tap := rfl
@[simp] theorem World.updStep_msix (w : World) (id : TaskId) (f : Step → Step) : (w.updStep id f).msix = w.msix := rfl
@[simp] theorem World.updStep_out (w : World) (id : TaskId) (f : Step → Step) : (w.updStep id f).out = w.out := rfl

@[simp] theorem World.updQueue_live (w : World) (n : Nat) (f : Queue → Queue) : (w.updQueue n f).live = w.live := rfl
@[simp] theorem World.updQueue_power (w : World) (n : Nat) (f : Queue → Queue) : (w.updQueue n f).power = w.power := rfl
@[simp] theorem World.updQueue_pins (w : World) (n : Nat) (f : Queue → Queue) : (w.updQueue n f).pins = w.pins := rfl
@[simp] theorem World.updQueue_pt (w : World) (n : Nat) (f : Queue → Queue) : (w.updQueue n f).pt = w.pt := rfl
@[simp] theorem World.updQueue_meter (w : World) (n : Nat) (f : Queue → Queue) : (w.updQueue n f).meter = w.meter := rfl
@[simp] theorem World.updQueue_clock (w : World) (n : Nat) (f : Queue → Queue) : (w.updQueue n f).clock = w.clock := rfl
@[simp] theorem World.updQueue_log (w : World) (n : Nat) (f : Queue → Queue) : (w.updQueue n f).log = w.log := rfl
@[simp] theorem World.updQueue_adp (w : World) (n : Nat) (f : Queue → Queue) : (w.updQueue n f).adp = w.adp := rfl
@[simp] theorem World.updQueue_stn (w : World) (n : Nat) (f : Queue → Queue) : (w.updQueue n f).stn = w.stn := rfl
@[simp] theorem World.updQueue_sched (w : World) (n : Nat) (f : Queue → Queue) : (w.updQueue n f).sched = w.sched := rfl
@[simp] theorem World.updQueue_num (w : World) (n : Nat) (f : Queue → Queue) : (w.updQueue n f).num = w.num := rfl
@[simp] theorem World.updQueue_train (w : World) (n : Nat) (f : Queue → Queue) : (w.updQueue n f).train = w.train := rfl
@[simp] theorem World.updQueue_mem (w : World) (n : Nat) (f : Queue → Queue) : (w.updQueue n f).mem = w.mem := rfl
@[simp] theorem World.updQueue_link (w : World) (n : Nat) (f : Queue → Queue) : (w.updQueue n f).link = w.link := rfl
@[simp] theorem World.updQueue_job (w : World) (n : Nat) (f : Queue → Queue) : (w.updQueue n f).job = w.job := rfl
@[simp] theorem World.updQueue_sec (w : World) (n : Nat) (f : Queue → Queue) : (w.updQueue n f).sec = w.sec := rfl
@[simp] theorem World.updQueue_tap (w : World) (n : Nat) (f : Queue → Queue) : (w.updQueue n f).tap = w.tap := rfl
@[simp] theorem World.updQueue_msix (w : World) (n : Nat) (f : Queue → Queue) : (w.updQueue n f).msix = w.msix := rfl
@[simp] theorem World.updQueue_out (w : World) (n : Nat) (f : Queue → Queue) : (w.updQueue n f).out = w.out := rfl

@[simp] theorem World.complete_live (w : World) (t : Task) (st : Nat) : (w.complete t st).live = w.live := by simp only [World.complete]; split <;> simp
@[simp] theorem World.complete_power (w : World) (t : Task) (st : Nat) : (w.complete t st).power = w.power := by simp only [World.complete]; split <;> simp
@[simp] theorem World.complete_pins (w : World) (t : Task) (st : Nat) : (w.complete t st).pins = w.pins := by simp only [World.complete]; split <;> simp
@[simp] theorem World.complete_pt (w : World) (t : Task) (st : Nat) : (w.complete t st).pt = w.pt := by simp only [World.complete]; split <;> simp
@[simp] theorem World.complete_meter (w : World) (t : Task) (st : Nat) : (w.complete t st).meter = w.meter := by simp only [World.complete]; split <;> simp
@[simp] theorem World.complete_clock (w : World) (t : Task) (st : Nat) : (w.complete t st).clock = w.clock := by simp only [World.complete]; split <;> simp
@[simp] theorem World.complete_log (w : World) (t : Task) (st : Nat) : (w.complete t st).log = w.log := by simp only [World.complete]; split <;> simp
@[simp] theorem World.complete_adp (w : World) (t : Task) (st : Nat) : (w.complete t st).adp = w.adp := by simp only [World.complete]; split <;> simp
@[simp] theorem World.complete_stn (w : World) (t : Task) (st : Nat) : (w.complete t st).stn = w.stn := by simp only [World.complete]; split <;> simp
@[simp] theorem World.complete_sched (w : World) (t : Task) (st : Nat) : (w.complete t st).sched = w.sched := by simp only [World.complete]; split <;> simp
@[simp] theorem World.complete_num (w : World) (t : Task) (st : Nat) : (w.complete t st).num = w.num := by simp only [World.complete]; split <;> simp
@[simp] theorem World.complete_train (w : World) (t : Task) (st : Nat) : (w.complete t st).train = w.train := by simp only [World.complete]; split <;> simp
@[simp] theorem World.complete_mem (w : World) (t : Task) (st : Nat) : (w.complete t st).mem = w.mem := by simp only [World.complete]; split <;> simp
@[simp] theorem World.complete_link (w : World) (t : Task) (st : Nat) : (w.complete t st).link = w.link := by simp only [World.complete]; split <;> simp
@[simp] theorem World.complete_job (w : World) (t : Task) (st : Nat) : (w.complete t st).job = w.job := by simp only [World.complete]; split <;> simp
@[simp] theorem World.complete_sec (w : World) (t : Task) (st : Nat) : (w.complete t st).sec = w.sec := by simp only [World.complete]; split <;> simp
@[simp] theorem World.complete_tap (w : World) (t : Task) (st : Nat) : (w.complete t st).tap = w.tap := by simp only [World.complete]; split <;> simp

@[simp] theorem World.settle_live (w : World) (id : TaskId) : (w.settle id).live = w.live := rfl
@[simp] theorem World.settle_power (w : World) (id : TaskId) : (w.settle id).power = w.power := rfl
@[simp] theorem World.settle_pins (w : World) (id : TaskId) : (w.settle id).pins = w.pins := rfl
@[simp] theorem World.settle_pt (w : World) (id : TaskId) : (w.settle id).pt = w.pt := rfl
@[simp] theorem World.settle_meter (w : World) (id : TaskId) : (w.settle id).meter = w.meter := rfl
@[simp] theorem World.settle_clock (w : World) (id : TaskId) : (w.settle id).clock = w.clock := rfl
@[simp] theorem World.settle_log (w : World) (id : TaskId) : (w.settle id).log = w.log := rfl
@[simp] theorem World.settle_adp (w : World) (id : TaskId) : (w.settle id).adp = w.adp := rfl
@[simp] theorem World.settle_stn (w : World) (id : TaskId) : (w.settle id).stn = w.stn := rfl
@[simp] theorem World.settle_host (w : World) (id : TaskId) : (w.settle id).host = w.host := rfl
@[simp] theorem World.settle_num (w : World) (id : TaskId) : (w.settle id).num = w.num := rfl
@[simp] theorem World.settle_train (w : World) (id : TaskId) : (w.settle id).train = w.train := rfl
@[simp] theorem World.settle_mem (w : World) (id : TaskId) : (w.settle id).mem = w.mem := rfl
@[simp] theorem World.settle_link (w : World) (id : TaskId) : (w.settle id).link = w.link := rfl
@[simp] theorem World.settle_job (w : World) (id : TaskId) : (w.settle id).job = w.job := rfl
@[simp] theorem World.settle_sec (w : World) (id : TaskId) : (w.settle id).sec = w.sec := rfl
@[simp] theorem World.settle_tap (w : World) (id : TaskId) : (w.settle id).tap = w.tap := rfl
@[simp] theorem World.settle_msix (w : World) (id : TaskId) : (w.settle id).msix = w.msix := rfl
@[simp] theorem World.settle_out (w : World) (id : TaskId) : (w.settle id).out = w.out := rfl

@[simp] theorem World.updSem_live (w : World) (b : Bool) (n : Nat) (f : Sem → Sem) : (w.updSem b n f).live = w.live := rfl
@[simp] theorem World.updSem_power (w : World) (b : Bool) (n : Nat) (f : Sem → Sem) : (w.updSem b n f).power = w.power := rfl
@[simp] theorem World.updSem_pins (w : World) (b : Bool) (n : Nat) (f : Sem → Sem) : (w.updSem b n f).pins = w.pins := rfl
@[simp] theorem World.updSem_pt (w : World) (b : Bool) (n : Nat) (f : Sem → Sem) : (w.updSem b n f).pt = w.pt := rfl
@[simp] theorem World.updSem_meter (w : World) (b : Bool) (n : Nat) (f : Sem → Sem) : (w.updSem b n f).meter = w.meter := rfl
@[simp] theorem World.updSem_clock (w : World) (b : Bool) (n : Nat) (f : Sem → Sem) : (w.updSem b n f).clock = w.clock := rfl
@[simp] theorem World.updSem_log (w : World) (b : Bool) (n : Nat) (f : Sem → Sem) : (w.updSem b n f).log = w.log := rfl
@[simp] theorem World.updSem_adp (w : World) (b : Bool) (n : Nat) (f : Sem → Sem) : (w.updSem b n f).adp = w.adp := rfl
@[simp] theorem World.updSem_stn (w : World) (b : Bool) (n : Nat) (f : Sem → Sem) : (w.updSem b n f).stn = w.stn := rfl
@[simp] theorem World.updSem_host (w : World) (b : Bool) (n : Nat) (f : Sem → Sem) : (w.updSem b n f).host = w.host := rfl
@[simp] theorem World.updSem_num (w : World) (b : Bool) (n : Nat) (f : Sem → Sem) : (w.updSem b n f).num = w.num := rfl
@[simp] theorem World.updSem_train (w : World) (b : Bool) (n : Nat) (f : Sem → Sem) : (w.updSem b n f).train = w.train := rfl
@[simp] theorem World.updSem_mem (w : World) (b : Bool) (n : Nat) (f : Sem → Sem) : (w.updSem b n f).mem = w.mem := rfl
@[simp] theorem World.updSem_link (w : World) (b : Bool) (n : Nat) (f : Sem → Sem) : (w.updSem b n f).link = w.link := rfl
@[simp] theorem World.updSem_job (w : World) (b : Bool) (n : Nat) (f : Sem → Sem) : (w.updSem b n f).job = w.job := rfl
@[simp] theorem World.updSem_sec (w : World) (b : Bool) (n : Nat) (f : Sem → Sem) : (w.updSem b n f).sec = w.sec := rfl
@[simp] theorem World.updSem_tap (w : World) (b : Bool) (n : Nat) (f : Sem → Sem) : (w.updSem b n f).tap = w.tap := rfl
@[simp] theorem World.updSem_msix (w : World) (b : Bool) (n : Nat) (f : Sem → Sem) : (w.updSem b n f).msix = w.msix := rfl
@[simp] theorem World.updSem_out (w : World) (b : Bool) (n : Nat) (f : Sem → Sem) : (w.updSem b n f).out = w.out := rfl

@[simp] theorem World.unnoise_live (w : World) (id : TaskId) (a n : Nat) : (w.unnoise id a n).live = w.live := rfl
@[simp] theorem World.unnoise_power (w : World) (id : TaskId) (a n : Nat) : (w.unnoise id a n).power = w.power := rfl
@[simp] theorem World.unnoise_pins (w : World) (id : TaskId) (a n : Nat) : (w.unnoise id a n).pins = w.pins := rfl
@[simp] theorem World.unnoise_pt (w : World) (id : TaskId) (a n : Nat) : (w.unnoise id a n).pt = w.pt := rfl
@[simp] theorem World.unnoise_meter (w : World) (id : TaskId) (a n : Nat) : (w.unnoise id a n).meter = w.meter := rfl
@[simp] theorem World.unnoise_clock (w : World) (id : TaskId) (a n : Nat) : (w.unnoise id a n).clock = w.clock := rfl
@[simp] theorem World.unnoise_log (w : World) (id : TaskId) (a n : Nat) : (w.unnoise id a n).log = w.log := rfl
@[simp] theorem World.unnoise_adp (w : World) (id : TaskId) (a n : Nat) : (w.unnoise id a n).adp = w.adp := rfl
@[simp] theorem World.unnoise_stn (w : World) (id : TaskId) (a n : Nat) : (w.unnoise id a n).stn = w.stn := rfl
@[simp] theorem World.unnoise_host (w : World) (id : TaskId) (a n : Nat) : (w.unnoise id a n).host = w.host := rfl
@[simp] theorem World.unnoise_sched (w : World) (id : TaskId) (a n : Nat) : (w.unnoise id a n).sched = w.sched := rfl
@[simp] theorem World.unnoise_num (w : World) (id : TaskId) (a n : Nat) : (w.unnoise id a n).num = w.num := rfl
@[simp] theorem World.unnoise_mem (w : World) (id : TaskId) (a n : Nat) : (w.unnoise id a n).mem = w.mem := rfl
@[simp] theorem World.unnoise_link (w : World) (id : TaskId) (a n : Nat) : (w.unnoise id a n).link = w.link := rfl
@[simp] theorem World.unnoise_job (w : World) (id : TaskId) (a n : Nat) : (w.unnoise id a n).job = w.job := rfl
@[simp] theorem World.unnoise_sec (w : World) (id : TaskId) (a n : Nat) : (w.unnoise id a n).sec = w.sec := rfl
@[simp] theorem World.unnoise_tap (w : World) (id : TaskId) (a n : Nat) : (w.unnoise id a n).tap = w.tap := rfl
@[simp] theorem World.unnoise_msix (w : World) (id : TaskId) (a n : Nat) : (w.unnoise id a n).msix = w.msix := rfl
@[simp] theorem World.unnoise_out (w : World) (id : TaskId) (a n : Nat) : (w.unnoise id a n).out = w.out := rfl

@[simp] theorem World.executed_live (w : World) (id : TaskId) (g : Nat) (r : OpRes) : (w.executed id g r).live = w.live := rfl
@[simp] theorem World.executed_power (w : World) (id : TaskId) (g : Nat) (r : OpRes) : (w.executed id g r).power = w.power := rfl
@[simp] theorem World.executed_pins (w : World) (id : TaskId) (g : Nat) (r : OpRes) : (w.executed id g r).pins = w.pins := rfl
@[simp] theorem World.executed_pt (w : World) (id : TaskId) (g : Nat) (r : OpRes) : (w.executed id g r).pt = w.pt := rfl
@[simp] theorem World.executed_meter (w : World) (id : TaskId) (g : Nat) (r : OpRes) : (w.executed id g r).meter = w.meter := rfl
@[simp] theorem World.executed_clock (w : World) (id : TaskId) (g : Nat) (r : OpRes) : (w.executed id g r).clock = w.clock := rfl
@[simp] theorem World.executed_log (w : World) (id : TaskId) (g : Nat) (r : OpRes) : (w.executed id g r).log = w.log := rfl
@[simp] theorem World.executed_adp (w : World) (id : TaskId) (g : Nat) (r : OpRes) : (w.executed id g r).adp = w.adp := rfl
@[simp] theorem World.executed_stn (w : World) (id : TaskId) (g : Nat) (r : OpRes) : (w.executed id g r).stn = w.stn := rfl
@[simp] theorem World.executed_host (w : World) (id : TaskId) (g : Nat) (r : OpRes) : (w.executed id g r).host = w.host := rfl
@[simp] theorem World.executed_num (w : World) (id : TaskId) (g : Nat) (r : OpRes) : (w.executed id g r).num = w.num := rfl
@[simp] theorem World.executed_train (w : World) (id : TaskId) (g : Nat) (r : OpRes) : (w.executed id g r).train = w.train := rfl
@[simp] theorem World.executed_mem (w : World) (id : TaskId) (g : Nat) (r : OpRes) : (w.executed id g r).mem = w.mem := rfl
@[simp] theorem World.executed_link (w : World) (id : TaskId) (g : Nat) (r : OpRes) : (w.executed id g r).link = w.link := rfl
@[simp] theorem World.executed_job (w : World) (id : TaskId) (g : Nat) (r : OpRes) : (w.executed id g r).job = w.job := rfl
@[simp] theorem World.executed_tap (w : World) (id : TaskId) (g : Nat) (r : OpRes) : (w.executed id g r).tap = w.tap := rfl
@[simp] theorem World.executed_msix (w : World) (id : TaskId) (g : Nat) (r : OpRes) : (w.executed id g r).msix = w.msix := rfl
@[simp] theorem World.executed_out (w : World) (id : TaskId) (g : Nat) (r : OpRes) : (w.executed id g r).out = w.out := rfl

@[simp] theorem World.refuseOp_live (w : World) (t : Task) (g : Nat) (st : Stage) (x : Nat) : (w.refuseOp t g st x).live = w.live := rfl
@[simp] theorem World.refuseOp_power (w : World) (t : Task) (g : Nat) (st : Stage) (x : Nat) : (w.refuseOp t g st x).power = w.power := rfl
@[simp] theorem World.refuseOp_pins (w : World) (t : Task) (g : Nat) (st : Stage) (x : Nat) : (w.refuseOp t g st x).pins = w.pins := rfl
@[simp] theorem World.refuseOp_pt (w : World) (t : Task) (g : Nat) (st : Stage) (x : Nat) : (w.refuseOp t g st x).pt = w.pt := rfl
@[simp] theorem World.refuseOp_meter (w : World) (t : Task) (g : Nat) (st : Stage) (x : Nat) : (w.refuseOp t g st x).meter = w.meter := rfl
@[simp] theorem World.refuseOp_clock (w : World) (t : Task) (g : Nat) (st : Stage) (x : Nat) : (w.refuseOp t g st x).clock = w.clock := rfl
@[simp] theorem World.refuseOp_log (w : World) (t : Task) (g : Nat) (st : Stage) (x : Nat) : (w.refuseOp t g st x).log = w.log := rfl
@[simp] theorem World.refuseOp_adp (w : World) (t : Task) (g : Nat) (st : Stage) (x : Nat) : (w.refuseOp t g st x).adp = w.adp := rfl
@[simp] theorem World.refuseOp_stn (w : World) (t : Task) (g : Nat) (st : Stage) (x : Nat) : (w.refuseOp t g st x).stn = w.stn := rfl
@[simp] theorem World.refuseOp_host (w : World) (t : Task) (g : Nat) (st : Stage) (x : Nat) : (w.refuseOp t g st x).host = w.host := rfl
@[simp] theorem World.refuseOp_num (w : World) (t : Task) (g : Nat) (st : Stage) (x : Nat) : (w.refuseOp t g st x).num = w.num := rfl
@[simp] theorem World.refuseOp_train (w : World) (t : Task) (g : Nat) (st : Stage) (x : Nat) : (w.refuseOp t g st x).train = w.train := rfl
@[simp] theorem World.refuseOp_mem (w : World) (t : Task) (g : Nat) (st : Stage) (x : Nat) : (w.refuseOp t g st x).mem = w.mem := rfl
@[simp] theorem World.refuseOp_link (w : World) (t : Task) (g : Nat) (st : Stage) (x : Nat) : (w.refuseOp t g st x).link = w.link := rfl
@[simp] theorem World.refuseOp_job (w : World) (t : Task) (g : Nat) (st : Stage) (x : Nat) : (w.refuseOp t g st x).job = w.job := rfl
@[simp] theorem World.refuseOp_sec (w : World) (t : Task) (g : Nat) (st : Stage) (x : Nat) : (w.refuseOp t g st x).sec = w.sec := rfl
@[simp] theorem World.refuseOp_tap (w : World) (t : Task) (g : Nat) (st : Stage) (x : Nat) : (w.refuseOp t g st x).tap = w.tap := rfl
@[simp] theorem World.refuseOp_msix (w : World) (t : Task) (g : Nat) (st : Stage) (x : Nat) : (w.refuseOp t g st x).msix = w.msix := rfl
@[simp] theorem World.refuseOp_out (w : World) (t : Task) (g : Nat) (st : Stage) (x : Nat) : (w.refuseOp t g st x).out = w.out := rfl

@[simp] theorem World.updClient_live (w : World) (id : Nat) (f : Client → Client) : (w.updClient id f).live = w.live := rfl
@[simp] theorem World.updClient_power (w : World) (id : Nat) (f : Client → Client) : (w.updClient id f).power = w.power := rfl
@[simp] theorem World.updClient_pins (w : World) (id : Nat) (f : Client → Client) : (w.updClient id f).pins = w.pins := rfl
@[simp] theorem World.updClient_pt (w : World) (id : Nat) (f : Client → Client) : (w.updClient id f).pt = w.pt := rfl
@[simp] theorem World.updClient_meter (w : World) (id : Nat) (f : Client → Client) : (w.updClient id f).meter = w.meter := rfl
@[simp] theorem World.updClient_clock (w : World) (id : Nat) (f : Client → Client) : (w.updClient id f).clock = w.clock := rfl
@[simp] theorem World.updClient_log (w : World) (id : Nat) (f : Client → Client) : (w.updClient id f).log = w.log := rfl
@[simp] theorem World.updClient_adp (w : World) (id : Nat) (f : Client → Client) : (w.updClient id f).adp = w.adp := rfl
@[simp] theorem World.updClient_host (w : World) (id : Nat) (f : Client → Client) : (w.updClient id f).host = w.host := rfl
@[simp] theorem World.updClient_sched (w : World) (id : Nat) (f : Client → Client) : (w.updClient id f).sched = w.sched := rfl
@[simp] theorem World.updClient_num (w : World) (id : Nat) (f : Client → Client) : (w.updClient id f).num = w.num := rfl
@[simp] theorem World.updClient_train (w : World) (id : Nat) (f : Client → Client) : (w.updClient id f).train = w.train := rfl
@[simp] theorem World.updClient_mem (w : World) (id : Nat) (f : Client → Client) : (w.updClient id f).mem = w.mem := rfl
@[simp] theorem World.updClient_link (w : World) (id : Nat) (f : Client → Client) : (w.updClient id f).link = w.link := rfl
@[simp] theorem World.updClient_job (w : World) (id : Nat) (f : Client → Client) : (w.updClient id f).job = w.job := rfl
@[simp] theorem World.updClient_sec (w : World) (id : Nat) (f : Client → Client) : (w.updClient id f).sec = w.sec := rfl
@[simp] theorem World.updClient_tap (w : World) (id : Nat) (f : Client → Client) : (w.updClient id f).tap = w.tap := rfl
@[simp] theorem World.updClient_msix (w : World) (id : Nat) (f : Client → Client) : (w.updClient id f).msix = w.msix := rfl
@[simp] theorem World.updClient_out (w : World) (id : Nat) (f : Client → Client) : (w.updClient id f).out = w.out := rfl

@[simp] theorem World.updChan_live (w : World) (c : Nat) (f : Chan → Chan) : (w.updChan c f).live = w.live := rfl
@[simp] theorem World.updChan_power (w : World) (c : Nat) (f : Chan → Chan) : (w.updChan c f).power = w.power := rfl
@[simp] theorem World.updChan_pins (w : World) (c : Nat) (f : Chan → Chan) : (w.updChan c f).pins = w.pins := rfl
@[simp] theorem World.updChan_pt (w : World) (c : Nat) (f : Chan → Chan) : (w.updChan c f).pt = w.pt := rfl
@[simp] theorem World.updChan_meter (w : World) (c : Nat) (f : Chan → Chan) : (w.updChan c f).meter = w.meter := rfl
@[simp] theorem World.updChan_clock (w : World) (c : Nat) (f : Chan → Chan) : (w.updChan c f).clock = w.clock := rfl
@[simp] theorem World.updChan_log (w : World) (c : Nat) (f : Chan → Chan) : (w.updChan c f).log = w.log := rfl
@[simp] theorem World.updChan_adp (w : World) (c : Nat) (f : Chan → Chan) : (w.updChan c f).adp = w.adp := rfl
@[simp] theorem World.updChan_stn (w : World) (c : Nat) (f : Chan → Chan) : (w.updChan c f).stn = w.stn := rfl
@[simp] theorem World.updChan_host (w : World) (c : Nat) (f : Chan → Chan) : (w.updChan c f).host = w.host := rfl
@[simp] theorem World.updChan_sched (w : World) (c : Nat) (f : Chan → Chan) : (w.updChan c f).sched = w.sched := rfl
@[simp] theorem World.updChan_num (w : World) (c : Nat) (f : Chan → Chan) : (w.updChan c f).num = w.num := rfl
@[simp] theorem World.updChan_train (w : World) (c : Nat) (f : Chan → Chan) : (w.updChan c f).train = w.train := rfl
@[simp] theorem World.updChan_link (w : World) (c : Nat) (f : Chan → Chan) : (w.updChan c f).link = w.link := rfl
@[simp] theorem World.updChan_job (w : World) (c : Nat) (f : Chan → Chan) : (w.updChan c f).job = w.job := rfl
@[simp] theorem World.updChan_sec (w : World) (c : Nat) (f : Chan → Chan) : (w.updChan c f).sec = w.sec := rfl
@[simp] theorem World.updChan_tap (w : World) (c : Nat) (f : Chan → Chan) : (w.updChan c f).tap = w.tap := rfl
@[simp] theorem World.updChan_msix (w : World) (c : Nat) (f : Chan → Chan) : (w.updChan c f).msix = w.msix := rfl
@[simp] theorem World.updChan_out (w : World) (c : Nat) (f : Chan → Chan) : (w.updChan c f).out = w.out := rfl

@[simp] theorem World.updCtx_live (w : World) (c : Nat) (f : Ctx → Ctx) : (w.updCtx c f).live = w.live := rfl
@[simp] theorem World.updCtx_power (w : World) (c : Nat) (f : Ctx → Ctx) : (w.updCtx c f).power = w.power := rfl
@[simp] theorem World.updCtx_pins (w : World) (c : Nat) (f : Ctx → Ctx) : (w.updCtx c f).pins = w.pins := rfl
@[simp] theorem World.updCtx_pt (w : World) (c : Nat) (f : Ctx → Ctx) : (w.updCtx c f).pt = w.pt := rfl
@[simp] theorem World.updCtx_meter (w : World) (c : Nat) (f : Ctx → Ctx) : (w.updCtx c f).meter = w.meter := rfl
@[simp] theorem World.updCtx_clock (w : World) (c : Nat) (f : Ctx → Ctx) : (w.updCtx c f).clock = w.clock := rfl
@[simp] theorem World.updCtx_log (w : World) (c : Nat) (f : Ctx → Ctx) : (w.updCtx c f).log = w.log := rfl
@[simp] theorem World.updCtx_adp (w : World) (c : Nat) (f : Ctx → Ctx) : (w.updCtx c f).adp = w.adp := rfl
@[simp] theorem World.updCtx_stn (w : World) (c : Nat) (f : Ctx → Ctx) : (w.updCtx c f).stn = w.stn := rfl
@[simp] theorem World.updCtx_sched (w : World) (c : Nat) (f : Ctx → Ctx) : (w.updCtx c f).sched = w.sched := rfl
@[simp] theorem World.updCtx_num (w : World) (c : Nat) (f : Ctx → Ctx) : (w.updCtx c f).num = w.num := rfl
@[simp] theorem World.updCtx_train (w : World) (c : Nat) (f : Ctx → Ctx) : (w.updCtx c f).train = w.train := rfl
@[simp] theorem World.updCtx_mem (w : World) (c : Nat) (f : Ctx → Ctx) : (w.updCtx c f).mem = w.mem := rfl
@[simp] theorem World.updCtx_link (w : World) (c : Nat) (f : Ctx → Ctx) : (w.updCtx c f).link = w.link := rfl
@[simp] theorem World.updCtx_job (w : World) (c : Nat) (f : Ctx → Ctx) : (w.updCtx c f).job = w.job := rfl
@[simp] theorem World.updCtx_sec (w : World) (c : Nat) (f : Ctx → Ctx) : (w.updCtx c f).sec = w.sec := rfl
@[simp] theorem World.updCtx_tap (w : World) (c : Nat) (f : Ctx → Ctx) : (w.updCtx c f).tap = w.tap := rfl
@[simp] theorem World.updCtx_msix (w : World) (c : Nat) (f : Ctx → Ctx) : (w.updCtx c f).msix = w.msix := rfl
@[simp] theorem World.updCtx_out (w : World) (c : Nat) (f : Ctx → Ctx) : (w.updCtx c f).out = w.out := rfl

@[simp] theorem World.updTdm_live (w : World) (p : Nat) (f : Tdm → Tdm) : (w.updTdm p f).live = w.live := rfl
@[simp] theorem World.updTdm_power (w : World) (p : Nat) (f : Tdm → Tdm) : (w.updTdm p f).power = w.power := rfl
@[simp] theorem World.updTdm_pins (w : World) (p : Nat) (f : Tdm → Tdm) : (w.updTdm p f).pins = w.pins := rfl
@[simp] theorem World.updTdm_pt (w : World) (p : Nat) (f : Tdm → Tdm) : (w.updTdm p f).pt = w.pt := rfl
@[simp] theorem World.updTdm_meter (w : World) (p : Nat) (f : Tdm → Tdm) : (w.updTdm p f).meter = w.meter := rfl
@[simp] theorem World.updTdm_clock (w : World) (p : Nat) (f : Tdm → Tdm) : (w.updTdm p f).clock = w.clock := rfl
@[simp] theorem World.updTdm_log (w : World) (p : Nat) (f : Tdm → Tdm) : (w.updTdm p f).log = w.log := rfl
@[simp] theorem World.updTdm_adp (w : World) (p : Nat) (f : Tdm → Tdm) : (w.updTdm p f).adp = w.adp := rfl
@[simp] theorem World.updTdm_stn (w : World) (p : Nat) (f : Tdm → Tdm) : (w.updTdm p f).stn = w.stn := rfl
@[simp] theorem World.updTdm_sched (w : World) (p : Nat) (f : Tdm → Tdm) : (w.updTdm p f).sched = w.sched := rfl
@[simp] theorem World.updTdm_num (w : World) (p : Nat) (f : Tdm → Tdm) : (w.updTdm p f).num = w.num := rfl
@[simp] theorem World.updTdm_train (w : World) (p : Nat) (f : Tdm → Tdm) : (w.updTdm p f).train = w.train := rfl
@[simp] theorem World.updTdm_mem (w : World) (p : Nat) (f : Tdm → Tdm) : (w.updTdm p f).mem = w.mem := rfl
@[simp] theorem World.updTdm_link (w : World) (p : Nat) (f : Tdm → Tdm) : (w.updTdm p f).link = w.link := rfl
@[simp] theorem World.updTdm_job (w : World) (p : Nat) (f : Tdm → Tdm) : (w.updTdm p f).job = w.job := rfl
@[simp] theorem World.updTdm_sec (w : World) (p : Nat) (f : Tdm → Tdm) : (w.updTdm p f).sec = w.sec := rfl
@[simp] theorem World.updTdm_tap (w : World) (p : Nat) (f : Tdm → Tdm) : (w.updTdm p f).tap = w.tap := rfl
@[simp] theorem World.updTdm_msix (w : World) (p : Nat) (f : Tdm → Tdm) : (w.updTdm p f).msix = w.msix := rfl
@[simp] theorem World.updTdm_out (w : World) (p : Nat) (f : Tdm → Tdm) : (w.updTdm p f).out = w.out := rfl

@[simp] theorem World.updPort_live (w : World) (k : Nat) (f : Port → Port) : (w.updPort k f).live = w.live := rfl
@[simp] theorem World.updPort_power (w : World) (k : Nat) (f : Port → Port) : (w.updPort k f).power = w.power := rfl
@[simp] theorem World.updPort_pins (w : World) (k : Nat) (f : Port → Port) : (w.updPort k f).pins = w.pins := rfl
@[simp] theorem World.updPort_pt (w : World) (k : Nat) (f : Port → Port) : (w.updPort k f).pt = w.pt := rfl
@[simp] theorem World.updPort_meter (w : World) (k : Nat) (f : Port → Port) : (w.updPort k f).meter = w.meter := rfl
@[simp] theorem World.updPort_clock (w : World) (k : Nat) (f : Port → Port) : (w.updPort k f).clock = w.clock := rfl
@[simp] theorem World.updPort_log (w : World) (k : Nat) (f : Port → Port) : (w.updPort k f).log = w.log := rfl
@[simp] theorem World.updPort_adp (w : World) (k : Nat) (f : Port → Port) : (w.updPort k f).adp = w.adp := rfl
@[simp] theorem World.updPort_stn (w : World) (k : Nat) (f : Port → Port) : (w.updPort k f).stn = w.stn := rfl
@[simp] theorem World.updPort_host (w : World) (k : Nat) (f : Port → Port) : (w.updPort k f).host = w.host := rfl
@[simp] theorem World.updPort_sched (w : World) (k : Nat) (f : Port → Port) : (w.updPort k f).sched = w.sched := rfl
@[simp] theorem World.updPort_num (w : World) (k : Nat) (f : Port → Port) : (w.updPort k f).num = w.num := rfl
@[simp] theorem World.updPort_train (w : World) (k : Nat) (f : Port → Port) : (w.updPort k f).train = w.train := rfl
@[simp] theorem World.updPort_mem (w : World) (k : Nat) (f : Port → Port) : (w.updPort k f).mem = w.mem := rfl
@[simp] theorem World.updPort_job (w : World) (k : Nat) (f : Port → Port) : (w.updPort k f).job = w.job := rfl
@[simp] theorem World.updPort_sec (w : World) (k : Nat) (f : Port → Port) : (w.updPort k f).sec = w.sec := rfl
@[simp] theorem World.updPort_tap (w : World) (k : Nat) (f : Port → Port) : (w.updPort k f).tap = w.tap := rfl
@[simp] theorem World.updPort_msix (w : World) (k : Nat) (f : Port → Port) : (w.updPort k f).msix = w.msix := rfl
@[simp] theorem World.updPort_out (w : World) (k : Nat) (f : Port → Port) : (w.updPort k f).out = w.out := rfl

@[simp] theorem World.updTransfer_live (w : World) (id : Nat) (f : Transfer → Transfer) : (w.updTransfer id f).live = w.live := rfl
@[simp] theorem World.updTransfer_power (w : World) (id : Nat) (f : Transfer → Transfer) : (w.updTransfer id f).power = w.power := rfl
@[simp] theorem World.updTransfer_pins (w : World) (id : Nat) (f : Transfer → Transfer) : (w.updTransfer id f).pins = w.pins := rfl
@[simp] theorem World.updTransfer_pt (w : World) (id : Nat) (f : Transfer → Transfer) : (w.updTransfer id f).pt = w.pt := rfl
@[simp] theorem World.updTransfer_meter (w : World) (id : Nat) (f : Transfer → Transfer) : (w.updTransfer id f).meter = w.meter := rfl
@[simp] theorem World.updTransfer_clock (w : World) (id : Nat) (f : Transfer → Transfer) : (w.updTransfer id f).clock = w.clock := rfl
@[simp] theorem World.updTransfer_log (w : World) (id : Nat) (f : Transfer → Transfer) : (w.updTransfer id f).log = w.log := rfl
@[simp] theorem World.updTransfer_adp (w : World) (id : Nat) (f : Transfer → Transfer) : (w.updTransfer id f).adp = w.adp := rfl
@[simp] theorem World.updTransfer_host (w : World) (id : Nat) (f : Transfer → Transfer) : (w.updTransfer id f).host = w.host := rfl
@[simp] theorem World.updTransfer_sched (w : World) (id : Nat) (f : Transfer → Transfer) : (w.updTransfer id f).sched = w.sched := rfl
@[simp] theorem World.updTransfer_num (w : World) (id : Nat) (f : Transfer → Transfer) : (w.updTransfer id f).num = w.num := rfl
@[simp] theorem World.updTransfer_train (w : World) (id : Nat) (f : Transfer → Transfer) : (w.updTransfer id f).train = w.train := rfl
@[simp] theorem World.updTransfer_mem (w : World) (id : Nat) (f : Transfer → Transfer) : (w.updTransfer id f).mem = w.mem := rfl
@[simp] theorem World.updTransfer_link (w : World) (id : Nat) (f : Transfer → Transfer) : (w.updTransfer id f).link = w.link := rfl
@[simp] theorem World.updTransfer_job (w : World) (id : Nat) (f : Transfer → Transfer) : (w.updTransfer id f).job = w.job := rfl
@[simp] theorem World.updTransfer_sec (w : World) (id : Nat) (f : Transfer → Transfer) : (w.updTransfer id f).sec = w.sec := rfl
@[simp] theorem World.updTransfer_tap (w : World) (id : Nat) (f : Transfer → Transfer) : (w.updTransfer id f).tap = w.tap := rfl
@[simp] theorem World.updTransfer_msix (w : World) (id : Nat) (f : Transfer → Transfer) : (w.updTransfer id f).msix = w.msix := rfl
@[simp] theorem World.updTransfer_out (w : World) (id : Nat) (f : Transfer → Transfer) : (w.updTransfer id f).out = w.out := rfl

/-- An unmasked vector is sent while PERST_N is high (R320, Table 13.3). -/
theorem World.vector_eq_send (w : World) (v : Nat) (h : w.pins.perstN = true) (m : w.masked v = false) : w.vector v = w.send (.msix v) := by
  simp [World.vector, h, m]

/-- No vector changes the MSI-X table. -/
@[simp] theorem World.vector_tab (w : World) (v : Nat) : (w.vector v).msix.tab = w.msix.tab := by unfold World.vector; repeat' (first | rfl | split)

@[simp] theorem World.pause_live (w : World) (r : Run) (pts : List Nat) (c : Cnt) : (w.pause r pts c).live = w.live := by simp [World.pause]
@[simp] theorem World.pause_power (w : World) (r : Run) (pts : List Nat) (c : Cnt) : (w.pause r pts c).power = w.power := by simp [World.pause]
@[simp] theorem World.pause_pins (w : World) (r : Run) (pts : List Nat) (c : Cnt) : (w.pause r pts c).pins = w.pins := by simp [World.pause]
@[simp] theorem World.pause_pt (w : World) (r : Run) (pts : List Nat) (c : Cnt) : (w.pause r pts c).pt = w.pt := by simp [World.pause]
@[simp] theorem World.pause_meter (w : World) (r : Run) (pts : List Nat) (c : Cnt) : (w.pause r pts c).meter = w.meter := by simp [World.pause]
@[simp] theorem World.pause_clock (w : World) (r : Run) (pts : List Nat) (c : Cnt) : (w.pause r pts c).clock = w.clock := by simp [World.pause]
@[simp] theorem World.pause_log (w : World) (r : Run) (pts : List Nat) (c : Cnt) : (w.pause r pts c).log = w.log := by simp [World.pause]
@[simp] theorem World.pause_adp (w : World) (r : Run) (pts : List Nat) (c : Cnt) : (w.pause r pts c).adp = w.adp := by simp [World.pause]
@[simp] theorem World.pause_stn (w : World) (r : Run) (pts : List Nat) (c : Cnt) : (w.pause r pts c).stn = w.stn := by simp [World.pause]
@[simp] theorem World.pause_host (w : World) (r : Run) (pts : List Nat) (c : Cnt) : (w.pause r pts c).host = w.host := by simp [World.pause]
@[simp] theorem World.pause_msix (w : World) (r : Run) (pts : List Nat) (c : Cnt) : (w.pause r pts c).msix = w.msix := by simp [World.pause]
@[simp] theorem World.pause_num (w : World) (r : Run) (pts : List Nat) (c : Cnt) : (w.pause r pts c).num = w.num := by simp [World.pause]
@[simp] theorem World.pause_train (w : World) (r : Run) (pts : List Nat) (c : Cnt) : (w.pause r pts c).train = w.train := by simp [World.pause]
@[simp] theorem World.pause_mem (w : World) (r : Run) (pts : List Nat) (c : Cnt) : (w.pause r pts c).mem = w.mem := by simp [World.pause]
@[simp] theorem World.pause_link (w : World) (r : Run) (pts : List Nat) (c : Cnt) : (w.pause r pts c).link = w.link := by simp [World.pause]
@[simp] theorem World.pause_job (w : World) (r : Run) (pts : List Nat) (c : Cnt) : (w.pause r pts c).job = w.job := by simp [World.pause]
@[simp] theorem World.pause_sec (w : World) (r : Run) (pts : List Nat) (c : Cnt) : (w.pause r pts c).sec = w.sec := by simp [World.pause]
@[simp] theorem World.pause_tap (w : World) (r : Run) (pts : List Nat) (c : Cnt) : (w.pause r pts c).tap = w.tap := by simp [World.pause]
@[simp] theorem World.pause_out (w : World) (r : Run) (pts : List Nat) (c : Cnt) : (w.pause r pts c).out = w.out := by simp [World.pause]

@[simp] theorem World.windowSubmit_live (w : World) (ps : List Peer) : (w.windowSubmit ps).live = w.live := by unfold World.windowSubmit; split <;> rfl
@[simp] theorem World.windowSubmit_power (w : World) (ps : List Peer) : (w.windowSubmit ps).power = w.power := by unfold World.windowSubmit; split <;> rfl
@[simp] theorem World.windowSubmit_pins (w : World) (ps : List Peer) : (w.windowSubmit ps).pins = w.pins := by unfold World.windowSubmit; split <;> rfl
@[simp] theorem World.windowSubmit_pt (w : World) (ps : List Peer) : (w.windowSubmit ps).pt = w.pt := by unfold World.windowSubmit; split <;> rfl
@[simp] theorem World.windowSubmit_meter (w : World) (ps : List Peer) : (w.windowSubmit ps).meter = w.meter := by unfold World.windowSubmit; split <;> rfl
@[simp] theorem World.windowSubmit_clock (w : World) (ps : List Peer) : (w.windowSubmit ps).clock = w.clock := by unfold World.windowSubmit; split <;> rfl
@[simp] theorem World.windowSubmit_log (w : World) (ps : List Peer) : (w.windowSubmit ps).log = w.log := by unfold World.windowSubmit; split <;> rfl
@[simp] theorem World.windowSubmit_adp (w : World) (ps : List Peer) : (w.windowSubmit ps).adp = w.adp := by unfold World.windowSubmit; split <;> rfl
@[simp] theorem World.windowSubmit_host (w : World) (ps : List Peer) : (w.windowSubmit ps).host = w.host := by unfold World.windowSubmit; split <;> rfl
@[simp] theorem World.windowSubmit_msix (w : World) (ps : List Peer) : (w.windowSubmit ps).msix = w.msix := by unfold World.windowSubmit; split <;> rfl
@[simp] theorem World.windowSubmit_sched (w : World) (ps : List Peer) : (w.windowSubmit ps).sched = w.sched := by unfold World.windowSubmit; split <;> rfl
@[simp] theorem World.windowSubmit_num (w : World) (ps : List Peer) : (w.windowSubmit ps).num = w.num := by unfold World.windowSubmit; split <;> rfl
@[simp] theorem World.windowSubmit_train (w : World) (ps : List Peer) : (w.windowSubmit ps).train = w.train := by unfold World.windowSubmit; split <;> rfl
@[simp] theorem World.windowSubmit_mem (w : World) (ps : List Peer) : (w.windowSubmit ps).mem = w.mem := by unfold World.windowSubmit; split <;> rfl
@[simp] theorem World.windowSubmit_link (w : World) (ps : List Peer) : (w.windowSubmit ps).link = w.link := by unfold World.windowSubmit; split <;> rfl
@[simp] theorem World.windowSubmit_job (w : World) (ps : List Peer) : (w.windowSubmit ps).job = w.job := by unfold World.windowSubmit; split <;> rfl
@[simp] theorem World.windowSubmit_sec (w : World) (ps : List Peer) : (w.windowSubmit ps).sec = w.sec := by unfold World.windowSubmit; split <;> rfl
@[simp] theorem World.windowSubmit_tap (w : World) (ps : List Peer) : (w.windowSubmit ps).tap = w.tap := by unfold World.windowSubmit; split <;> rfl
@[simp] theorem World.windowSubmit_out (w : World) (ps : List Peer) : (w.windowSubmit ps).out = w.out := by unfold World.windowSubmit; split <;> rfl

@[simp] theorem World.queueRequest_live (w : World) (ps : List Peer) (mac : Nat) (b : Bytes) : (w.queueRequest ps mac b).live = w.live := by unfold World.queueRequest; split <;> simp
@[simp] theorem World.queueRequest_power (w : World) (ps : List Peer) (mac : Nat) (b : Bytes) : (w.queueRequest ps mac b).power = w.power := by unfold World.queueRequest; split <;> simp
@[simp] theorem World.queueRequest_pins (w : World) (ps : List Peer) (mac : Nat) (b : Bytes) : (w.queueRequest ps mac b).pins = w.pins := by unfold World.queueRequest; split <;> simp
@[simp] theorem World.queueRequest_pt (w : World) (ps : List Peer) (mac : Nat) (b : Bytes) : (w.queueRequest ps mac b).pt = w.pt := by unfold World.queueRequest; split <;> simp
@[simp] theorem World.queueRequest_meter (w : World) (ps : List Peer) (mac : Nat) (b : Bytes) : (w.queueRequest ps mac b).meter = w.meter := by unfold World.queueRequest; split <;> simp
@[simp] theorem World.queueRequest_clock (w : World) (ps : List Peer) (mac : Nat) (b : Bytes) : (w.queueRequest ps mac b).clock = w.clock := by unfold World.queueRequest; split <;> simp
@[simp] theorem World.queueRequest_log (w : World) (ps : List Peer) (mac : Nat) (b : Bytes) : (w.queueRequest ps mac b).log = w.log := by unfold World.queueRequest; split <;> simp
@[simp] theorem World.queueRequest_host (w : World) (ps : List Peer) (mac : Nat) (b : Bytes) : (w.queueRequest ps mac b).host = w.host := by unfold World.queueRequest; split <;> simp
@[simp] theorem World.queueRequest_msix (w : World) (ps : List Peer) (mac : Nat) (b : Bytes) : (w.queueRequest ps mac b).msix = w.msix := by unfold World.queueRequest; split <;> simp
@[simp] theorem World.queueRequest_sched (w : World) (ps : List Peer) (mac : Nat) (b : Bytes) : (w.queueRequest ps mac b).sched = w.sched := by unfold World.queueRequest; split <;> simp
@[simp] theorem World.queueRequest_num (w : World) (ps : List Peer) (mac : Nat) (b : Bytes) : (w.queueRequest ps mac b).num = w.num := by unfold World.queueRequest; split <;> simp
@[simp] theorem World.queueRequest_train (w : World) (ps : List Peer) (mac : Nat) (b : Bytes) : (w.queueRequest ps mac b).train = w.train := by unfold World.queueRequest; split <;> simp
@[simp] theorem World.queueRequest_mem (w : World) (ps : List Peer) (mac : Nat) (b : Bytes) : (w.queueRequest ps mac b).mem = w.mem := by unfold World.queueRequest; split <;> simp
@[simp] theorem World.queueRequest_link (w : World) (ps : List Peer) (mac : Nat) (b : Bytes) : (w.queueRequest ps mac b).link = w.link := by unfold World.queueRequest; split <;> simp
@[simp] theorem World.queueRequest_job (w : World) (ps : List Peer) (mac : Nat) (b : Bytes) : (w.queueRequest ps mac b).job = w.job := by unfold World.queueRequest; split <;> simp
@[simp] theorem World.queueRequest_sec (w : World) (ps : List Peer) (mac : Nat) (b : Bytes) : (w.queueRequest ps mac b).sec = w.sec := by unfold World.queueRequest; split <;> simp
@[simp] theorem World.queueRequest_tap (w : World) (ps : List Peer) (mac : Nat) (b : Bytes) : (w.queueRequest ps mac b).tap = w.tap := by unfold World.queueRequest; split <;> simp
@[simp] theorem World.queueRequest_out (w : World) (ps : List Peer) (mac : Nat) (b : Bytes) : (w.queueRequest ps mac b).out = w.out := by unfold World.queueRequest; split <;> simp

@[simp] theorem World.dictWrite_live (w : World) (ps : List Peer) (off : Nat) (d : Bytes) : (w.dictWrite ps off d).live = w.live := by simp only [World.dictWrite]; (repeat' split) <;> simp
@[simp] theorem World.dictWrite_power (w : World) (ps : List Peer) (off : Nat) (d : Bytes) : (w.dictWrite ps off d).power = w.power := by simp only [World.dictWrite]; (repeat' split) <;> simp
@[simp] theorem World.dictWrite_pins (w : World) (ps : List Peer) (off : Nat) (d : Bytes) : (w.dictWrite ps off d).pins = w.pins := by simp only [World.dictWrite]; (repeat' split) <;> simp
@[simp] theorem World.dictWrite_pt (w : World) (ps : List Peer) (off : Nat) (d : Bytes) : (w.dictWrite ps off d).pt = w.pt := by simp only [World.dictWrite]; (repeat' split) <;> simp
@[simp] theorem World.dictWrite_meter (w : World) (ps : List Peer) (off : Nat) (d : Bytes) : (w.dictWrite ps off d).meter = w.meter := by simp only [World.dictWrite]; (repeat' split) <;> simp
@[simp] theorem World.dictWrite_clock (w : World) (ps : List Peer) (off : Nat) (d : Bytes) : (w.dictWrite ps off d).clock = w.clock := by simp only [World.dictWrite]; (repeat' split) <;> simp
@[simp] theorem World.dictWrite_log (w : World) (ps : List Peer) (off : Nat) (d : Bytes) : (w.dictWrite ps off d).log = w.log := by simp only [World.dictWrite]; (repeat' split) <;> simp
@[simp] theorem World.dictWrite_adp (w : World) (ps : List Peer) (off : Nat) (d : Bytes) : (w.dictWrite ps off d).adp = w.adp := by simp only [World.dictWrite]; (repeat' split) <;> simp
@[simp] theorem World.dictWrite_host (w : World) (ps : List Peer) (off : Nat) (d : Bytes) : (w.dictWrite ps off d).host = w.host := by simp only [World.dictWrite]; (repeat' split) <;> simp
@[simp] theorem World.dictWrite_msix (w : World) (ps : List Peer) (off : Nat) (d : Bytes) : (w.dictWrite ps off d).msix = w.msix := by simp only [World.dictWrite]; (repeat' split) <;> simp
@[simp] theorem World.dictWrite_sched (w : World) (ps : List Peer) (off : Nat) (d : Bytes) : (w.dictWrite ps off d).sched = w.sched := by simp only [World.dictWrite]; (repeat' split) <;> simp
@[simp] theorem World.dictWrite_num (w : World) (ps : List Peer) (off : Nat) (d : Bytes) : (w.dictWrite ps off d).num = w.num := by simp only [World.dictWrite]; (repeat' split) <;> simp
@[simp] theorem World.dictWrite_train (w : World) (ps : List Peer) (off : Nat) (d : Bytes) : (w.dictWrite ps off d).train = w.train := by simp only [World.dictWrite]; (repeat' split) <;> simp
@[simp] theorem World.dictWrite_mem (w : World) (ps : List Peer) (off : Nat) (d : Bytes) : (w.dictWrite ps off d).mem = w.mem := by simp only [World.dictWrite]; (repeat' split) <;> simp
@[simp] theorem World.dictWrite_link (w : World) (ps : List Peer) (off : Nat) (d : Bytes) : (w.dictWrite ps off d).link = w.link := by simp only [World.dictWrite]; (repeat' split) <;> simp
@[simp] theorem World.dictWrite_job (w : World) (ps : List Peer) (off : Nat) (d : Bytes) : (w.dictWrite ps off d).job = w.job := by simp only [World.dictWrite]; (repeat' split) <;> simp
@[simp] theorem World.dictWrite_sec (w : World) (ps : List Peer) (off : Nat) (d : Bytes) : (w.dictWrite ps off d).sec = w.sec := by simp only [World.dictWrite]; (repeat' split) <;> simp
@[simp] theorem World.dictWrite_tap (w : World) (ps : List Peer) (off : Nat) (d : Bytes) : (w.dictWrite ps off d).tap = w.tap := by simp only [World.dictWrite]; (repeat' split) <;> simp
@[simp] theorem World.dictWrite_out (w : World) (ps : List Peer) (off : Nat) (d : Bytes) : (w.dictWrite ps off d).out = w.out := by simp only [World.dictWrite]; (repeat' split) <;> simp

@[simp] theorem World.msixWrite_live (w : World) (off n v : Nat) : (w.msixWrite off n v).live = w.live := by simp only [World.msixWrite]; split <;> simp
@[simp] theorem World.msixWrite_power (w : World) (off n v : Nat) : (w.msixWrite off n v).power = w.power := by simp only [World.msixWrite]; split <;> simp
@[simp] theorem World.msixWrite_pins (w : World) (off n v : Nat) : (w.msixWrite off n v).pins = w.pins := by simp only [World.msixWrite]; split <;> simp
@[simp] theorem World.msixWrite_pt (w : World) (off n v : Nat) : (w.msixWrite off n v).pt = w.pt := by simp only [World.msixWrite]; split <;> simp
@[simp] theorem World.msixWrite_meter (w : World) (off n v : Nat) : (w.msixWrite off n v).meter = w.meter := by simp only [World.msixWrite]; split <;> simp
@[simp] theorem World.msixWrite_clock (w : World) (off n v : Nat) : (w.msixWrite off n v).clock = w.clock := by simp only [World.msixWrite]; split <;> simp
@[simp] theorem World.msixWrite_log (w : World) (off n v : Nat) : (w.msixWrite off n v).log = w.log := by simp only [World.msixWrite]; split <;> simp
@[simp] theorem World.msixWrite_adp (w : World) (off n v : Nat) : (w.msixWrite off n v).adp = w.adp := by simp only [World.msixWrite]; split <;> simp
@[simp] theorem World.msixWrite_stn (w : World) (off n v : Nat) : (w.msixWrite off n v).stn = w.stn := by simp only [World.msixWrite]; split <;> simp
@[simp] theorem World.msixWrite_host (w : World) (off n v : Nat) : (w.msixWrite off n v).host = w.host := by simp only [World.msixWrite]; split <;> simp
@[simp] theorem World.msixWrite_sched (w : World) (off n v : Nat) : (w.msixWrite off n v).sched = w.sched := by simp only [World.msixWrite]; split <;> simp
@[simp] theorem World.msixWrite_num (w : World) (off n v : Nat) : (w.msixWrite off n v).num = w.num := by simp only [World.msixWrite]; split <;> simp
@[simp] theorem World.msixWrite_train (w : World) (off n v : Nat) : (w.msixWrite off n v).train = w.train := by simp only [World.msixWrite]; split <;> simp
@[simp] theorem World.msixWrite_mem (w : World) (off n v : Nat) : (w.msixWrite off n v).mem = w.mem := by simp only [World.msixWrite]; split <;> simp
@[simp] theorem World.msixWrite_link (w : World) (off n v : Nat) : (w.msixWrite off n v).link = w.link := by simp only [World.msixWrite]; split <;> simp
@[simp] theorem World.msixWrite_job (w : World) (off n v : Nat) : (w.msixWrite off n v).job = w.job := by simp only [World.msixWrite]; split <;> simp
@[simp] theorem World.msixWrite_sec (w : World) (off n v : Nat) : (w.msixWrite off n v).sec = w.sec := by simp only [World.msixWrite]; split <;> simp
@[simp] theorem World.msixWrite_tap (w : World) (off n v : Nat) : (w.msixWrite off n v).tap = w.tap := by simp only [World.msixWrite]; split <;> simp

end Sys2Proof.Machine
end

