-- ==== Sys2Proof/Laws/Ops.lean ====
section
/-! SUPPORT. One lemma for each operation that many commands share: what it does where it does anything. -/

namespace Sys2Proof.Machine

/-! Tasks, stages and queues. -/

theorem World.task?_id {w : World} {id : TaskId} {t : Task} (h : w.task? id = some t) : t.id = id := by
  have := List.find?_some h; simpa using this

/-- A change of a task is seen under its ID, where it keeps the ID. -/
theorem World.task?_updTask (w : World) (id : TaskId) (f : Task → Task) (hf : ∀ t, (f t).id = t.id) :
    (w.updTask id f).task? id = (w.task? id).map f := by
  simp only [World.task?, World.updTask]
  induction w.sched.tasks with
  | nil => rfl
  | cons t ts ih =>
    simp only [List.map_cons, List.find?_cons]
    by_cases h : t.id = id
    · simp [h, hf]
    · simp only [beq_eq_false_iff_ne.mpr h, Bool.false_eq_true, if_false]
      exact ih

/-- A change of one task leaves the others. -/
theorem World.task?_updTask_ne (w : World) {id id' : TaskId} (f : Task → Task) (hf : ∀ t, (f t).id = t.id) (hne : id' ≠ id) :
    (w.updTask id f).task? id' = w.task? id' := by
  simp only [World.task?, World.updTask]
  induction w.sched.tasks with
  | nil => rfl
  | cons t ts ih =>
    simp only [List.map_cons, List.find?_cons]
    by_cases h : t.id = id
    · have h' : (t.id == id') = false := by simp [h, Ne.symm hne]
      simp only [h, beq_self_eq_true, if_true, hf]
      rw [h] at h'
      simp only [h']
      exact ih
    · simp only [beq_eq_false_iff_ne.mpr h, Bool.false_eq_true, if_false]
      rw [ih]

/-- A change of a stage is seen under its number. -/
theorem World.stage_updStage (w : World) (id : TaskId) (g : Nat) (f : Stage → Stage) {t : Task} {st : Stage}
    (ht : w.task? id = some t) (hs : t.stgs[g]? = some st) :
    ((w.updStage id g f).task? id).bind (fun t => t.stgs[g]?) = some (f st) := by
  have h := World.task?_updTask w id (fun t => { t with stgs := modAt t.stgs g f }) (fun _ => rfl)
  rw [World.updStage, h, ht]
  simp [modAt, hs]

/-- A queue after its change. -/
theorem World.queue_updQueue (w : World) (n : Nat) (f : Queue → Queue) (m : Nat) :
    (w.updQueue n f).queue m = if m = n then f (w.queue n) else w.queue m :=
  Tab.get_set _ _ _ _ m

/-! Operations. -/

/-- An operation that is ready executes. -/
theorem World.operate_ready {w w' : World} {q s g opc : Nat} {pts : List Nat} {mods : Nat → Bool} {extra : World → Run → List Fail}
    {reads : World → Run → List (List Region)} {run : World → Run → World × Done} {r : Run}
    (h : w.prepare q s g pts opc mods extra reads = (w', some r)) : w.operate q s g pts opc mods extra reads run = w'.execute run r := by
  simp only [World.operate, h]

/-- An operation that is not ready only does what its preparation does. -/
theorem World.operate_unready {w w' : World} {q s g opc : Nat} {pts : List Nat} {mods : Nat → Bool} {extra : World → Run → List Fail}
    {reads : World → Run → List (List Region)} {run : World → Run → World × Done}
    (h : w.prepare q s g pts opc mods extra reads = (w', none)) : w.operate q s g pts opc mods extra reads run = w' := by
  simp only [World.operate, h]

/-- A whole operation, and any dot product, runs by its rule. -/
theorem World.advance_rule {w : World} {r : Run} {run : World → Run → World × Done} (hp : r.part.isNone = true ∨ r.d.preClass = .tiles) :
    World.advance run w r = run w r := by
  rcases hp with h | h <;> simp [World.advance, h]

/-- A rule that answers a result is recorded. -/
theorem World.execute_some {w w' : World} {r : Run} {run : World → Run → World × Done} {res : OpRes}
    (hp : r.part.isNone = true ∨ r.d.preClass = .tiles) (h : run w r = (w', some res)) : w.execute run r = w'.executed r.t.id r.g res := by
  simp only [World.execute, World.advance_rule hp, h]

/-- A rule that answers none has set the stage's phase itself. -/
theorem World.execute_none {w w' : World} {r : Run} {run : World → Run → World × Done}
    (hp : r.part.isNone = true ∨ r.d.preClass = .tiles) (h : run w r = (w', none)) : w.execute run r = w' := by
  simp only [World.execute, World.advance_rule hp, h]

/-- A part of an operation that is not its last leaves the operation at its points, with its counts so far (R69, R73). -/
theorem World.execute_part {w : World} {r : Run} {run : World → Run → World × Done} (hp : r.part.isNone = false)
    (hc : r.d.preClass ≠ .tiles) (he : r.toEnd = false) : w.execute run r =
      if r.d.piecewise then (run w r).1.pause r r.reached ((run w r).2.elim {} (fun res => ⟨res.sat, res.flush⟩))
      else w.pause r r.reached {} := by
  simp only [World.execute, World.advance, hp, he, Bool.false_or, beq_eq_false_iff_ne.mpr hc]
  by_cases hw : r.d.piecewise = true <;> simp [hw]

/-- What gathering readies is the run of the stage that it was given, its slot exponents latched. -/
theorem World.gather_run {w w' : World} {t : Task} {g : Nat} {st : Stage} {reads : World → Run → List (List Region)} {r : Run}
    (h : w.gather t g st reads = (w', some r)) : r = w.runOf t g (w.latchSlots t g st) := by
  simp only [World.gather] at h
  split at h
  · cases h
  · split at h
    · cases h
    · split at h
      · cases h
      · simp only [Prod.mk.injEq, Option.some.injEq] at h
        exact h.2.symm

/-- Latching the slot exponents leaves the descriptor. -/
@[simp] theorem World.latchSlots_desc (w : World) (t : Task) (g : Nat) (st : Stage) : (w.latchSlots t g st).desc = st.desc := by
  unfold World.latchSlots; split <;> rfl

/-- What gathering readies is a run of the stage's descriptor. -/
theorem World.gather_desc {w w' : World} {t : Task} {g : Nat} {st : Stage} {reads : World → Run → List (List Region)} {r : Run}
    (h : w.gather t g st reads = (w', some r)) : r.d = Desc.ofBytes st.desc := by
  rw [World.gather_run h]
  exact congrArg Desc.ofBytes (World.latchSlots_desc w t g st)

/-- What a start readies is a run of the descriptor that it was given. -/
theorem World.startOp_desc {w w' : World} {t : Task} {g : Nat} {st : Stage} {bs : Bytes} {extra : World → Run → List Fail}
    {reads : World → Run → List (List Region)} {r : Run} (h : w.startOp t g st bs extra reads = (w', some r)) : r.d = Desc.ofBytes bs := by
  simp only [World.startOp] at h
  repeat' split at h
  all_goals first
    | (cases h; done)
    | exact World.gather_desc h

/-- An operation that is reached is one of the command's row (R114). -/
theorem World.reach_row {w w' : World} {q s g opc : Nat} {mods : Nat → Bool} {extra : World → Run → List Fail}
    {reads : World → Run → List (List Region)} {r : Run} (h : w.reach q s g opc mods extra reads = (w', some r)) :
    r.d.opc = opc ∧ mods r.d.mod = true := by
  simp only [World.reach] at h
  have key : ∀ (bs : Bytes) {b : Bool}, ((Desc.ofBytes bs).opc == opc && mods (Desc.ofBytes bs).mod && b) = true → r.d = Desc.ofBytes bs →
      r.d.opc = opc ∧ mods r.d.mod = true := by
    intro bs b hm hd
    rw [hd]
    simp only [Bool.and_eq_true, beq_iff_eq] at hm
    exact hm.1
  repeat' split at h
  all_goals first
    | (cases h; done)
    | exact key _ (by assumption) (World.gather_desc h)
    | exact key _ (by assumption) (World.startOp_desc h)

/-- What is prepared is the run that is reached, with the part that the command's points and its cores give it. -/
theorem World.prepare_reach {w w' : World} {q s g opc : Nat} {pts : List Nat} {mods : Nat → Bool} {extra : World → Run → List Fail}
    {reads : World → Run → List (List Region)} {r : Run} (h : w.prepare q s g pts opc mods extra reads = (w', some r)) :
    ∃ r', w.reach q s g opc mods extra reads = (w', some r') ∧
      r = { r' with part := w.spanOf r' (((w'.task? r'.t.id).bind (fun t => t.stgs[r'.g]?)).getD {}) pts } := by
  simp only [World.prepare] at h
  split at h
  · rename_i hr
    simp only [Prod.mk.injEq, Option.some.injEq] at h
    obtain ⟨rfl, rfl⟩ := h
    exact ⟨_, hr, rfl⟩
  · simp at h

/-- An operation that is ready is one of the command's row (R114). -/
theorem World.prepare_row {w w' : World} {q s g opc : Nat} {pts : List Nat} {mods : Nat → Bool} {extra : World → Run → List Fail}
    {reads : World → Run → List (List Region)} {r : Run} (h : w.prepare q s g pts opc mods extra reads = (w', some r)) :
    r.d.opc = opc ∧ mods r.d.mod = true := by
  obtain ⟨r', hr, rfl⟩ := World.prepare_reach h
  exact (World.reach_row hr : r'.d.opc = opc ∧ mods r'.d.mod = true)

/-! The event log (R403). -/

/-- An event takes the next sequence number, staged or dropped. -/
theorem World.event_seq (w : World) (code kind i a b : Nat) : (w.event code kind i a b).log.seq = (w.log.seq + 1) % 2 ^ 32 := by
  simp only [World.event]
  split <;> rfl

/-- An event is staged where the buffer has room. -/
theorem World.event_staged {w : World} (code kind i a b : Nat) (h : w.log.staged.length < 64) :
    (w.event code kind i a b).log.staged =
      w.log.staged ++ [{ ns := w.now, seq := w.log.seq, code := code, kind := kind, inst := i, a1 := a, a2 := b }] := by
  simp only [World.event, h, if_true]

/-- A completion is written to the slot that the queue's count gives (R103, R325). -/
theorem World.complete_writes (w : World) (t : Task) (st : Nat) :
    let q := w.queue t.id.queue
    Out.hostWrite (q.compBase + 16 * (q.c % q.e)) (completionBytes q t st w.now) ∈ (w.complete t st).out := by
  simp only [World.complete]
  split
  · simp only [World.updQueue_out, World.vector]
    repeat' split
    all_goals simp [World.send]
  · simp [World.send]

end Sys2Proof.Machine
end

