-- ==== Sys2Proof/WellFormed.lean ====
section
/-! DEFINITION. Which commands are well formed: every operand in the range that its encoding, its table or its object gives it. A
meaning leaves the engine as it is where an ill-formed operand names nothing (log entry 2). -/

namespace Sys2Proof

/-- A number of `n` bits. -/
def u (n v : Nat) : Bool := decide (v < 2 ^ n)

/-- The first byte of a run. -/
def leAt0 (b : Bytes) : Nat := (b.headD 0#8).toNat

/-- A node is 0 to 31, and a MAC address has 48 bits (R298). -/
def Src.ok : Src → Bool
  | .window => true
  | .node n mac => decide (n < 32) && u 48 mac

/-- A transaction ID and a selector override have 16 bits (Table 12.4). -/
def Req.ok (r : Req) : Bool := r.src.ok && u 16 r.txn && r.sel.all (u 16)

/-- A frame's two addresses have 48 bits, and its EtherType 16. -/
def Carrier.ok : Carrier → Bool
  | .window => true
  | .frame d s e _ _ => u 48 d && u 48 s && u 16 e

/-- What another engine of a job reports (R11, R210). -/
def Peer.ok (p : Peer) : Bool :=
  u 16 p.stepping && u 16 p.fwHigh && u 8 p.cls && u 8 p.size && u 8 p.grid && decide (p.tray < 16) && decide (p.slot < 16)

/-- A neighbour's identity (Table 9.1). -/
def Nbr.ok (n : Nbr) : Bool := u 64 n.chip && u 8 n.cls && decide (n.tray < 16) && decide (n.slot < 16) && decide (n.port < 4)

/-- A link header (Table 9.2). -/
def RxHdr.ok (h : RxHdr) : Bool := u 12 h.seq && u 12 h.ack && decide (h.vc < 4) && decide (h.dlc < 2) && decide (h.reserved < 4) &&
  h.bad.all (fun b => decide (0 < b.1))

/-- A message header (Table 9.5). -/
def MsgHdr.ok (m : MsgHdr) : Bool :=
  u 8 m.dst && u 8 m.src && u 8 m.srcLog && u 16 m.tag && u 16 m.len && u 48 m.addr && u 16 m.epoch

/-- A stage of a task of one of 64 queues (Table 13.6). -/
def opOk (q s g : Nat) : Bool := decide (q < 64) && u 32 s && decide (g < 16)

/-- The kinds of Table 12.5 that a client sends. -/
def clientKinds : List Nat := [0x01, 0x02, 0x03, 0x04, 0x05, 0x08, 0x11]

/-- A message of a kind (Table 12.5); READ's row also carries every kind that no row has. -/
def msgOk (kind : Nat) (car : Carrier) (msg : Bytes) : Bool :=
  let k := leAt0 (msg.drop 1)
  car.ok && decide (msg.length ≤ 1500) && (k == kind || (kind == 1 && !clientKinds.contains k))

/-- Whether a command is well formed. A stage has at most sixteen cores, and so many points. -/
def Instr.wf : Instr → Bool
  | .prodWrite q p => decide (q < 64) && u 32 p
  | .taskFetch q desc => decide (q < 64) && decide (desc.length = 64)
  | .cackWrite q a => decide (q < 64) && u 32 a
  | .cancelWrite q s
  | .holdBudgetExpiry q s
  | .phaseMarkRelease q s
  | .stepAdmission q s
  | .stepAbandon q s
  | .taskPlacement q s => decide (q < 64) && u 32 s
  | .streamInputWritten q v => decide (q < 64) && decide (v < 128)
  | .streamOutputTaken q v => decide (q < 64) && (decide (128 ≤ v) && decide (v < 256))
  | .coalescingTimeout q => decide (q < 64)
  | .queueDisable r q
  | .queueEnable r q
  | .queueReset r q => r.ok && decide (q < 64)
  | .functionLevelReset
  | .perstNLow
  | .regulatorRefill
  | .memBandConflict
  | .numBandConflict
  | .pwrBandConflict
  | .heartbeatSend
  | .ceilingApply
  | .ceilingVote
  | .censusTimeout
  | .wakeRise
  | .wakeFall
  | .wakeStageTimeout
  | .retrySettleEnd
  | .readyBurst
  | .wakeFailedExit
  | .unwindDone
  | .idleEntryDone
  | .dozeExitPcie
  | .dozeResidencyEnd
  | .powerDownStepDone
  | .resetNLow
  | .vinLoss
  | .voltageRampDone
  | .currentClampReleaseStep
  | .thermalTripRelease
  | .pwrAlertFall
  | .pwrAlertRise
  | .pwrAlertHoldEnd
  | .regulatorAlert
  | .regulatorAlertClear
  | .coolOkFall
  | .haltRelease
  | .regulatorCalibrationStart
  | .regulatorCalibrationDone
  | .watchCompare
  | .plcaBeacon
  | .transmitOpportunity
  | .beaconLoss
  | .firmwareLoadDone
  | .watchdog
  | .eventLogCopy
  | .calibrationStale
  | .tapIdcode
  | .tapExtest
  | .tapHighz
  | .tapClamp
  | .testLogicReset
  | .coolOkRise
  | .resetNRelease
  | .dozeExitComplete
  | .checkpointRestoreDone
  | .tenantCommandDone
  | .telemetrySampleDropped => true
  | .linkDown lost => u 32 lost
  | .pcieLinkTraining speed width => (decide (1 ≤ speed) && decide (speed ≤ 4)) && [1, 2, 4].contains width
  | .windowRead off len => u 30 off && (decide (0 < len) && decide (off + len ≤ 2 ^ 30))
  | .windowWrite off data => u 30 off && (decide (0 < data.length) && decide (off + data.length ≤ 2 ^ 30))
  | .tdmPortEnable r p => r.ok && decide (p < 2)
  | .tdmFrameStart c bclks => decide (c < 128) && u 16 bclks
  | .tdmFrameEnd c codes => decide (c < 128) && codes.all (u 32)
  | .clockLoss p => decide (p < 2)
  | .contextOpen r c
  | .contextClose r c => r.ok && decide (c < 128)
  | .playoutDue c => decide (c < 128)
  | .nopOp q s g
  | .endOp q s g
  | .jumpOp q s g
  | .tstamp q s g
  | .dropOp q s g
  | .scaleupd q s g
  | .reel q s g
  | .commit q s g
  | .ckpt q s g
  | .allreduceSum q s g
  | .allreduceMax q s g
  | .allreduceMin q s g
  | .reduceRootSum q s g
  | .reduceRootMax q s g
  | .reduceRootMin q s g
  | .broadcast q s g
  | .allgather q s g
  | .barrier q s g
  | .opComplete q s g => opOk q s g
  | .copyOp q s r
  | .fillOp q s r
  | .loads q s r
  | .stores q s r
  | .gather q s r
  | .scatter q s r
  | .transpose q s r
  | .prefetch q s r
  | .matmul q s r
  | .matmult q s r
  | .conv1d q s r
  | .reduceSum q s r
  | .reduceSumsq q s r
  | .reduceMax q s r
  | .reduceMin q s r
  | .reduceAmax q s r
  | .reduceArgmax q s r
  | .reduceArgmin q s r
  | .vadd q s r
  | .vmul q s r
  | .vfma q s r
  | .vmax q s r
  | .vmin q s r
  | .vfuncRelu q s r
  | .vfuncGelu q s r
  | .vfuncSilu q s r
  | .vfuncTanh q s r
  | .vfuncSigmoid q s r
  | .vfuncExp q s r
  | .vfuncReciprocal q s r
  | .vfuncRsqrt q s r
  | .vfuncSqrt q s r
  | .vfuncAbs q s r
  | .vfuncNegation q s r
  | .softmax q s r
  | .layerNorm q s r
  | .rmsNorm q s r
  | .vscale q s r
  | .vselect q s r
  | .convert q s r
  | .observe q s r
  | .actsave q s r
  | .actload q s r
  | .gnorm q s r
  | .clipnoise q s r
  | .pushpost q s r
  | .rngbits q s r
  | .rnguni q s r
  | .rnggauss q s r
  | .dropout q s r => opOk q s r.stage && decide (r.upto.length ≤ 16)
  | .semRelease _ n => decide (n < 256)
  | .preemptionPoint q s core
  | .contextSaveDone q s core
  | .drainTimeout q s core => decide (q < 64) && u 32 s && decide (core < 16)
  | .drainComplete q s core ns => decide (q < 64) && u 32 s && decide (core < 16) && u 64 ns
  | .contextRestoreDone q s core _ => decide (q < 64) && u 32 s && decide (core < 16)
  | .semValueWrite r v => r.ok && u 16 v
  | .interferenceWindowEnd cycles => decide (cycles.length = 8)
  | .sliceRead core addr mask _ => decide (core < 16) && u 48 addr && decide (mask < 16)
  | .sliceWrite core addr data _ => decide (core < 16) && u 48 addr && (decide (0 < data.length) && decide (addr % 128 + data.length ≤ 128))
  | .sectorFill slice line sector ecc => decide (slice < 16) && u 40 line && decide (sector < 4) && decide (ecc ≤ 3)
  | .streamBypassWindow slice
  | .compressionSampleEnd slice
  | .forcedScrubSpell slice => decide (slice < 16)
  | .patrolScrubRead ch addr ecc _ _ => decide (ch < 16) && u 40 addr && decide (ecc ≤ 2)
  | .sliceScrub slice set way sector ecc => decide (slice < 16) && decide (set < 256) && decide (way < 16) && decide (sector < 8) && decide (ecc ≤ 2)
  | .refresh ch _ => decide (ch < 16)
  | .calibrationDue c
  | .forcedCalibration c => decide (c.ch < 16)
  | .calibrationRun c deferUs => decide (c.ch < 16) && u 32 deferUs
  | .jobStart r peers => r.ok && peers.all Peer.ok
  | .jobStop r
  | .requestActive r
  | .requestIdle r
  | .requestDoze r
  | .levelChallenge r
  | .programStagedRecord r
  | .retireFactoryLevel r
  | .debugChallenge r
  | .disableDebug r => r.ok
  | .portTrainingStageDone k nbr => decide (k < 4) && nbr.ok
  | .portTrainingTimeout k
  | .creditReturnTimer k
  | .ackProgressTimeout k
  | .heartbeatTimeout k => decide (k < 4)
  | .controlFlit k h credits nak => decide (k < 4) && h.ok && (credits.length == 8 && credits.all (u 16)) && u 16 nak
  | .heartbeat k blk
  | .ceiling k blk
  | .faultFlood k blk
  | .remap k blk
  | .resume k blk => decide (k < 4) && u 56 blk
  | .readMsg k h m
  | .writeAckMsg k h m => decide (k < 4) && h.ok && m.ok
  | .readDataMsg k h m data
  | .writeMsg k h m data
  | .checkpointCopyMsg k h m data => decide (k < 4) && h.ok && m.ok && decide (data.length < 2 ^ 16)
  | .pushpostPostMsg k h m sem q slot core => decide (k < 4) && h.ok && m.ok && decide (sem < 256) && decide (q < 64) && u 12 slot && decide (core < 16)
  | .collectiveSetupMsg k h m lam node span _ => decide (k < 4) && h.ok && m.ok && decide (lam < 8) && decide (node < 256) && decide (span < 256)
  | .collectiveData k h m lam node span _ data => decide (k < 4) && h.ok && m.ok && decide (lam < 8) && decide (node < 256) && decide (span < 256) && decide (data.length < 2 ^ 32)
  | .latenessDeadline q s g node => decide (q < 64) && u 32 s && decide (g < 16) && decide (node < 256)
  | .skipNoticeMsg k h m lam node span => decide (k < 4) && h.ok && m.ok && decide (lam < 8) && decide (node < 256) && decide (span < 256)
  | .voteMsg k h m kind _ status value => decide (k < 4) && h.ok && m.ok && decide (kind < 16) && u 16 status && u 32 value
  | .semaphoreMsg k h m op sem q slot core rank => decide (k < 4) && h.ok && m.ok && decide (op < 10) && decide (sem < 256) && decide (q < 64) && u 12 slot && decide (core < 16) && decide (rank < 32)
  | .censusMsg k h m _ => decide (k < 4) && h.ok && m.ok
  | .wakeStageDone straps => u 21 straps
  | .dozeExitFrame car msg => car.ok && decide (msg.length ≤ 1500)
  | .dvfsSample doms vin => (doms.length == 4 && doms.all (u 32)) && u 16 vin
  | .currentClampEngage ma => u 16 ma
  | .sensorSample temps => decide (temps.length = 24)
  | .adpRead car msg => msgOk 1 car msg
  | .adpWrite car msg => msgOk 2 car msg
  | .readSeg car msg => msgOk 3 car msg
  | .writeSeg car msg => msgOk 4 car msg
  | .adpAbort car msg => msgOk 5 car msg
  | .discover car msg => msgOk 8 car msg
  | .notifyAck car msg => msgOk 17 car msg
  | .segmentTimeout client
  | .levelIdleTimeout client => (decide (client < 32) || client == 254)
  | .windowGo msg x => decide (msg.length ≤ 1040) && (x.n == 1 || x.n == 2 || x.n == 4) && decide (x.v < 256 ^ x.n)
  | .windowStatusClear x
  | .notificationRingTailWrite x => (x.n == 1 || x.n == 2 || x.n == 4) && decide (x.v < 256 ^ x.n)
  | .notifyResend seq => u 16 seq
  | .levelResponse r data
  | .debugResponse r data => r.ok && decide (data.length ≤ 1024)
  | .closeLevel r v
  | .relockDebug r v => r.ok && decide (v < 256)
  | .challengeExpiry client _
  | .lockoutExpiry client _ => (decide (client < 32) || client == 254)
  | .otpWordProgrammed _
  | .entropyHealthTestFail _ => true
  | .firmwareLoad r addr len => r.ok && u 64 addr && u 32 len
  | .programKeySlot r slot hash => r.ok && decide (slot < 256) && decide (hash.length = 32)
  | .revokeKeySlot r slot => r.ok && decide (slot < 256)
  | .sessionOpen r data => r.ok && (data.length == 32 && leAt0 data == 1)
  | .sessionClose r data => r.ok && (data.length == 32 && leAt0 data == 2)
  | .createTenant r data => r.ok && decide (data.length = 128)
  | .tenantImport r data => r.ok && (data.length == 48 && leAt0 data == 1)
  | .tenantRetire r data => r.ok && (data.length == 48 && leAt0 data == 2)
  | .coreError core => decide (core < 16)
  | .tapBypass x => decide (x.tdi < 2) && u 8 x.code
  | .tapSample cells => u 25 cells
  | .dozeEnergyIntegration uj => u 64 uj
  | .calibrationEnd ch stallUs => decide (ch < 16) && u 32 stallUs

end Sys2Proof
end

