-- ==== Sys2Proof/Tests/Slice0.lean ====
section
/-! SUPPORT. Tests of the model: well-formedness, values that the spec works out, and witnesses for the hypotheses of the statements.
A witness is a state with operands that meet the hypotheses of the clauses named; nothing is proved of what follows from them. -/

set_option Elab.async false

namespace Sys2Proof.Tests

open Sys2Proof Sys2Proof.Machine

/-! Test states. -/

/-- A number with fields at bit positions. -/
def dsc (fs : List (Nat × Nat)) : Nat := fs.foldl (fun v f => v + f.2 * 2 ^ f.1) 0

/-- The address and format of a local operand of a descriptor. -/
def opd (i addr code : Nat) : List (Nat × Nat) := [(64 + 64 * i, 0xFF * 2 ^ 40 + addr), (112 + 64 * i, code)]

/-- K, M and N of a descriptor. -/
def dims (k m n : Nat) : List (Nat × Nat) := [(320, k), (352, m), (368, n)]

/-- The first 24 bytes of the factory area of the test OTP, and the 508 bytes that its CRC covers. -/
def head0 : Bytes := leBytes 8 7 ++ leBytes 4 0x00504E44 ++ leBytes 2 0x0100 ++ zeros 2 ++ [30#8, 36#8, 44#8, 52#8, 62#8, 72#8, 82#8, 92#8]

def body0 : Bytes := head0 ++ zeros 44 ++ zeros 44 ++ zeros 44 ++ zeros 44 ++ zeros 44 ++ zeros 44 ++ zeros 44 ++ zeros 44 ++ zeros 44 ++ zeros 44 ++ zeros 44

/-- OTP whose records and key slots are blank but for the mark of slot 0, which is valid. -/
def otp0 : Otp :=
  { factory := body0 ++ leBytes 4 (crc32 body0)
    records := List.replicate 4 (zeros 128)
    hashes := List.replicate 4 (zeros 32)
    marks := 7
    sec := 7
    sess := 0 }

/-- The engine awake in Active, with signed firmware and a link to its host. -/
def world0 : World :=
  { power := { st := .active, stage := 0 }
    pins := { wake := true, perstN := true, ready := true, faultN := some true, vio := true }
    host := { speed := 4, width := 4 }
    live := { nodeId := 3, hasRec := true, record := zeros 128, factory := zeros 512, trims := [30, 36, 44, 52, 62, 72, 82, 92] }
    sec := { fw := 0x01020000 } }

/-- The engine awake, changed. -/
def st0 (f : World → World) : State := { otp := otp0, vault := { tenants := [] }, w := f world0, pending := [] }

/-- An inference task of one stage that runs on core 0, with its descriptors at 0x1000. -/
def task0 : Task :=
  { id := ⟨0, 0⟩, st := .running, cores := [0], winLen := 256, repAddr := 0x8000, repLen := 64, stgs := [{ pc := 0x1000 }] }

/-- The engine with a task whose next operation is a descriptor. -/
def opSt (fs : List (Nat × Nat)) (t : Task := task0) (f : World → World := id) : State :=
  st0 (fun w => f { w with sched := { w.sched with tasks := [t] }, mem := { w.mem with mem := Tab.setRun 0 [] 0x1000 (leBytes 128 (dsc fs)) } })

/-- Whether an operation of a row is to execute, with a run that `p` holds of. -/
def ready (s : State) (opc : Nat) (mods : Nat → Bool := anyMod) (extra : World → Run → List Fail := noExtra)
    (reads : World → Run → List (List Region) := wholeReads) (p : World → Run → Bool := fun _ _ => true) : Bool :=
  match s.w.prepare 0 0 0 [] opc mods extra reads with
  | (w, some r) => r.part.isNone && p w r
  | _ => false

/-- Whether operand D, and operand A, lie in local memory. -/
def dHere (_ : World) (r : Run) : Bool := match (r.o 3).place with | some (.here, _) => true | _ => false

/-- An elementwise operation of one row of four F32 values with `n` inputs, and a matrix operation. -/
def vecOp (opc m n : Nat) : List (Nat × Nat) :=
  [(0, opc), (55, m)] ++ (List.range n).flatMap (fun i => opd i (0x2000 + 256 * i) 0xD) ++ opd 3 0x3000 0xD ++ dims 4 1 0

def matOp (opc k m : Nat) : List (Nat × Nat) :=
  [(0, opc), (14, 0xD)] ++ opd 0 0x2000 0xB ++ opd 1 0x2800 0xB ++ opd 3 0x3000 0xD ++ dims k m 1

def redOp (m : Nat) : List (Nat × Nat) :=
  [(0, 0x23), (14, if m < 2 then 0xD else 0), (55, m)] ++ opd 0 0x2000 0xB ++ opd 3 0x3000 (if m < 5 then 0xD else 0xE) ++ dims 16 1 0

/-- An operation of A and D, with a parameter block. -/
def adOp (opc m fa fd : Nat) (k : Nat := 4) (rows : Nat := 0) : List (Nat × Nat) :=
  [(0, opc), (29, 1), (55, m)] ++ opd 0 0x2000 fa ++ opd 3 0x3000 fd ++ dims k rows 0

/-- A tenant of four values whose areas lie in memory, and the engine with a step of it in progress. -/
def ten0 : Tenant := { st := 2, np := 4, param := 0x100000, act := 0x200000, actLen := 0x10000, scr := 0x300000, scrLen := 0x10000, str := 0x400000, strLen := 0x10000, budget := 2 ^ 40 }

def step0 : Step := { task := ⟨0, 0⟩, tenant := 5, marked := true }

def trainSt (fs : List (Nat × Nat)) (x : Step := step0) (t : Task := { task0 with kind := 1, tenant := some 5, own := [(0x3000, 0x1000)] }) (f : World → World := id) : State :=
  { opSt fs t (fun w => f { w with train := { w.train with steps := [x] } }) with vault := { tenants := [(5, ten0)] } }

/-- The engine as logical engine 0 of a running job of two. -/
def inJob0 (w : World) : World :=
  { w with
    link := { w.link with jobSize := 2, logical := 0, jobState := 2, map := [(0, 0), (1, 1)], ports := [{ st := 2, nbr := some (1, 0) }, {}, {}, {}] }
    live := { w.live with cls := 1 }
    job := { w.job with diameter := 1 }
    sched := { w.sched with semHome := 0 } }

/-! Well-formedness. -/

/-- A request of the window. -/
def rqW : Req := { src := .window, txn := 7, sel := none }

/-- A request of node 5 on the segment. -/
def rqN : Req := { src := .node 5 0x020000000005, txn := 7, sel := none }

/-- A good link header, and a message header for this engine. -/
def hdr0 : RxHdr := { seq := 0, ack := 0, vc := 0, dlc := 0, reserved := 0, crcOk := true }

def msg0 : MsgHdr := { dst := 0, src := 1, srcLog := 1, tag := 3, len := 32, addr := 0x2000, epoch := 0, auth := true }

/-- Each check refuses an operand that is out of its range. -/
theorem test_wf_shared_checks_refuse :
    (u 8 256 || Src.ok (.node 32 0) || Src.ok (.node 0 (2 ^ 48)) || Req.ok { rqW with txn := 2 ^ 16 } || Req.ok { rqW with sel := some (2 ^ 16) } ||
     Carrier.ok (.frame (2 ^ 48) 0 etherType true false) || Carrier.ok (.frame 0 0 (2 ^ 16) true false) || Peer.ok { stepping := 0, fwHigh := 0, cls := 0, size := 2, grid := 0, tray := 16, slot := 0, trained := true, wired := true } ||
     Nbr.ok { chip := 0, cls := 0, tray := 0, slot := 0, port := 4 } || RxHdr.ok { hdr0 with seq := 4096 } || RxHdr.ok { hdr0 with reserved := 4 } ||
     MsgHdr.ok { msg0 with dst := 256 } || MsgHdr.ok { msg0 with addr := 2 ^ 48 } || opOk 64 0 0 || opOk 0 (2 ^ 32) 0 || opOk 0 0 16 ||
     msgOk 2 .window [1#8] || msgOk 1 .window [1#8, 2#8]) = false := by decide +kernel

/-- Ill-formed commands of each family are refused. -/
theorem test_wf_commands_refuse :
    ([.prodWrite 64 0, .prodWrite 0 (2 ^ 32), .taskFetch 0 (zeros 63), .streamInputWritten 0 128, .streamOutputTaken 0 127, .queueReset rqW 64, .linkDown (2 ^ 32),
      .pcieLinkTraining 5 4, .pcieLinkTraining 4 3, .windowRead (2 ^ 30 - 1) 2, .windowWrite 0 [], .tdmPortEnable rqW 2, .tdmFrameStart 128 0, .tdmFrameEnd 0 [2 ^ 32],
      .clockLoss 2, .contextOpen rqW 128, .playoutDue 128, .matmul 0 0 ⟨16, []⟩, .matmul 0 0 ⟨0, (List.replicate 17 0)⟩, .opComplete 64 0 0, .semRelease true 256, .preemptionPoint 0 0 16, .drainComplete 0 0 0 (2 ^ 64),
      .semValueWrite rqW (2 ^ 16), .interferenceWindowEnd [], .sliceRead 16 0 1 false, .sliceRead 0 0 16 false, .sliceWrite 0 120 (zeros 16) false, .sectorFill 0 0 4 0,
      .sectorFill 0 0 0 4, .patrolScrubRead 16 0 0 false false, .sliceScrub 0 256 0 0 0, .refresh 16 false, .calibrationRun ⟨0, false⟩ (2 ^ 32), .calibrationEnd 16 0,
      .jobStart rqW [{ stepping := 2 ^ 16, fwHigh := 0, cls := 0, size := 1, grid := 0, tray := 0, slot := 0, trained := true, wired := true }], .portTrainingTimeout 4,
      .controlFlit 0 hdr0 [] 0, .heartbeat 0 (2 ^ 56), .readMsg 4 hdr0 msg0, .writeMsg 4 hdr0 msg0 [], .pushpostPostMsg 0 hdr0 msg0 256 0 0 0,
      .collectiveSetupMsg 0 hdr0 msg0 8 0 0 false, .collectiveData 0 hdr0 msg0 0 256 0 false [], .latenessDeadline 0 0 0 256, .skipNoticeMsg 0 hdr0 msg0 0 0 256,
      .voteMsg 0 hdr0 msg0 16 false 0 0, .semaphoreMsg 0 hdr0 msg0 10 0 0 0 0 0, .wakeStageDone (2 ^ 21), .dozeExitFrame .window (zeros 1501), .dvfsSample [0, 0, 0] 0,
      .currentClampEngage (2 ^ 16), .sensorSample [], .adpRead .window [1#8, 2#8], .adpWrite .window [1#8, 1#8], .readSeg .window [], .writeSeg .window [1#8, 1#8],
      .adpAbort .window [1#8, 1#8], .discover .window [1#8, 1#8], .notifyAck .window [1#8, 1#8], .segmentTimeout 32, .windowGo (zeros 1041) { n := 4, v := 1, wait := false }, .windowGo [] { n := 3, v := 1, wait := false }, .windowGo [] { n := 1, v := 256, wait := false }, .windowStatusClear ⟨4, (2 ^ 32)⟩, .notificationRingTailWrite ⟨8, 0⟩,
      .notifyResend (2 ^ 16), .levelResponse rqW (zeros 1025), .closeLevel rqW 256, .challengeExpiry 253 false, .firmwareLoad rqW (2 ^ 64) 0, .programKeySlot rqW 0 [],
      .revokeKeySlot rqW 256, .sessionOpen rqW (zeros 32), .sessionClose rqW (zeros 32), .createTenant rqW [], .tenantImport rqW (zeros 48), .tenantRetire rqW (zeros 48),
      .coreError 16, .tapBypass { tdi := 2 }, .tapSample (2 ^ 25), .dozeEnergyIntegration (2 ^ 64)] : List Instr).any Instr.wf = false := by decide +kernel

/-- Boundary operands are well formed. -/
theorem test_wf_commands_pass :
    ([.prodWrite 63 (2 ^ 32 - 1), .streamInputWritten 63 127, .streamOutputTaken 63 255, .windowRead (2 ^ 30 - 1) 1, .sliceWrite 15 112 (zeros 16) true, .sectorFill 15 0 3 3,
      .matmul 63 (2 ^ 32 - 1) ⟨15, [0]⟩, .windowGo [] { n := 2, v := 65535, wait := true }, .semRelease false 255, .segmentTimeout 254, .adpRead .window [1#8, 1#8], .wakeStageDone 511, .heartbeatSend] : List Instr).all Instr.wf = true := by
  decide +kernel

/-- A table row has no bits, so no word spells a command. -/
theorem test_no_word (n w : Nat) : decodeTableWord n w = none := rfl

/-! Operations. -/

theorem witness_OperationsExecuteOrReport :
    (let w := (opSt []).w
     let st : Stage := { pc := 0x1000 }
     let bs := leBytes 64 0
     let d := Desc.ofBytes bs
     let cr := w.checkReads task0 0 (w.envOf task0 0 w.defaults st.pc d) d
     let st' := w.latch task0 0 st bs
     let w1 := w.enterOp task0 0 st' d
     let r := w1.runOf task0 0 (w1.latchSlots task0 0 { st' with since := w1.mem.farSeq })
     w.task? ⟨0, 0⟩ == some task0 && task0.stgs[0]? == some st && w.canRun task0 0 st && task0.stageOn 0 && !task0.preempt && !w.mustLeave task0 && w.fetchDesc st.pc == some bs &&
       w.poisoned (⟨.here, st.pc, bs.length⟩ :: cr.flatten) == none && !(w.atMark task0 0 d.opc && !task0.othersOver 0) && !(w.atMark task0 0 d.opc && (w.dueAbandon task0).isSome) &&
       (w.firstMissing st.since cr).isEmpty &&
       w.checkOp task0 0 st' noExtra == none && w1.jobStop (w.runOf task0 0 st') == none && !d.wen && (w1.firstMissing w1.mem.farSeq (wholeReads w1 r)).isEmpty &&
       w1.poisoned (wholeReads w1 r).flatten == none && !(r.writesFar && w1.readsSealed r && !w1.hasLinkSecret)) = true := by decide +kernel

/-- A descriptor with an opcode that no row has is refused (R13). -/
theorem witness_OperationsExecuteOrReport_refused :
    (let w := (opSt [(0, 0x05)]).w
     let st : Stage := { pc := 0x1000 }
     let bs := leBytes 64 5
     let d := Desc.ofBytes bs
     let cr := w.checkReads task0 0 (w.envOf task0 0 w.defaults st.pc d) d
     w.canRun task0 0 st && w.fetchDesc st.pc == some bs && w.poisoned (⟨.here, st.pc, bs.length⟩ :: cr.flatten) == none &&
       !(w.atMark task0 0 d.opc && !task0.othersOver 0) && (w.firstMissing st.since cr).isEmpty && task0.stageOn 0 && !(w.atMark task0 0 d.opc && (w.dueAbandon task0).isSome) && w.checkOp task0 0 (w.latch task0 0 st bs) noExtra == some 0x0806) = true := by
  decide +kernel

theorem witness_OperationWritesItsBytes :
    ({ t := task0, g := 0, d := ⟨0⟩, e := {}, recs := [], os := [] } : Run).cores.length = 1 := by decide

theorem witness_ControlAndMoveResults :
    (ready (opSt []) 0 && ready (opSt ([(0, 2)] ++ opd 0 0x2000 0)) 2 && ready (opSt ([(0, 3)] ++ opd 3 0x3000 0)) 3 (p := dHere) &&
     ready (opSt ([(0, 4)] ++ opd 0 0x2000 0 ++ dims 64 0 0)) 4 && ready (opSt ((29, 1) :: vecOp 0x11 0 0)) 0x11) = true := by decide +kernel

theorem witness_ControlAndMoveResults_moves :
    (let mv := fun opc => [(0, opc)] ++ opd 0 0x2000 0 ++ opd 3 0x3000 0 ++ dims 8 0 0
     ready (opSt (mv 0x10)) 0x10 (p := dHere) && ready (opSt ([(0, 0x12)] ++ opd 0 0x2000 0 ++ [(256, 0xFE * 2 ^ 40)] ++ dims 8 0 0)) 0x12 (p := fun _ r => (r.o 3).place == some (.stg, 0)) &&
     ready (opSt ([(0, 0x13), (64, 0xFE * 2 ^ 40)] ++ opd 3 0x3000 0 ++ dims 8 0 0)) 0x13 (p := dHere) && ready (opSt (mv 0x65)) 0x65 (p := dHere) &&
     ready (opSt ([(0, 0x17)] ++ opd 0 0x2000 0 ++ dims 8 0 0)) 0x17 (reads := prefetchReads) (p := fun _ r => (r.o 0).place == some (.here, 0x2000)) &&
     ready (opSt ([(0, 0x17), (64, 2 ^ 40 + 0x2000)] ++ dims 8 0 0) (f := fun w => inJob0 { w with mem := { w.mem with given := [(farAddr 1 0x2000 / 32, 0)] } })) 0x17
       (reads := prefetchReads) (p := fun _ r => (r.o 0).place == some (.far 1, 0x2000)) &&
     (let ix := fun opc => [(0, opc)] ++ opd 0 0x2000 0xD ++ opd 1 0x2800 0xE ++ opd 3 0x3000 0xD ++ dims 4 1 1
      ready (opSt (ix 0x14)) 0x14 (reads := gatherReads) && ready (opSt (ix 0x15)) 0x15) && ready (opSt ([(0, 0x16)] ++ opd 0 0x2000 0xD ++ opd 3 0x3000 0xD ++ dims 4 1 0)) 0x16) = true := by
  decide +kernel

theorem witness_MatrixAndReduceResults :
    (ready (opSt (matOp 0x20 16 1)) 0x20 && ready (opSt (matOp 0x21 16 1)) 0x21 && ready (opSt (matOp 0x22 3 2)) 0x22 &&
     (List.range 7).all (fun m => ready (opSt (redOp m)) 0x23 (modIs 7 m))) = true := by decide +kernel

theorem witness_VectorResults :
    (([(0x30, 2), (0x31, 2), (0x32, 3), (0x35, 1), (0x38, 3)] : List (Nat × Nat)).all (fun o => ready (opSt (vecOp o.1 0 o.2)) o.1) &&
     ready (opSt (vecOp 0x33 0 2)) 0x33 (modIs 2 0) && ready (opSt (vecOp 0x33 1 2)) 0x33 (modIs 2 1) &&
     ready (opSt ((29, 1) :: vecOp 0x37 0 1)) 0x37 && (List.range 11).all (fun m => ready (opSt (vecOp 0x34 m 1)) 0x34 (modIs 11 m)) &&
     ready (opSt ((29, 1) :: vecOp 0x36 0 3)) 0x36 (modIs 2 0) && ready (opSt ((29, 1) :: vecOp 0x36 1 2)) 0x36 (modIs 2 1)) = true := by decide +kernel

/-- A slot with nothing in its depth, one that follows its greatest exponent, and a pinned one. -/
theorem witness_ScaleSlotUpdate :
    (let e := fun (sl : Slot) => ((sl.pending :: sl.hist).take 16 |>.take 8).foldl maxExp none
     e {} == none && e { pending := some 3 } == some 3 && e { pending := some (-5), pinned := true } == some (-5)) = true := by decide +kernel

theorem witness_SavedStreamsAreLossless : ∀ row ∈ [[0, 1], [65535, 2]], row.length = 2 ∧ ∀ c ∈ row, c < 2 ^ 16 := by decide

theorem witness_ScaleSaveAndTrainResults :
    (ready (opSt (adOp 0x40 0 0xD 0xB 4 1)) 0x40 && ready (opSt ([(0, 0x42)] ++ opd 0 0x2000 0xD ++ [(304, 0xF)] ++ dims 4 1 0)) 0x42 &&
     ready (opSt ([(0, 0x41)] ++ dims 0 0 1)) 0x41 (p := fun w _ => !w.multi) &&
     ready (trainSt ([(0, 0x50)] ++ opd 0 0x2000 0xB ++ opd 3 0x3000 0 ++ dims 4 1 0)) 0x50 (p := dHere) &&
     ready (trainSt ([(0, 0x51)] ++ opd 0 0x2000 0 ++ opd 3 0x3000 0xB ++ dims 4 1 0)
       (f := fun w => { w with mem := { w.mem with mem := Tab.setRun 0 w.mem.mem 0x2000 (encodeStream 4 0xB 0 [[1, 2, 3, 4]]).1 } })) 0x51 anyMod actloadExtra
       (p := fun w r => match decodeStream (w.savedStream r) r.d.m r.d.k with | .ok rows => rows == [[1, 2, 3, 4]] | _ => false)) = true := by decide +kernel

theorem witness_ScaleSaveAndTrainResults_rng :
    (let v : Vault := { tenants := [] }
     let one := (512, 0x3F800000)
     let rng := fun (opc c : Nat) => [(0, opc), (29, 1)] ++ opd 3 0x3000 c ++ dims 4 0 0
     ready (opSt (rng 0x70 0xE)) 0x70 anyMod (rngExtra v) (p := dHere) && ready (opSt (rng 0x71 0xD)) 0x71 anyMod (rngExtra v) && ready (opSt (rng 0x72 0xD)) 0x72 anyMod (rngExtra v) &&
     ready (opSt (one :: adOp 0x73 0 0xD 0xD)) 0x73 anyMod (dropoutExtra v)) = true := by decide +kernel

theorem witness_ScaleSaveAndTrainResults_steps :
    (let v : Vault := { tenants := [(5, ten0)] }
     ready (trainSt ([(0, 0x52)] ++ opd 0 0x2000 0xD ++ dims 4 0 0)) 0x52 anyMod gnormExtra &&
     ready (trainSt ((512 + 8 * 48, 0x3F800000) :: adOp 0x53 0 0xD 0xD)) 0x53 anyMod (clipnoiseExtra v)
       (p := fun w r => (r.d.par 44 1, r.d.par 45 1) == (r.t.sigma, r.t.q) && w.train.stepCtr != 0xFFFFFFFF) &&
     ready (trainSt ([(0, 0x56)] ++ opd 3 0x300000 0)) 0x56 anyMod (ckptExtra v) (ckptReads v) (p := fun w r => dHere w r && r.t.kind != 2) &&
     ready (trainSt ([(0, 0x56)] ++ opd 3 0x300000 0) (t := { task0 with kind := 2, tenant := some 5 })) 0x56 anyMod (ckptExtra v) (ckptReads v)
       (p := fun w r => dHere w r && r.t.kind == 2 && w.job.ckNext == none)) = true := by decide +kernel

theorem witness_ReelUpdatesShadow :
    (let v : Vault := { tenants := [(5, ten0)] }
     ready (trainSt ([(520, 0xB)] ++ adOp 0x54 0 0xD 0 ++ [(256, ten0.fieldAddr 1 0 0 - 0x3000), (544, 0x3F800000), (512 + 8 * 16, 0x3F800000)])
       (x := { step0 with noised := [(0xFF * 2 ^ 40 + 0x2000, 16)] })) 0x54 anyMod (reelExtra v) (reelReads v)
       (p := fun w r => w.step? r.t.id != none && !w.genHeld 5 1 && ((w.tensorAt r 0 (r.cores.headD 0) false).headD []).length == r.d.k && decide (0 + r.d.k ≤ ten0.np))) = true := by
  decide +kernel

theorem witness_CommitAct :
    (let s := trainSt [(0, 0x55)] (x := { step0 with reel := 4 })
     ready s 0x55 anyMod (commitExtra s.vault) (p := fun w r => w.step? r.t.id == some { step0 with reel := 4 } && !w.genHeld 5 1 && !w.multi) && s.w.job.votes.isEmpty &&
       decide ((s.w.train.steps.map (·.task)).Nodup)) = true := by decide +kernel

theorem witness_Collectives :
    (([0, 1, 2] : List Nat).all (fun m => ready (opSt (adOp 0x60 m 0xD 0xD)) 0x60 (modIs 3 m) (collExtra false true) && ready (opSt (adOp 0x61 m 0xD 0xD)) 0x61 (modIs 3 m) (collExtra true true)) &&
     ready (opSt (adOp 0x62 0 0xD 0xD)) 0x62 anyMod (collExtra true false) && ready (opSt (adOp 0x63 0 0xD 0xD)) 0x63 anyMod (collExtra false false) &&
     ready (opSt [(0, 0x64), (29, 1)]) 0x64 anyMod (collExtra false false) (p := fun w _ => !w.multi && w.job.votes.isEmpty)) = true := by decide +kernel

theorem witness_Collectives_job :
    (let ok := fun (w : World) (r : Run) => w.multi && w.job.early.isEmpty && !w.readsSealed r
     ([0, 1, 2] : List Nat).all (fun m => ready (opSt (adOp 0x60 m 0xD 0xD) (f := inJob0)) 0x60 (modIs 3 m) (collExtra false true) (p := ok) &&
       ready (opSt (adOp 0x61 m 0xD 0xD) (f := inJob0)) 0x61 (modIs 3 m) (collExtra true true) (p := ok)) &&
     ready (opSt ((576, 1) :: adOp 0x62 0 0xD 0xD) (f := inJob0)) 0x62 anyMod (collExtra true false) (p := fun w r => ok w r && decide (w.link.logical ≠ r.root)) &&
     ready (opSt (adOp 0x63 0 0xD 0xD) (f := inJob0)) 0x63 anyMod (collExtra false false) (p := ok) && ready (opSt ([(0, 0x41)] ++ dims 0 0 1) (f := inJob0)) 0x41 (p := ok) &&
     ready (opSt [(0, 0x64), (29, 1)] (f := inJob0)) 0x64 anyMod (collExtra false false) (p := fun w r => ok w r && w.job.votes.isEmpty && !(childrenOf w.link.jobSize w.link.logical).isEmpty)) = true := by
  decide +kernel

/-! Tasks, semaphores and steps. -/

/-- The task with its stage in a phase, at a descriptor. -/
def taskAt (ph : Phase) (fs : List (Nat × Nat) := []) : Task := { task0 with stgs := [{ pc := 0x1000, phase := ph, desc := leBytes 64 (dsc fs) }] }

/-- The engine with tasks. -/
def tasksSt (ts : List Task) (f : World → World := id) : State := st0 (fun w => f { w with sched := { w.sched with tasks := ts } })

/-- A NOP that has run and reports nothing; then one refused, whose status ends the task; then an END. -/
theorem witness_OperationCompletion :
    (let res : OpRes := {}
     let t := taskAt (.executed res)
     let w := (tasksSt [t]).w
     let r := w.runOf t 0 (t.stgs.headD {})
     w.task? ⟨0, 0⟩ == some t && w.coresRun && t.stageOn 0 && !w.unacked ⟨0, 0⟩ && t.closing.isNone && (t.stageCores 0).any t.on && goesOn res.status && !res.refused && decide (r.d.opc ≠ 1) && !r.d.pen &&
       (List.range 4).all (fun i => !r.d.dead i) && w.job.votes.isEmpty && w.train.steps.isEmpty &&
     (let res : OpRes := { status := 0x0806, refused := true }
      let t := taskAt (.executed res)
      let w := (tasksSt [t]).w
      w.task? ⟨0, 0⟩ == some t && w.coresRun && !goesOn res.status && !w.unacked ⟨0, 0⟩ && w.step? ⟨0, 0⟩ == none && decide (t.kind ≠ 2)) &&
     (let two : Task := { task0 with stages := 2, cores := [0, 1], stgs := [{ pc := 0x1000 }, {}] }
      ready (opSt [(0, 1)]) 1 (p := fun w r => !r.d.pen && (List.range 4).all (fun i => !r.d.dead i) && !w.unacked ⟨0, 0⟩) && task0.othersOver 0 && decide (task0.kind = 0) &&
      ready (opSt [(0, 1)] two) 1 && !two.othersOver 0)) = true := by decide +kernel

/-- A release to a waiter that runs, to a parked one, and to one of another engine; a budget that expires after its post and before it. -/
theorem witness_SemaphoresAndHolds :
    (let st := fun (t : Task) (v : Nat) => (tasksSt [t] (fun w => { w with sched := { w.sched with sems := [(3, { value := v })] } })).w
     let run := taskAt (.waiting false 3 0 0)
     let parked : Task := { run with st := .parked, parking := true }
     let x : Waiter := { rank := 0, ord := 0, task := some (⟨0, 0⟩, 0), far := none }
     let f : FarWait := { engine := 1, queue := 2, slot := 0, core := 0, rank := 0, ord := 0 }
     let g := (st0 (fun w => { inJob0 w with sched := { (inJob0 w).sched with gsems := [(3, { value := 1, far := [f] })] } })).w
     let c : Chain := { waiter := ⟨0, 0⟩, stage := 0, glob := false, sem := 3, since := 0, holders := [] }
     let held := fun (v : Nat) => (tasksSt [run] (fun w => { w with sched := { w.sched with sems := Tab.set {} [] 3 { value := v }, chains := [c] } })).w
     firstWaiter ((st run 1).waiters false 3) == some x && decide (((st run 1).sem false 3).value ≠ 0) && (st run 1).task? ⟨0, 0⟩ == some run && !run.parking &&
     firstWaiter ((st parked 1).waiters false 3) == some x && parked.parking &&
     firstWaiter (g.waiters true 3) == some { rank := 0, ord := 0, task := none, far := some f } && decide ((g.sem true 3).value ≠ 0) && g.semHere &&
     (held 0).sched.chains.find? (fun c => c.waiter == ⟨0, 0⟩) == some c && decide (((held 0).sem false 3).value = 0) && (held 0).task? ⟨0, 0⟩ == some run &&
     (held 0).sched.chains.filter (fun d => d.waiter == ⟨0, 0⟩ && d.stage == 0) == [c] && decide (((held 1).sem false 3).value ≠ 0)) = true := by decide +kernel

/-- A step that is admitted, and one for each refusal; a step held at its mark, and one that is abandoned. -/
theorem witness_TrainingSteps :
    (let t : Task := { task0 with kind := 1, tenant := some 5, st := .posted, cores := [] }
     let w := (tasksSt [t]).w
     let status := fun (ten : Tenant) (w : World) => if ten.st ≠ 2 then 0x020A
       else if w.train.reserve ≠ 0xFFFFFFFF ∧ w.train.reserve < w.estimate t.prog then 0x0101 else if ten.budget < ten.spent + spendOf t.sigma t.q then 0x0207 else 0
     w.task? ⟨0, 0⟩ == some t && t.stop == none && w.job.votes.isEmpty && w.train.steps.isEmpty && w.coresRun && !w.leaving && !w.multi &&
     status ten0 w == 0 && status {} w == 0x020A && status ten0 { w with train := { w.train with reserve := 4999 } } == 0x0101 && status { ten0 with spent := 2 ^ 40 } w == 0x0207 &&
     (let m := { taskAt .markHeld with kind := 1 }
      let x : Step := { step0 with marked := false, abandon := some 0x0601, agreed := true }
      let v := (tasksSt [m] (fun w => { w with train := { w.train with steps := [x] } })).w
      (tasksSt [m]).w.phase? ⟨0, 0⟩ (m.stages - 1) == some .markHeld && m.othersOver (m.stages - 1) && ((tasksSt [m]).w.dueAbandon m).isNone &&
        v.phase? ⟨0, 0⟩ (m.stages - 1) == some .markHeld && v.dueAbandon m == some 0x0601 && !v.unacked ⟨0, 0⟩) &&
     (let t : Task := { task0 with kind := 1, tenant := some 5, stgs := [{ boundary := true }] }
      let x : Step := { step0 with abandon := some 0x0601, agreed := true }
      let w := (tasksSt [t] (fun w => { w with train := { w.train with steps := [x] } })).w
      w.step? ⟨0, 0⟩ == some x && !x.committed && !w.unacked ⟨0, 0⟩ && w.train.hist == x.histNow && (t.cores.isEmpty || t.stgs.all (fun y => y.boundary || y.phase.past || y.phase == .markHeld)))) = true := by decide +kernel

/-- A task that finds its core, and one that asks for more cores than there are. -/
theorem witness_TaskPlacement :
    (let t : Task := { task0 with st := .ready, cores := [] }
     let big : Task := { t with cps := 17 }
     let w := (tasksSt [t]).w
     w.coresRun && !w.leaving && t.stop == none && !t.lost && t.coming.isEmpty && !(w.sched.tasks.any (fun u => !(u.id == ⟨0, 0⟩) && u.before t && u.stop.isNone && w.placeable u)) &&
       (w.chooseCores t).isSome && ((tasksSt [big]).w.chooseCores big).isNone) = true := by decide +kernel

theorem witness_ContextSwitches :
    (let w := fun (t : Task) => (tasksSt [t]).w
     let on : Task := { task0 with preempt := true }
     let inside : Task := { on with stgs := [{ pc := 0x1000, phase := .part, pts := [1] }] }
     let dr : Task := { task0 with draining := [0] }
     let sv : Task := { task0 with saving := [0] }
     let co : Task := { task0 with out := [0], coming := [0], st := .suspended }
     let sp : Task := { task0 with stop := some 0x020C }
     let g := task0.cores.idxOf 0 / max 1 task0.cps
     g == 0 && on.on 0 && on.stop == none && ((w on).wanted on 0 || (w on).mustLeave on) && (on.stgs.headD {}).atPoint none && on.closing.isNone && !(w on).haltHolds on && !(w on).mustRun on 0 0 (on.stgs.headD {}) &&
       (inside.stgs.headD {}).phase == .part && (inside.stgs.headD {}).atPoint none && inside.on 0 && ((w inside).wanted inside 0 || (w inside).mustLeave inside) &&
       !(w inside).haltHolds inside && !(w inside).mustRun inside 0 0 (inside.stgs.headD {}) && dr.draining.contains 0 && !(w dr).outstanding dr 0 &&
     sv.saving.contains 0 && co.out.contains 0 && co.coming.contains 0 && (w co).canEnter co 0 && (w co).coresRun && !(w co).leaving &&
     sp.canStop && sp.draining.isEmpty && sp.saving.isEmpty && sp.closing.isNone && !(w sp).haltHolds sp && !(w sp).unacked ⟨0, 0⟩ && (w sp).step? ⟨0, 0⟩ == none && !(co.job && (w co).multi)) = true := by decide +kernel

/-- A share of two tiles that stops at its first segment end, at its fourth, and runs on. -/
theorem witness_ContextSwitches_segments :
    (let lane : Lane := { gs := [], c0 := none }
     let tiles := [[[lane]], [[lane], [lane]]]
     let sc : SegCfg := { cost := [256, 1024] }
     tiles.all (fun ls => !ls.isEmpty) && ([({ sc with limit := 8 }, 1), (sc, 4)] : List (SegCfg × Nat)).all (fun p => p.1.cost.length == sc.cost.length)) = true := by decide +kernel

theorem witness_LoopsAndBands :
    (let w := world0
     let sl : Slice := { delivered := 1024, rerefs := 16, sample := 65536, missOn := 15, missOff := 16 }
     let v : World := { w with mem := { w.mem with slices := [(15, sl)], strConf := 1 }, num := { w.num with confReplay := 1 } }
     w.clocked && w.sched.parts[7]? == some ({} : Part) && decide ((w.mem.slice 15).delivered < 1024) && decide ((w.mem.slice 15).sample < 65536) &&
       decide (1024 ≤ (v.mem.slice 15).delivered) && decide (65536 ≤ (v.mem.slice 15).sample) && v.mem.strMode == 0 && v.mem.cmpMode == 0 && decide (v.log.staged.length + 3 ≤ 64)) = true := by
  decide +kernel

/-! The host port and the streams. -/

/-- A queue that runs, with room for one task more, its start sequence near the wrap. -/
def queue0 : Queue := { enabled := true, e := 4, s := 0xFFFFFFFE, f := 0xFFFFFFFE, p := 0xFFFFFFFE, st := 1, taskBase := 0x10000, compBase := 0x20000 }

def queueSt (q : Queue) (ts : List Task := []) : World :=
  { world0 with
    host := { world0.host with queues := [(63, q)] }
    sched := { world0.sched with tasks := ts }
    mem := { world0.mem with mem := Tab.setRun 0 [] 0x9000 (leBytes 8 (0xFF * 2 ^ 40 + 0x1000)) } }

/-- A PROD to the last place that its queue has, and one beyond it; a CACK up to C, and one beyond it; a cancel of a task here, and of
one to come; a queue with a completion unsignalled, and one without. -/
theorem witness_Doorbells :
    (let w := queueSt queue0
     let t : Task := { task0 with id := ⟨63, 0xFFFFFFFE⟩ }
     let cancelled := queueSt { queue0 with f := 0xFFFFFFFF, p := 0xFFFFFFFF } [t]
     let past := decide (seqDiff 2 queue0.f < 2 ^ 31) && decide (seqDiff 2 (queue0.s + queue0.a) ≤ queue0.e)
     let beyond := decide (seqDiff 3 queue0.f < 2 ^ 31) && decide (seqDiff 3 (queue0.s + queue0.a) ≤ queue0.e)
     let before : World := { w with sec := { w.sec with fw := 0 } }
     let masks : World := { w with msix := { tab := Tab.set 0 [] 71 (2 ^ 96), pend := [71] } }
     w.hostUp && w.fwRuns && before.hostUp && !before.fwRuns && ({ w with host := { w.host with waits := [(32 * 63 + 12, 5)] } } : World).fwRuns &&
       masks.hostUp && masks.masked 71 && masks.msix.pend.contains 71 && !masks.masked 66 && (w.queue 63).runs && past && !beyond && !(w.queue 62).runs && queue0.enabled && !queue0.resetting && decide (seqDiff 0 queue0.a ≤ seqDiff queue0.c queue0.a) &&
       decide (seqDiff queue0.c queue0.a < seqDiff 1 queue0.a) && cancelled.task? ⟨63, 0xFFFFFFFE⟩ == some t && w.task? ⟨63, 0xFFFFFFFF⟩ == none &&
       decide (seqDiff 0xFFFFFFFF queue0.f < 2 ^ 31) && decide ((w.queue 63).unsig = 0) && decide (((queueSt { queue0 with unsig := 1 }).queue 63).unsig ≠ 0)) = true := by decide +kernel

/-- A task descriptor of sequence `seq`, with one stage whose table stands at 0x9000; with `ok` 0 the table's address is bad. -/
def taskDesc (seq ok : Nat) : Bytes := leBytes 64 (dsc [(0, seq), (128, ok * (0xFF * 2 ^ 40 + 0x9000))])

/-- A fetch of a good descriptor, of one of a wrong sequence, of one cancelled, and of one that fails its checks. -/
theorem witness_TaskFetch :
    (let q : Queue := { queue0 with p := 0xFFFFFFFF, posts := [(0xFFFFFFFF, 0)] }
     let w := queueSt q
     let t := fun (b : Bytes) => taskOf 63 (q.f % q.e) q.ceil (q.coveredAt q.f w.now) b
     let fetched := w.updQueue 63 (fun q => { q with f := (q.f + 1) % 2 ^ 32, posts := q.posts.filter (fun e => precedes ((q.f + 1) % 2 ^ 32) e.1) })
     let good := taskDesc 0xFFFFFFFE 1
     w.fetches 63 && decide (good.length = 64) && (t good).id.seq == q.f && q.cancel != some q.f && firstFail (fetched.taskFails { tenants := [] } good (t good)) == none && fetched.placeOk (t good) &&
       decide ((t (taskDesc 0 1)).id.seq ≠ q.f) && (queueSt { q with cancel := some q.f }).fetches 63 &&
       (firstFail (fetched.taskFails { tenants := [] } (taskDesc 0xFFFFFFFE 0) (t (taskDesc 0xFFFFFFFE 0)))).isSome &&
       !({ fetched with sched := { fetched.sched with parts := List.replicate 8 {} } } : World).placeOk (t good)) = true := by decide +kernel

theorem witness_SequenceMismatchStops :
    ((queueSt { queue0 with p := 0xFFFFFFFF }).fetches 63 && decide (leAt (taskDesc 0 1) 0 4 ≠ queue0.f)) = true := by decide +kernel

theorem witness_HostResetsAndWindow :
    (let w := world0
     let bad : World := { w with host := { w.host with map := List.replicate 64 0 } }
     let sealed_ : World := { w with mem := { w.mem with seals := [(0, 6)] } }
     w.portOn && w.pins.perstN && decide (w.host.speed ≠ 0) && decide (4 ≤ w.host.target) && w.hostUp && windowShape 0 1 && windowShape (2 ^ 30 - 1) 1 &&
       decide (({ w with power := { w.power with st := .doze } } : World).power.st = .doze) && w.windowAddr 0 == some 0 && w.windowAddr (2 ^ 30 - 1) == some (2 ^ 30 - 1) && !w.anySealed 0 1 && bad.windowAddr 0 == none && sealed_.anySealed 0 1) = true := by decide +kernel

/-- A context that the host feeds and takes from, and the engine with it. -/
def ctx0 : Ctx := { isOpen := true, src := 3, sink := 3, inBase := 0x10000, outBase := 0x20000, queue := 5, sems := 2 * 256 + 1 }

def ctxSt (x : Ctx) (p : Tdm := { en := true, st := 2 }) (v : Nat := 0) : World :=
  { world0 with host := { world0.host with ctxs := [(127, x)], tdms := [(0, p)] }, sched := { world0.sched with sems := Tab.set {} [] x.inSem { value := v } } }

theorem witness_StreamsAndTdm :
    (let w := ctxSt ctx0
     let tin : Ctx := { ctx0 with src := 1, sink := 1 }
     let cap : Ctx := { tin with capture := true }
     let slave := ctxSt tin { en := true, st := 2, role := 0 }
     w.hostUp && w.fwRuns && decide (7 < ({} : Tdm).slots) && (w.ctx 127).isOpen && (w.ctx 127).queue == 5 && ctx0.src == 3 && decide ((w.sem false ctx0.inSem).value < ctx0.nIn) && ctx0.outSem != ctx0.inSem &&
       decide (ctx0.nIn ≤ ((ctxSt ctx0 (v := 4)).sem false ctx0.inSem).value) && ctx0.sink == 3 &&
     w.clocked && isTdm tin.src && (slave.tdm 0).en && (slave.tdm 0).st == 2 && (slave.tdm 0).role != 1 && slave.leadCtx 0 == some 127 && slave.host.ctxs.wf {} &&
       decide ((slave.tdm 0).frame ≠ 0) && cap.capture && decide ((List.replicate cap.samples 0).length = cap.samples) && (slave.tdm 0).st != 3 &&
     isTdm tin.sink && decide ((slave.sem false tin.outSem).value = 0) &&
       decide (0 < ((({ slave with sched := { slave.sched with sems := [(tin.outSem, { value := 1 })] } } : World).sem false tin.outSem).value))) = true := by decide +kernel

/-! Memory. -/

/-- A read that misses, one that merges, one that finds no room and one that hits; a write; a fill of the last sector. -/
theorem witness_SliceRequests :
    (let w := world0
     let la := 0x2000 / 128
     let sl := sliceOf 0x2000
     let with_ := fun (s : Slice) => ({ w with mem := { w.mem with slices := [(sl, s)] } } : World)
     let full : Slice := { misses := (List.range 64).map (fun i => { line := 100000 + i }) }
     let x : Miss := { line := la, want := 8, issued := 8 }
     let far := inJob0 w
     let farLine : World := { far with mem := { far.mem with sets := Tab.set {} [] (setKey (2 ^ 40 + 0x2000)) { ways := [[{ addr := (2 ^ 40 + 0x2000) / 128, valid := 15, remote := true }]] } } }
     w.clocked && inHost (la * 128) 128 && w.mayIssue 15 4 && decide (w.mem.lacking la 15 ≠ 0) && ((w.mem.slice sl).misses.find? (fun x => x.line == la)).isNone &&
       (w.mem.slice sl).room false && (((with_ { misses := [x] }).mem.slice sl).misses.find? (fun x => x.line == la)) == some x && !((with_ full).mem.slice sl).room true &&
       decide (({ w with mem := w.mem.touch la 15 0 } : World).mem.lacking la 15 = 0) &&
     decide ((sectorsOf 0x2000 32).length = 1) && inHost 0x2000 32 && (tasksSt [task0]).w.onCore 0 == some task0 && w.tenantOk none 0x2000 32 &&
     (((with_ { misses := [x] }).mem.slice sl).misses.find? (fun x => x.line == la && bitAt x.issued 3 && decide (3 < 4))) == some x && x.want == 2 ^ 3 && !w.mem.poison.contains (4 * la + 3) &&
       !w.mem.dramPoison.contains (4 * la + 3) && !bitAt (w.mem.validIn la) 3 && x.bypass.isNone && x.drop.isNone && x.who.length == 0 && (w.mem.slice sl).misses.countP (fun x => x.bypass.isSome) == 0 &&
     (farLine.engineOf (2 ^ 40 + 0x2000)).isSome && (maskBits 4 15).all (fun i => farLine.mem.farValid ((2 ^ 40 + 0x2000) / 128 * 128 + 32 * i) 32) && farLine.mayIssue 15 4 &&
     decide (w.mem.lacking la (partMask 0x2010 16) ≠ 0) && (farLine.engineOf 0x2000).isNone) = true := by
  decide +kernel

theorem witness_ScrubbingAndCalibration :
    (let w := world0
     let line : Line := { addr := 64, valid := 15, dirty := 1 }
     let v : World := { w with mem := { w.mem with sets := [(256 * 15 + 254, { ways := [[line]] })], chans := [(3, { due := true }), (4, { running := true }), (5, { dueTrain := true })], slices := [(15, { forced := true })] } }
     let l := (((v.mem.sets.get {} (256 * 15 + 254)).way 0)[0]?)
     decide (sliceOf 0 = 0) && decide (0 < hostRegion + 2 ^ 28) && !w.mem.poison.contains 0 && w.clocked && l == some line && !line.remote && bitAt line.dirty 0 && !bitAt line.dirty 3 &&
       !(w.mem.slice 15).forced && (v.mem.slice 15).forced && (v.mem.chans.get {} 3).due && !(v.mem.chans.get {} 3).running && (v.mem.chans.get {} 4).running &&
       (v.mem.chans.get {} 5).dueTrain && !(v.mem.chans.get {} 5).running && v.mem.idle 3 && v.mem.idle 5 && w.mem.idle 0 && !w.mem.dramPoison.contains 0 && (w.mem.idle 15 || (w.mem.slice 15).forced) &&
       bitAt line.valid 3) = true := by decide +kernel

theorem witness_MemoryCommandsKeepForm : Memory.wf world0.mem = true := by decide +kernel

/-! Links and jobs. -/

/-- The engine of a job of two, with a port changed. -/
def portSt (f : Port → Port) : World := (inJob0 world0).updPort 0 f

theorem witness_LinkPorts :
    (let w := fun (st : Nat) (stage att : Nat) => portSt (fun p => { p with st := st, stage := stage, attempt := att })
     let un : List (Flit × Nat) := [({ seq := 4095 }, 6), ({ seq := 0 }, 6)]
     let up := portSt (fun p => { p with unacked := un, owed := [1, 0, 0, 0, 0, 0, 0, 0], txSeq := 1 })
     let one : World := { portSt (fun p => { p with unacked := un }) with link := { (portSt (fun p => { p with unacked := un })).link with jobSize := 1, jobState := 0, logical := 0xFF, map := [] } }
     let blk := fun c => sbBlock 1 1 0 0 c
     let level := portSt (fun p => { p with unacked := [({ seq := 4095, lvl := some 7 }, 0)] })
     world0.clocked && ((w 1 5 1).port 0).st == 1 && decide (((w 1 5 1).port 0).stage < 6) && decide (6 ≤ ((w 1 6 2).port 0).stage) && decide (((w 1 5 2).port 0).attempt < 3) &&
       decide (3 ≤ ((w 1 5 3).port 0).attempt) && (w 1 6 2).link.jobState != 1 && (w 1 6 3).link.jobState != 3 &&
     (up.port 0).st == 2 && hdr0.crcOk && decide (hdr0.reserved = 0) && (up.port 0).queue.isEmpty && !bitAt 0 15 && (up.port 0).unacked.all (fun e => decide (e.2 < 8)) &&
       bitAt (2 ^ 15 + 4095) 15 && (up.port 0).unacked.all (fun e => decide (e.2 < 7)) && (up.port 0).unacked.all (fun e => e.1.lvl.isNone) &&
       (level.port 0).unacked == [({ seq := 4095, lvl := some 7 }, 0)] && (level.port 0).st == 2 &&
       ((up.port 0).acked 4094).unacked.findIdx? (fun e => e.1.seq == (2 ^ 15 + 4095) % 4096) == some 0 && decide (0 < (up.port 0).owed.sum) && ((portSt id).port 0).owed.sum == 0 &&
     (one.port 0).st == 2 && !one.multi && !(one.port 0).unacked.isEmpty && ((portSt id).port 0).unacked.isEmpty && decide (one.nodeOf one.sched.semHome ≠ some (one.nbrNode 0)) &&
       (one.readBlock 1 (blk 0)).any (fun r => !bitAt r.content 0) && (one.readBlock 1 (blk 1)).any (fun r => bitAt r.content 0)) = true := by decide +kernel

theorem witness_Ceilings :
    (let w := inJob0 world0
     let rx := fun c => w.readBlock 2 (sbBlock 2 1 9 0 c)
     let v : World := { w with job := { w.job with pending := some (5, 0) } }
     (w.port 0).st == 2 && w.inJob && (rx 5).any (fun r => r.fresh && r.epoch == w.link.epoch % 256 && !bitAt r.content 9) &&
       (rx (2 ^ 9 + 5)).any (fun r => r.fresh && bitAt r.content 9) && !ptBelow (ptOf w.job.least) (ptOf (0x27)) && (rx (2 ^ 9 + 0x27)).any (fun r => !ptBelow (ptOf w.job.least) (ptOf r.content)) &&
       v.job.pending == some (5, 0) && decide (w.link.logical ≠ 0xFF) && decide (w.link.jobState ≠ 3) && w.job.votes.isEmpty && !(childrenOf w.link.jobSize w.link.logical).isEmpty) = true := by
  decide +kernel

theorem witness_Restarts :
    (let w := inJob0 world0
     let rx := fun e c => w.readBlock 3 (sbBlock 3 1 9 e c)
     let x : Restart := { answers := [1], heard := true }
     let y : World := { w with link := { w.link with jobState := 3 }, job := { w.job with restart := some { x with heard := false } } }
     let ck : Ckpt := { tenants := [(5, 0x300000, 0)] }
     let v : World := { w with link := { w.link with jobState := 3, coord := 0 }, job := { w.job with restart := some x, ckpt := some ck }, sec := { w.sec with session := true } }
     let v1 : World := { v with job := { v.job with restart := some { x with censusOpen := false } } }
     let sb := fun kind c => v.readBlock kind (sbBlock kind 1 9 0 c)
     (rx 0 (256 * 7 + 1)).any (fun r => r.fresh && r.epoch == 0 && decide (r.content / 256 % 256 ≠ 9)) && (rx 0 (256 * 9 + 1)).any (fun r => r.content / 256 % 256 == 9 && r.epoch == 0) &&
       (rx 1 (256 * 7 + 1)).any (fun r => r.fresh && r.epoch != 0) && w.inJob && w.link.jobState == 2 && w.nodeOf 0 == some 0 && w.nodeOf 1 == some 1 &&
       (rx 0 (256 * 7)).any (fun r => decide (r.content / 256 % 256 = 7) && w.nodeOf 0 == some (r.content % 256)) && (y.job.restart.any (fun r => !r.heard)) && y.link.jobState == 3 &&
     x.censusOpen && v.link.logical == v.link.coord && v.link.jobState == 3 && !v1.restartFails (v.lostNodes x) && (v.logicalsOf (v.lostNodes x)).isEmpty &&
       v1.restartFails (v.lostNodes { x with answers := [] }) && (sb 4 (256 * 1 + 1)).any (fun r => r.fresh && r.epoch == 0 && decide (r.content % 256 ≠ 0xFF) && decide (r.content / 256 % 256 ≠ 0xFF)) &&
       (sb 5 0).any (fun r => r.fresh && !bitAt r.content 0) && (sb 5 1).any (fun r => bitAt r.content 0) &&
     (v.receive 0 hdr0 msg0 (flitsIn msg0) (wireOf msg0 mCensus [1#8])).2 && (v.receive 0 hdr0 msg0 (flitsIn msg0) (wireOf msg0 mCensus [0#8])).2 && v.fwRuns &&
       (v.receive 0 hdr0 msg0 (flitsIn msg0) (wireOf msg0 mCkpt (zeros 32))).2 && ({ v with job := { v.job with ckpt := none } } : World).job.ckpt.isNone && !x.whole &&
     !x.restored && decide (v.link.logical ≠ 0xFF) && decide ((ck.tenants.map (·.1)).Nodup)) = true := by decide +kernel

/-- A flit that is good and for this engine, one of an old epoch, one for another engine, and one that fails. -/
theorem witness_MessagesArrive :
    (let w := inJob0 world0
     let p := w.port 0
     let good := fun (h : RxHdr) => h.crcOk && decide (h.reserved = 0) && decide (h.seq = p.rxSeq)
     p.st == 2 && good hdr0 && msg0.dst == w.node && msg0.epoch == w.link.epoch % 2 ^ 16 && msg0.auth && decide (p.owed.sum + 7 < 8) && p.queue.isEmpty &&
       decide (({ msg0 with epoch := 65535 } : MsgHdr).epoch ≠ w.link.epoch % 2 ^ 16) && decide (({ msg0 with dst := 1 } : MsgHdr).dst ≠ w.node) && (w.routeCfg.next w.node 1).isSome &&
       p.unacked.all (fun e => e.1.lvl.isNone) && good { hdr0 with bad := some (1, true) } && decide (p.owed.sum + 1 < 8) && ({ hdr0 with bad := some (1, true) } : RxHdr).bad == some (1, true) &&
       !good { hdr0 with crcOk := false } && !good { hdr0 with seq := 1 }) = true := by decide +kernel

theorem witness_RemoteMemory :
    (let w := inJob0 world0
     let got := fun (w : World) n b => (w.receive 0 hdr0 msg0 n b).2
     let r : RRead := { tag := 3, epoch := 0, node := 1, addr := 0x2000, len := 32 }
     let x : RWrite := { tag := 3, node := 1, addr := 0x2000 }
     let v : World := { w with job := { w.job with reads := [r] }, mem := { w.mem with rwrites := [x] } }
     let shut : World := { v with sched := { v.sched with tasks := [{ task0 with closing := some 0 }] } }
     got w 1 (wireOf msg0 mRead []) && inHost 0x2000 32 && !w.anySealed 0x2000 32 && got v (flitsIn msg0) (wireOf msg0 mReadData (zeros 32)) &&
       v.job.reads.find? (fun r => r.tag == msg0.tag && r.node == msg0.src) == some r && v.job.toSend.isEmpty && got w (flitsIn msg0) (wireOf msg0 mWrite (zeros 32)) &&
       got v (flitsIn msg0) (wireOf msg0 mWriteAck []) && v.mem.rwrites.find? (fun r => r.tag == msg0.tag && r.node == msg0.src) == some x && (v.task? ⟨0, 0⟩).isNone &&
       got shut (flitsIn msg0) (wireOf msg0 mWriteAck []) && shut.task? ⟨x.task.1, x.task.2⟩ == some { task0 with closing := some 0 } && !(shut.mem.rwrites.erase x).any (fun y => y.task == x.task) &&
       got w (flitsIn msg0) (wireOf msg0 mPost ([byteOf 255, byteOf 63] ++ leBytes 2 0 ++ [byteOf 0])) && decide ((w.sem false 255).value < 65535) && !w.streamSem 255) = true := by decide +kernel

theorem witness_CollectiveAndSemaphoreMessages :
    (let w := inJob0 world0
     let m : MsgHdr := { msg0 with addr := 8 }
     let got := fun (w : World) (m : MsgHdr) n b => (w.receive 0 hdr0 m n b).2
     let c : Coll := { id := 8, nodes := [(0, 1, [])] }
     let t := taskAt .collective
     let v : World := { w with job := { w.job with colls := [c] }, sched := { w.sched with tasks := [t] }, train := { w.train with mode := 1 } }
     let here := fun (w : World) => w.job.colls.find? (fun c => c.seq % 2 ^ 16 == 0)
     got v m 1 (wireOf m mSetup (setupBytes 0 1 1 false)) && here v == some c && decide (c.id = m.addr % 2 ^ 32) && decide (c.lam = 0) && decide (c.id ≠ msg0.addr % 2 ^ 32) &&
       got v msg0 1 (wireOf msg0 mSetup (setupBytes 0 1 1 false)) && got v m (max 1 (cdiv m.len 64)) [] && (v.collRun c).isSome && !c.toRoot && c.op != .slots &&
       (here w).isNone && !w.barrierAt 0 && decide ((0 + 2 ^ 16 - w.job.collSeq % 2 ^ 16) % 2 ^ 16 < 2 ^ 15) && got v m (flitsIn m) (wireOf m mSkip (setupBytes 0 1 1 false)) &&
       v.job.colls.find? (fun c => c.task == ⟨0, 0⟩ && c.stage == 0) == some c && v.train.mode == 1 && c.op == .sum &&
       c.nodes.find? (fun x => x.1 + x.2.1 == 1 && x.1 % (2 * x.2.1) == 0) == some (0, 1, []) && decide (1 < c.leaves v.link.jobSize) && decide (leafOwner v.link.jobSize c.lam 1 ≠ v.link.logical) &&
       !c.skipped.contains 1 && !c.nodes.any (fun y => y.1 == 1)) = true := by decide +kernel

theorem witness_CollectiveAndSemaphoreMessages_sems :
    (let at_ := fun (s : Sem) (ts : List Task) => (({ inJob0 world0 with sched := { (inJob0 world0).sched with gsems := Tab.set {} [] 255 s, tasks := ts } } : World))
     let came := fun (w : World) op => (w.receive 0 hdr0 msg0 (flitsIn msg0) (wireOf msg0 mSem (semBytes op 255 0 0 0 0))).2
     let full := at_ { value := 65535 } []
     let asks := taskAt (.asking 255)
     let posts := taskAt (.posting {}) [(51, 1)]
     (List.range 5).all (came full) && full.semHere && decide (1 ≤ (full.sem true 255).value) && decide (((at_ {} []).sem true 255).value = 0) && ((at_ {} []).sem true 255).owner.isNone &&
       decide (65535 ≤ (full.sem true 255).value) && (at_ {} [asks]).taskAt 0 0 == some asks && (at_ {} [asks]).task? ⟨0, 0⟩ == some asks && !asks.parking &&
       asks.stageAt 0 (Phase.asks 255) == some 0 && (at_ {} [posts]).taskAt 0 0 == some posts && posts.stageAt 0 Phase.posts == some 0 &&
       (Desc.ofBytes ((posts.stgs[0]?).elim [] (·.desc))).pgl) = true := by decide +kernel

theorem witness_VoteMessages :
    (let w := inJob0 world0
     let came := fun (w : World) kind down status => (w.receive 0 hdr0 msg0 (flitsIn msg0) (wireOf msg0 mVote (voteBytes kind down status 5))).2
     let vote := fun kind (t : Task) => ({ w with job := { w.job with votes := [{ kind := kind, value := 5, own := some 0 }] }, sched := { w.sched with tasks := [t] } } : World)
     let posted : Task := { task0 with kind := 1, tenant := some 5, st := .posted }
     let coll := taskAt .collective
     let v : World := { vote 1 coll with train := { w.train with steps := [step0] } }
     w.job.votes.isEmpty && came w 0 false 0 && came w 1 false 0x0101 && came w 4 false 0 && (vote 0 posted).task? ⟨0, 0⟩ == some posted && came (vote 0 posted) 0 true 0 &&
       came (vote 0 posted) 0 true 0x0101 && came (vote 3 coll) 3 true 0 && (vote 3 coll).phase? ⟨0, 0⟩ 0 == some .collective && came v 1 true 0 && v.step? ⟨0, 0⟩ == some step0 &&
       !step0.committed && decide ((v.train.steps.map (·.task)).Nodup)) = true := by decide +kernel

/-! Power. -/

/-- The engine with sixteen requests that wait for the management core. -/
def full16 (w : World) : World := { w with stn := { w.stn with rx := List.replicate 16 (.frame 1 [] []) } }

/-- The engine with a power state. -/
def pw (p : Power) (f : World → World := id) : World := f { world0 with power := p }

theorem witness_WakePin :
    (let low := fun (p : Power) => pw p (fun w => { w with pins := { w.pins with wake := false } })
     world0.pins.wake && !(low { st := .dormant }).pins.wake &&
       ([.active, .idle, .up, .unwind, .wakeFailed, .dormant, .doze, .down] : List PState).all (fun x => (low { st := x }).power.st == x) &&
       (low { st := .doze, resided := true }).power.exiting == none && !(low { st := .doze }).power.resided && decide ((low { st := .down, dstep := 2 }).power.dstep ≤ 2) &&
       (low { st := .down, dstep := 2, req := 1 }).quiet && (low { st := .down, dstep := 2, req := 1 }).power.req == 1 && decide (2 < (low { st := .down, dstep := 3 }).power.dstep) &&
       decide ((pw { st := .doze, lowTarget := 1 }).power.lowTarget = 1) && decide ((pw { st := .doze }).power.lowTarget ≠ 1)) = true := by decide +kernel

theorem crc_0 : head0.foldl crc32Byte 0xFFFFFFFF = 2756008958 := by decide +kernel
theorem crc_1 : (zeros 44).foldl crc32Byte 2756008958 = 1444377097 := by decide +kernel
theorem crc_2 : (zeros 44).foldl crc32Byte 1444377097 = 4216141471 := by decide +kernel
theorem crc_3 : (zeros 44).foldl crc32Byte 4216141471 = 386491327 := by decide +kernel
theorem crc_4 : (zeros 44).foldl crc32Byte 386491327 = 2629762456 := by decide +kernel
theorem crc_5 : (zeros 44).foldl crc32Byte 2629762456 = 3760913751 := by decide +kernel
theorem crc_6 : (zeros 44).foldl crc32Byte 3760913751 = 4290875677 := by decide +kernel
theorem crc_7 : (zeros 44).foldl crc32Byte 4290875677 = 861713766 := by decide +kernel
theorem crc_8 : (zeros 44).foldl crc32Byte 861713766 = 1974521455 := by decide +kernel
theorem crc_9 : (zeros 44).foldl crc32Byte 1974521455 = 394486198 := by decide +kernel
theorem crc_10 : (zeros 44).foldl crc32Byte 394486198 = 3148586247 := by decide +kernel
theorem crc_11 : (zeros 44).foldl crc32Byte 3148586247 = 3963291855 := by decide +kernel

theorem crc_of_fold {bs : Bytes} {c : Nat} (h : bs.foldl crc32Byte 0xFFFFFFFF = c) : crc32 bs = Nat.xor c 0xFFFFFFFF := by
  unfold crc32
  rw [h]

theorem crc_body : crc32 body0 = 331675440 :=
  crc_of_fold (c := 3963291855) (by simp only [body0, List.foldl_append, crc_0, crc_1, crc_2, crc_3, crc_4, crc_5, crc_6, crc_7, crc_8, crc_9, crc_10, crc_11])

theorem factory_eq : otp0.factory = body0 ++ leBytes 4 331675440 := congrArg (fun c => body0 ++ leBytes 4 c) crc_body

theorem covered_eq : slice (body0 ++ leBytes 4 331675440) 0 508 = body0 := by decide +kernel

theorem stored_crc : leAt (body0 ++ leBytes 4 331675440) 508 4 = 331675440 := by decide +kernel

theorem trims_ok : (let mv := fun (i : Nat) => 400 + 5 * leAt (body0 ++ leBytes 4 331675440) (16 + i) 1
    (List.range 8).all (fun i => decide (mv i ≤ typicalMv i + 50) && decide (typicalMv i ≤ mv i + 50)) && (List.range 7).all (fun i => decide (mv i < mv (i + 1)))) = true := by decide +kernel

/-- The factory area of the test OTP passes its checks (R259). -/
theorem witness_factoryOk : factoryOk otp0.factory = true := by
  have h := trims_ok
  rw [factory_eq]
  unfold factoryOk
  rw [covered_eq, crc_body, stored_crc]
  simpa using h

theorem witness_WakeStages :
    (let up := fun n att => pw { st := .up, stage := n, attempts := [att, att, att, att, att, att] }
     decide (2 ^ 9 ≤ 2 ^ 9) && decide (511 < 2 ^ 9) && decide ((up 4 2).power.attempts.getD 3 0 < 3) && ([1, 2, 3, 4, 5, 6] : List Nat).all (fun n => (up n 1).power.st == .up && !(up n 1).power.settling && (up n 1).power.stage == n) &&
       (up 6 1).pins.pwrAlertN && (up 6 1).pins.coolOk && decide ((up 6 2).power.attempts.getD 5 0 < 3) && decide (3 ≤ (up 6 3).power.attempts.getD 5 0) &&
       (pw { st := .up, settling := true }).power.settling && (pw { st := .unwind, toFail := true }).power.toFail && !(pw { st := .unwind }).power.toFail &&
       !(pw { st := .unwind } (fun w => { w with pins := { w.pins with wake := false } })).pins.wake && (pw { st := .unwind }).pins.wake && (pw { st := .unwind }).pins.resetN &&
       (pw { st := .wakeFailed, failed := 2 }).power.st == .wakeFailed) = true := by decide +kernel

/-- Trims that pass, one that lies too far from its typical voltage, and two that do not rise. -/
theorem witness_TrimmedVoltages :
    (let mv := fun (o : Otp) (i : Nat) => 400 + 5 * leAt o.factory (16 + i) 1
     let far : Otp := { otp0 with factory := otp0.factory.set 16 0#8 }
     let flat : Otp := { otp0 with factory := otp0.factory.set 17 30#8 }
     let w := pw { st := .up, stage := 4, attempts := [1, 1, 1, 2, 0, 0] }
     decide (511 < 2 ^ 9) && w.power.st == .up && w.power.stage == 4 && !w.power.settling && decide (mv far 0 + 50 < typicalMv 0 ∨ typicalMv 0 + 50 < mv far 0) &&
       decide (mv flat 1 ≤ mv flat 0) && decide (w.power.attempts.getD 3 0 < 3)) = true := by decide +kernel

theorem witness_PowerDownAndLoss :
    (let dn := fun (n : Nat) => pw { st := .down, dstep := n }
     let busy := pw { st := .down, dstep := 1 } (fun w => { w with sched := { w.sched with tasks := [task0] } })
     let one := pw { st := .down, dstep := 2 } (fun w => { w with sched := { w.sched with tasks := [task0] } })
     let low := pw { st := .down, dstep := 6 } (fun w => { w with pins := { w.pins with wake := false } })
     ((dn 1).quiet || (dn 1).pt.halted) && !(busy.quiet || busy.pt.halted) && (dn 2).sched.tasks.isEmpty && one.sched.tasks == [task0] && one.step? task0.id == none && !one.multi &&
       (dn 4).pins.wake && (pw { st := .down, dstep := 4, toDoze := true }).power.toDoze && !(dn 4).power.toDoze && !low.pins.wake && (dn 6).pins.resetN &&
       decide (world0.power.st ≠ .dormant) && decide (world0.power.st ≠ .wakeFailed) && (pw { st := .dormant }).power.st == .dormant) = true := by decide +kernel

/-- A frame of node 5 to an engine that dozes. -/
theorem witness_IdleAndDoze :
    (let act := pw { st := .active, entering := true }
     let busy := pw { st := .active } (fun w => { w with sched := { w.sched with tasks := [task0] } })
     let dz := fun (p : Power) => pw { p with st := .doze } (fun w => { w with live := { w.live with clkreq := true } })
     let msg := adpMsg 1 5 3 7 0x1000 1 2 0 0 []
     act.power.entering && act.quiet && !busy.quiet && bitAt (dz {}).power.dozeSrc 0 && (dz {}).live.clkreq && decide ((dz {}).host.speed ≠ 0) && (dz {}).pins.wake &&
       (dz {}).power.exiting == none && (dz {}).accepts (dz {}).mac (msgOf (unpad msg)) && decide ((msgOf (unpad msg)).src < 32) && bitAt (dz {}).power.dozeSrc 1 && decide ((0x88B6 : Nat) ≠ etherType) &&
       decide ((dz {}).stn.waiting < 16) && decide (16 ≤ (full16 (dz {})).stn.waiting) && decide ((full16 (dz {})).stn.txq.length < 16) && !bitAt (dz { dozeSrc := 1 }).power.dozeSrc 1 &&
       !(msgOf (unpad msg)).isAck false && !(dz {}).power.resided && (dz { resided := true }).power.resided && (dz {}).power.heldExit == none &&
       (dz { heldExit := some 2 }).power.heldExit == some 2 && (dz { exiting := some 2 }).power.exiting == some 2 && (dz {}).stn.rx.isEmpty && (dz {}).power.req == 0 &&
       (dz {}).pins.pwrAlertN && (dz {}).pins.coolOk) = true := by decide +kernel

/-- A sample of power in each band of the cap loop: calm, quiet, above the budget, above 5 % over and above 15 % over. -/
theorem witness_CapLoop :
    (let p : OpPoint := { notch := 5 }
     let past := fun (pct : Nat) (doms : List Nat) => (List.range 4).any (fun d => decide (pct * (p.ratio doms d).2 < (p.ratio doms d).1))
     let at_ := fun (x : Nat) => [11160 * x / 100, 0, 0, 0]
     (List.range 4).all (fun d => decide (0 < (p.ratio (at_ 90) d).2)) && decide (p.capMem ≤ 2) && decide (p.notch ≤ 19) && !past 90 (at_ 50) && past 90 (at_ 95) && !past 100 (at_ 95) &&
       past 100 (at_ 103) && !past 105 (at_ 103) && past 105 (at_ 110) && !past 115 (at_ 110) && past 115 (at_ 120) && decide (({ p with calm := 6 } : OpPoint).calm < 7) &&
       decide (7 ≤ ({ p with calm := 7 } : OpPoint).calm)) = true := by decide +kernel

theorem witness_PowerSamples :
    (let w := world0
     let idle := pw { st := .idle }
     let old : World := { idle with meter := { idle.meter with calAge := 3601 }, pt := { idle.pt with conf := 1 } }
     w.clocked && decide (([1, 2, 3, 4] : List Nat).length = 4) && !w.inJob && !w.pt.safety && !w.pt.slow && ({ w with pt := { w.pt with ramp := some (1, 0) } } : World).pt.ramp == some (1, 0) &&
       decide (w.pt.softMa < 13001) && decide (13001 < 16000) && decide (w.pt.softMa < 16000) && ({ w with pt := { w.pt with slow := true } } : World).pt.slow && decide (2899 < 2900) && !w.pt.regAlert &&
       decide (({ w.pt with clamp := 8 } : OpPoint).clamp ≤ ({ w.pt with clamp := 8 } : OpPoint).ladder) && idle.power.st == .idle && decide (60 < idle.meter.calAge) && decide (w.power.st ≠ .idle) &&
       ({ w with meter := { w.meter with calRun := true } } : World).meter.calRun && old.clocked && decide (3600 < old.meter.calAge) && !old.meter.stale &&
       decide (old.log.staged.length < 64) && decide (old.pt.conf ≠ old.pt.confSeen) && decide (w.pt.conf = w.pt.confSeen)) = true := by decide +kernel

theorem witness_SensorsAndSafety :
    (let w := world0
     let hot := 115 * 16
     let temps : List Int := List.replicate 23 0 ++ [hot]
     let trip : World := { w with pt := { w.pt with trip := true } }
     let cool : World := { w with pt := { w.pt with coolStop := true } }
     let alert : World := { w with pt := { w.pt with alert := true, regAlert := true } }
     let stp := { w with train := { w.train with steps := [{ step0 with marked := false }] }, sched := { w.sched with tasks := [task0] } }
     w.clocked && decide (temps.length = 24) && decide (hot ≤ temps.foldl max 0) && !w.pt.halted && trip.pt.trip && !trip.pt.coolStop && decide (trip.meter.hot < 95 * 16) && cool.pt.coolStop &&
       !cool.pt.trip && cool.pins.coolOk && decide (95 * 16 ≤ ({ w.meter with hot := 1520 } : Meter).hot) && !w.pt.alert && stp.task? ⟨0, 0⟩ == some task0 && !stp.multi &&
       w.pins.pwrAlertN && alert.pt.alert && alert.pt.regAlert && !w.pt.regAlert && decide (({ w.meter with vin := 2899 } : Meter).vin < 2900) && decide (2900 ≤ ({ w.meter with vin := 2900 } : Meter).vin) &&
       decide (w.meter.regHot < 125 * 16) && decide (125 * 16 ≤ ({ w.meter with regHot := 2000 } : Meter).regHot) &&
       (let l : World := { w with pt := { w.pt with op := 0, mem := 0, slow := true }, link := { w.link with ownCeil := ptVal (0, 0) } }
        !l.inJob && l.pt.slow && ptOf l.link.ownCeil == (0, 0) && (l.pt.op, l.pt.mem) == (0, 0) && l.pt.ramp.isNone)) = true := by decide +kernel

/-! The machine as a whole, and requests. -/

/-- The engine with the window's client at an access level. -/
def wl (l : Nat) (f : World → World := id) : World := f { world0 with stn := { world0.stn with clients := [{ id := 254, level := l }] } }

/-- States whose steps are next states, with the hypotheses that the statements make of them. -/
theorem witness_EmptyQueueTicks : (st0 id).pending = [] ∧ (st0 id).w.clocked = true ∧ (st0 id).w.timed = true ∧ (st0 id).w.stn.rx = [] ∧
    (st0 full16).pending = [] ∧ (st0 full16).w.clocked = true ∧ (st0 full16).w.stn.rx ≠ [] := by decide +kernel

theorem witness_exec_next : (∃ t, exec .heartbeatSend (st0 id) = .next t) ∧ (∃ t, step (st0 id) = .next t) := ⟨⟨_, rfl⟩, ⟨_, rfl⟩⟩

theorem witness_exec_next_not_programming : (∃ t, exec .heartbeatSend (st0 id) = .next t) ∧ (∀ ok, Instr.heartbeatSend ≠ .otpWordProgrammed ok) :=
  ⟨⟨_, rfl⟩, fun _ => nofun⟩

theorem witness_sound_state : (st0 id).otp.records.length = 4 ∧ (st0 id).otp.hashes.length = 4 ∧ (st0 id).vault.tenants = [] := by decide +kernel

theorem witness_ledgers : (st0 id).pending.head? ≠ some .checkpointRestoreDone ∧ (st0 id).w.stn.rx = [] := by decide +kernel

theorem witness_ReadsAnswer :
    (world0.carries rqW kRead && world0.room rqW && world0.carries rqN kRead && world0.room rqN && (world0.objCheck 254 0x1000 2 false true).1 == 0 &&
      (world0.objCheck 254 0x1000 2 false true).2.isSome && world0.selCheck (reqOf rqW 0x1000 2) 0x1000 2 == 0 &&
      decide ((world0.readObj otp0 { tenants := [] } (reqOf rqW 0x1000 2) 0x1000 2).length ≤ 1024) && decide (0 < (world0.objCheck 254 0x1000 99 false true).1) &&
      decide ((world0.objCheck 254 0x1000 99 false true).1 < 2 ^ 16) &&
      (let msg := adpMsg 1 5 3 7 0x1000 1 2 0 0 []
       let m := msgOf (unpad msg)
       world0.t1sOn && world0.power.st != .doze && world0.accepts world0.mac m && decide (m.src < 32) && decide (m.src ≠ world0.live.nodeId) && leAt msg 1 1 == kRead &&
         decide (world0.stn.waiting < 16) && decide (16 ≤ (full16 world0).stn.waiting) && decide ((full16 world0).stn.txq.length < 16) && world0.stn.rx.isEmpty && decide ((0x88B6 : Nat) ≠ etherType))) = true := by decide +kernel

/-- A write that is done when it is answered, and one that is owed. -/
theorem witness_WritesAct :
    (let w := wl 1
     w.room rqW && w.admits rqW 0x3230 2 (leBytes 2 5) && (State.writeOf (st0 (fun _ => w)) (reqOf rqW 0x3230 2) 0x3230 2 (leBytes 2 5)).owed.isNone &&
       w.admits rqW 0x3600 6 (leBytes 1 1) && (State.writeOf (st0 (fun _ => w)) (reqOf rqW 0x3600 6) 0x3600 6 (leBytes 1 1)).owed.isSome) = true := by decide +kernel

/-- A read of 2,048 bytes under way, and a write of 100 into 0x3230:02's client. -/
theorem witness_SegmentedTransfers :
    (let t : Transfer := { client := 254, write := false, index := 0x3800, sub := 4, data := zeros 2048 }
     let x : Transfer := { t with write := true, index := 0x3230, sub := 2, data := leBytes 1 5, next := 2 }
     let w := fun (t : Transfer) => wl 1 (fun w => { w with stn := { w.stn with transfers := [t] } })
     let a := State.writeOf (st0 (fun _ => ((w x).hears rqW (reqSeg (w x) rqW kWriteSeg x.index x.sub 2 2 [0#8])).endTransfer 254)) { reqOf rqW x.index x.sub with sel := x.sel } x.index x.sub (x.data ++ [0#8])
     (w t).room rqW && (w t).transfer (reqClient rqW) == some t && !t.timedOut && (w t).carries rqW kReadSeg && !t.write && decide (0 < segCount t.data) && decide (0 + 1 ≠ segCount t.data) &&
       decide (1 + 1 = segCount t.data) && (w x).carries rqW kWriteSeg && x.write && decide (2 = x.next) && decide ((zeros 1024).length = 1024) && a.owed.isNone && decide (a.status = 0) &&
       (w x).transfer (reqClient rqW) == some x && (w x).carries rqW kAbort && ((w x).objCheck 254 x.index x.sub true false).1 == 0 && ((w t).objCheck 254 t.index t.sub false false).1 == 0 &&
       (w { t with timedOut := true }).transfer 254 == some { t with timedOut := true } && decide (0 < ((w { t with sub := 99 }).objCheck 254 t.index 99 false false).1) &&
       decide (((w { t with sub := 99 }).objCheck 254 t.index 99 false false).1 < 2 ^ 16)) = true := by decide +kernel

theorem witness_DiscoverAndNotify :
    (let u : Unacked := { seq := 9, mac := 0x020000000005, msg := [] }
     let noted := fun (told : List Bytes) => ({ world0 with adp := { world0.adp with noteCar := 2, watch := (2 ^ 16 * 0x1000 + 2 ^ 8 * 2) :: List.replicate 15 0, told := told } } : World)
     let w := noted (List.replicate 16 [])
     let d := w.readObj otp0 { tenants := [] } { client := 254 } 0x1000 2
     let un := fun (n : Nat) => ({ world0 with stn := { world0.stn with unacked := [{ u with resends := n }], txq := [(1, [])] }, adp := { world0.adp with beaconOk := true } } : World)
     !world0.stn.busy && ({ world0 with stn := { world0.stn with busy := true } } : World).stn.busy && !({ world0 with host := {} } : World).hostUp &&
       world0.carries rqW kDiscover && world0.carries rqN kDiscover && world0.room rqN && world0.carries rqN kAck && world0.hostUp && w.clocked && w.adp.noteCar == 2 &&
       w.watchable 0x1000 2 && w.adp.told.length == 16 && decide ((w.stn.head + 1) % 256 ≠ w.stn.tail) && decide (w.adp.told.getD 0 [] ≠ d) &&
       decide ((noted (d :: List.replicate 15 [])).adp.told.getD 0 [] = d) && (un 2).stn.unacked.find? (fun x => x.seq == 9) == some { u with resends := 2 } &&
       decide ((un 2).stn.txq.length < 16) && (un 3).stn.unacked.find? (fun x => x.seq == 9) == some { u with resends := 3 } && (un 0).t1sOn && (un 0).adp.beaconOk && !(un 0).stn.txq.isEmpty &&
       !world0.adp.beaconOk) = true := by decide +kernel

/-- The response that opens level 1 to the window, and one that does not. -/
def levelAnswer (w : World) (lvl ch : Nat) : Bytes :=
  byteOf lvl :: hmac (if lvl = 1 then w.integratorKey else w.factoryPassword) (leBytes 16 ch ++ [byteOf lvl, clientByte 254] ++ slice w.live.factory 0 8)

/-- The engine with the window's client changed. -/
def cl (c : Client) (f : World → World := id) : World := f { world0 with stn := { world0.stn with clients := [c] } }

theorem witness_levels :
    (let c : Client := { id := 254, chal := some 77, wrong := 2 }
     let w := cl c
     let d := levelAnswer w 1 77
     let bad := cl c (fun w => { w with sec := { w.sec with entropyBad := true } })
     w.room rqW && w.carries rqW kRead && w.client 254 == c && decide (c.locked = 0) && !w.sec.entropyBad && decide (((cl { c with locked := 5 }).client 254).locked ≠ 0) && bad.sec.entropyBad &&
       w.admits rqW 0x1101 2 d && w.live.hasRec && decide (leAt d 0 1 = 1) && slice d 1 32 == (d.drop 1) && w.keepsLevel 254 && w.admits rqW 0x1101 2 (1#8 :: zeros 32) && decide (zeros 32 ≠ d.drop 1) &&
       (cl { c with level := 1 }).admits rqW 0x1101 4 (leBytes 1 0) && decide (w.adp.idleS ≠ 0) && decide (({ w.adp with idleS := 0 } : Adp).idleS = 0)) = true := by decide +kernel

theorem witness_debug :
    (let c : Client := { id := 254, level := 1, dchal := some 77 }
     let w := cl c
     let d : Bytes := 1#8 :: hmac w.debugKey (leBytes 16 77 ++ [1#8] ++ slice w.live.factory 0 8 ++ strBytes "DEBUG")
     let un := cl c (fun w => { w with sec := { w.sec with unlocked := true } })
     w.room rqW && decide (w.log.staged.length < 63) && w.carries rqW kRead && w.objCheck 254 0x1300 8 false true == (0, some (ro 8 1 16)) && decide (c.dlocked = 0) && !w.sec.entropyBad &&
       w.admits rqW 0x1300 9 d && !bitAt otp0.secBits 1 && decide (leAt d 0 1 = 1) && !w.sec.session && w.link.jobState == 0 && w.debugRight 1 77 (slice d 1 32) &&
       w.admits rqW 0x1300 9 (1#8 :: zeros 32) && !w.debugRight 1 77 (zeros 32) && un.admits rqW 0x1300 11 (leBytes 1 0) && un.sec.unlocked) = true := by decide +kernel

theorem witness_power_requests :
    (let at_ := fun (p : Power) => wl 1 (fun w => { w with power := p })
     let down : Power := { st := .down, byReq := true, dstep := 2, stage := 0 }
     world0.pins.wake && (at_ { st := .idle, stage := 0 }).admits rqW 0x2000 1 (leBytes 1 0) && (at_ { st := .active, stage := 0 }).admits rqW 0x2000 1 (leBytes 1 0) &&
       (at_ down).admits rqW 0x2000 1 (leBytes 1 0) && down.byReq && decide (down.dstep ≤ 2) && (wl 1).admits rqW 0x2000 1 (leBytes 1 1) && (wl 1).admits rqW 0x2000 1 (leBytes 1 2) &&
       (at_ { st := .idle, stage := 0 }).admits rqW 0x2000 1 (leBytes 1 2) && (wl 1).power.st == .active) = true := by decide +kernel

theorem witness_queue_requests :
    (let w := wl 1
     let busy := wl 1 (fun w => { w with sched := { w.sched with tasks := [{ task0 with id := ⟨63, 0⟩ }] } })
     w.admits rqW (0x3040 + 63) 1 (leBytes 1 1) && !(w.queue 63).resetting && !(w.queue 63).enabled && (w.queue 63).canStart && w.admits rqW (0x3040 + 0) 1 (leBytes 1 0) &&
       w.admits rqW (0x3040 + 63) 1 (leBytes 1 2) && !(w.sched.tasks.any (fun t => t.id.queue == 63)) && busy.admits rqW (0x3040 + 63) 1 (leBytes 1 2) &&
       busy.sched.tasks.any (fun t => t.id.queue == 63)) = true := by decide +kernel

theorem witness_stream_requests :
    (let w := wl 1
     let c : Ctx := { (w.ctx 127) with src := 3, sink := 3, inBase := 0x10000, outBase := 0x20000, sems := 0x0201 }
     let off : World := { w with host := { w.host with ctxs := Tab.set {} w.host.ctxs 127 c } }
     let on : World := { w with host := { w.host with ctxs := Tab.set {} w.host.ctxs 127 { c with isOpen := true } } }
     w.admits rqW (0x3180 + 1) 1 (leBytes 1 1) && !(w.tdm 1).en && (w.tdm 1).ok && off.admits rqW (0x3100 + 127) 1 (leBytes 1 1) && !(off.ctx 127).isOpen && off.openStatus { tenants := [] } 127 (off.ctx 127) == 0 &&
       on.admits rqW (0x3100 + 127) 1 (leBytes 1 0) && on.admits rqW 0x3230 2 (leBytes 2 65535)) = true := by decide +kernel

theorem witness_job_requests :
    (let p : Peer := { stepping := world0.stepping, fwHigh := 0x0102, cls := 1, size := 2, grid := 0x11, tray := 0, slot := 1, trained := true, wired := true }
     let w := wl 1 (fun w => { w with live := { w.live with cls := 1 }, link := { w.link with jobSize := 2, ports := [{ nbr := some (1, 0) }, {}, {}, {}] } })
     let one := wl 1 (fun w => { w with live := { w.live with cls := 0 } })
     w.admits rqW 0x3600 6 (leBytes 1 1) && w.link.jobState == 0 && w.jobConfigOk [p] && decide (w.live.cls ≠ 0xFF) && p.stepping == w.stepping && p.fwHigh == w.sec.fw / 2 ^ 16 &&
       decide (p.cls ≠ 0xFF) && decide (w.jobPorts ≠ []) && w.link.ports.length == 4 && one.admits rqW 0x3600 6 (leBytes 1 1) && one.jobConfigOk [] && one.link.jobSize == 1 &&
       decide (one.live.cls ≠ 1) && decide (one.live.cls ≠ 2) && w.admits rqW 0x3600 6 (leBytes 1 2) && (inJob0 world0).multi && decide ((inJob0 world0).link.jobState ≠ 1) &&
       (let bad := wl 1 (fun w => { w with live := { w.live with cls := 0xFF } })
        bad.admits rqW 0x3600 6 (leBytes 1 1) && bad.link.jobState == 0 && decide (bad.live.cls = 0xFF))) = true := by decide +kernel

theorem witness_programming_requests :
    (let w := wl 1
     let stg : World := { w with sec := { w.sec with staged := some (zeros 64) } }
     let o : Otp := { otp0 with marks := 0x3F }
     let none_ : World := { w with sec := { w.sec with fw := 0 } }
     let idle : World := { w with power := { st := .idle, stage := 0 } }
     let req := leBytes 8 0x1000 ++ leBytes 4 1000 ++ zeros 4
     w.otpConditions && stg.admits rqW 0x1200 5 (leBytes 1 1) && (st0 (fun _ => stg)).nextGen.isSome && w.admits rqW 0x1200 9 (leBytes 1 1) &&
       w.admits rqW 0x1300 4 (leBytes 1 3 ++ zeros 3 ++ zeros 32) && !(st0 (fun _ => w)).slotUsed 3 && w.admits rqW 0x1300 5 (leBytes 1 0) && usableSlot ({ st0 (fun _ => w) with otp := o } : State).marksDue 1 &&
       w.admits rqW 0x1300 12 (leBytes 1 1) && none_.admits rqW 0x1300 1 req && none_.sec.loading.isNone && none_.sec.fw == 0 && idle.admits rqW 0x1300 1 req && idle.power.st == .idle &&
       idle.sched.tasks.isEmpty && idle.link.jobState == 0) = true := by decide +kernel

/-! Sessions, tenants, OTP, firmware, faults and the test access port. -/

/-- The fields of a session request. -/
def sessReq (op room basis : Nat) : Bytes := leBytes 4 op ++ leBytes 4 room ++ leBytes 8 basis ++ leBytes 8 0x60000 ++ leBytes 8 0x70000

/-- The engine in a session, at level 1 of the window. -/
def sessW (f : World → World := id) : World := wl 1 (fun w => f { w with sec := { w.sec with session := true } })

theorem witness_session_requests :
    (let v : Vault := { tenants := [(5, { ten0 with st := 2 })] }
     let w := wl 1
     let e : ManEntry := { id := 5, len := 600, off := 128, digest := zeros 32 }
     let b : World := { w with mem := { w.mem with mem := Tab.setRun 0 [] 0x50000 (w.manifest 0 1 [(e, false)]) } }
     w.admits rqW 0x3700 4 (sessReq 1 64 0) && w.sec.req.isNone && otp0.session == 0 && w.otpConditions && !w.sec.session && leAt (sessReq 1 64 0) 8 8 == 0 && leAt (sessReq 1 64 0) 4 4 == 64 &&
       b.admits rqW 0x3700 4 (sessReq 1 112 0x50000) && b.basis 0 0x50000 == some [e] && sessW.admits rqW 0x3700 4 (sessReq 2 64 0) && sessW.sec.session &&
       ({ tenants := [] } : Vault).held.isEmpty && v.held == [(5, { ten0 with st := 2 })] && !sessW.tenantBusy 5 && decide (128 + ten0.blobLen ≤ 0x1000) &&
       sessW.admits rqW 0x3700 4 (sessReq 2 0x1000 0)) = true := by decide +kernel

/-- A tenant's command: its operation, the tenant, a blob's address and four bases. -/
def tenReq (op id : Nat) : Bytes := leBytes 2 op ++ leBytes 2 id ++ zeros 4 ++ leBytes 8 0x10000 ++ leBytes 8 0x100000 ++ leBytes 8 0x200000 ++ leBytes 8 0x300000 ++ leBytes 8 0x400000

theorem witness_tenant_requests :
    (let v : Vault := { tenants := [(5, ten0)] }
     let p := pendOf_ rqW 0x3702 1
     sessW.admits rqW 0x3702 1 (ten0.record 5) && leAt (ten0.record 5) 0 2 == 5 && ((({ tenants := [] } : Vault).tenant 5).st == 0) && sessW.admits rqW 0x3702 2 (tenReq 1 5) &&
       leAt (tenReq 1 5) 0 1 == 1 && sessW.admits rqW 0x3702 2 (tenReq 2 5) && leAt (tenReq 2 5) 2 2 == 5 && decide ((v.tenant 5).st ≠ 0) && !sessW.tenantBusy 5 &&
       (sessW (fun w => { w with sec := { w.sec with tenReqs := [(0, p)] } })).sec.tenReqs == [(0, p)] && sessW.sec.tenReqs.isEmpty) = true := by decide +kernel

/-- A blob of a tenant of four values: its header, its plaintext and the whole, sealed under the export key, and the manifest's entry of it. -/
def bHead : Bytes := leBytes 4 0x58544659 ++ leBytes 2 5 ++ zeros 2 ++ leBytes 4 1 ++ zeros 12 ++ (leBytes 4 1 ++ leBytes 2 5 ++ zeros 6) ++ leBytes 4 992

def bBody : Bytes := leBytes 4 4 ++ leBytes 4 16 ++ leBytes 4 16 ++ leBytes 4 16 ++ leBytes 8 (2 ^ 40) ++ zeros 968

def bBlob : Bytes := bHead ++ (gcmSeal sessW.exportKey (slice bHead 24 12) bHead bBody).1 ++ (gcmSeal sessW.exportKey (slice bHead 24 12) bHead bBody).2

def bEnt : ManEntry := { id := 5, len := 1048, digest := sha256 bBlob }

/-- The engine in a session whose manifest lists the blob, which lies in memory. -/
def impW : World := sessW (fun w => { w with mem := { w.mem with mem := Tab.setRun 0 [] 0x10000 bBlob }, sec := { w.sec with entries := [bEnt] } })

theorem bBlob_length : bBlob.length = 1048 := by
  have hb : bBody.length = 992 := by decide +kernel
  have hh : bHead.length = 40 := by decide +kernel
  rw [bBlob, List.length_append, List.length_append, Laws.Crypto.gcmSeal_length, Laws.Blob.tag_length, hb, hh]

theorem impW_mem : impW.mem.mem = Tab.setRun 0 [] 0x10000 bBlob := by simp only [impW, sessW, wl]

theorem exportKey_eq {w v : World} (h : w.live = v.live) (hu : w.sec.unlocked = v.sec.unlocked) : w.exportKey = v.exportKey := by
  simp only [World.exportKey, World.rootKey, World.debugByte, h, hu]

theorem impW_key : impW.exportKey = sessW.exportKey := exportKey_eq (by simp only [impW, sessW, wl, id]) (by simp only [impW, sessW, wl, id])

theorem impW_entry : impW.sec.entries.find? (fun e => e.id == 5) = some bEnt := rfl

theorem impW_load : impW.load 0x10000 bEnt.len = bBlob := by
  have h := Laws.Blob.getRun_setRun [] 0x10000 bBlob
  rw [bBlob_length] at h
  rw [World.load, impW_mem, show bEnt.len = 1048 by simp only [bEnt]]
  exact h

theorem witness_import_opens : impW.openBlob bEnt 0x10000 = some bBody :=
  Laws.Blob.openBlob_sealed impW bEnt 0x10000 bHead bBody (by decide +kernel) (by decide +kernel) (by decide +kernel) (by decide +kernel)
    (by rw [impW_load, impW_key, bBlob]) (by rw [impW_load, bEnt]) (by decide +kernel) (by decide +kernel) (by decide +kernel) (by decide +kernel)

theorem witness_import :
    (let t := tenantOfBlob bBody bEnt.armed (fun i => leAt (tenReq 1 5) (16 + 8 * i) 8)
     impW.admits rqW 0x3702 2 (tenReq 1 5) && impW.sec.session && !bEnt.done && leAt (tenReq 1 5) 8 8 == 0x10000 &&
       decide (bBody.length = 96 + t.genLen) && impW.areasOk t) = true := by decide +kernel

/-! OTP, firmware, faults and the test access port. -/

/-- Requests to program OTP, one at each end of a clause, and what OTP holds for them. -/
theorem witness_otp_jobs :
    (decide (3 < otp0.records.length) && decide (30 < 31) && decide (6 < 7) && decide (12286 + 1 < 12288) &&
      (st0 (fun w => { w with sec := { w.sec with otpJobs := [(.record 3 (zeros 128) 30, none)] } })).w.sec.otpJobs == [(OtpJob.record 3 (zeros 128) 30, none)] &&
      (st0 (fun w => { w with sec := { w.sec with otpJobs := [(.hash 3 (zeros 32) 6, none)] } })).w.sec.otpJobs == [(OtpJob.hash 3 (zeros 32) 6, none)] &&
      (st0 (fun w => { w with sec := { w.sec with otpJobs := [(.session 12286, none)] } })).w.sec.req.isNone && (st0 id).w.sec.otpJobs.isEmpty) = true := by decide +kernel

/-- A header of an image of one byte under slot 0, its key that of RFC 6979 A.2.5, and the image. -/
def imgHead : Bytes :=
  leBytes 4 0x4D574659 ++ leBytes 4 0x01020000 ++ leBytes 4 1 ++ zeros 4 ++
    beBytes 32 0x60fed4ba255a9d31c961eb74c6356d68c049b8923b61fa6ce669622e60f29fb6 ++ beBytes 32 0x7903fe1008b8bc99a41ae9e95628bc64f2f1b20c2d7e9f5177a3c294d4462299

def img0 : Bytes :=
  imgHead ++ beBytes 32 0xefd48b2aacb6a8fd1140dd9cd45e81d69d2c877b56aaf991c34d0ea84eaf3716 ++
    beBytes 32 0xeb3588fa513992ee5ba896959f40d08cba2dee43d2b66af86979b48c885df38b ++ zeros 16 ++ [0x5A#8]

/-- OTP whose slot 0 names the image's key. -/
def otpK : Otp := { otp0 with marks := 7, hashes := sha256 (slice imgHead 16 64) :: List.replicate 3 (zeros 32) }

/-- The image verifies: its signature was made outside the model. -/
theorem test_image_verifies : otpK.verify img0 = 0 := by decide +kernel

/-- An image that is cut short does not verify, and one under a slot that is not valid is refused for it. -/
theorem witness_images :
    (decide (otpK.verify (img0.take 160) ≠ 0) && decide (leAt img0 0 4 = 0x4D574659) && allZero (slice img0 13 3) && allZero (slice img0 144 16) && decide (1 ≤ leAt img0 8 4) &&
      decide (leAt img0 8 4 ≤ 2 ^ 23) && decide (img0.length = 160 + leAt img0 8 4) && !usableSlot ({ otpK with marks := 0 } : Otp).markBits (leAt img0 12 1) && world0.clocked &&
      (let p := pendOf_ rqW 0x1300 1
       let w := { world0 with sec := { world0.sec with loading := some (img0, p) }, log := { world0.log with wd := true } }
       w.sec.loading == some (img0, p) && w.log.wd && w.host.waits.isEmpty) && world0.sec.loading.isNone) = true := by decide +kernel

theorem witness_faults :
    (let one := (opSt []).w
     let e : Entry := { ns := 0, seq := 0, code := 0x0017, kind := 0, inst := 0 }
     let lg := fun (n : Nat) (gap : Option (Nat × Nat)) => ({ world0 with log := { world0.log with staged := List.replicate n e, gap := gap }, adp := { world0.adp with noteCar := 2 } } : World)
     world0.clocked && world0.sched.tasks.isEmpty && decide (10 ≤ world0.log.faults.length) && one.sched.tasks == [task0] && one.clocked && decide (15 < 16) &&
       (world0.sched.tasks.find? (fun t => t.runsOn 15)).isNone && one.sched.tasks.find? (fun t => t.runsOn 0) == some task0 && one.task? task0.id == some task0 && !one.multi &&
       (lg 1 none).log.staged == [e] && !bitAt (lg 1 none).adp.noteCar 2 && !bitAt (lg 1 none).adp.noteCar 3 && (lg 1 none).log.gap.isNone && (lg 64 (some (1, 5))).log.gap == some (1, 5) &&
       decide ((lg 64 none).log.staged.tail.length < 64) && decide (63 ≤ (lg 64 none).log.staged.tail.length) && decide ((lg 63 none).log.staged.tail.length < 63)) = true := by decide +kernel

theorem witness_test_port :
    (let tk : World := { world0 with tap := { world0.tap with takeover := true } }
     let locked : Otp := { otp0 with sec := 7 }
     publicCodes.contains 0x80 == false && world0.chainOpen locked == false && world0.pins.vio && tk.pins.vio && !world0.tap.takeover && tk.tap.takeover && world0.clocked && decide (world0.log.staged.length < 64) && ((world0.updTdm 1 (fun t => { t with en := true })).tdm 1).en) = true := by
  decide +kernel

theorem witness_version_during_load : ((st0 (fun w => { w with sec := { w.sec with loading := some (img0, pendOf_ rqW 0x1300 1), fw := 0 } })).w.sec.fw = 0) ∧
    ∃ t, step (st0 (fun w => { w with sec := { w.sec with loading := some (img0, pendOf_ rqW 0x1300 1), fw := 0 } })) = .next t := ⟨rfl, ⟨_, rfl⟩⟩

/-! The package: Table 14.2's groups, and the worked positions of chapter 14. -/

/-- How many positions of the array carry a ball of a kind. -/
def balls (f : Ball → Bool) : Nat := (List.range 34).foldl (fun n r => n + (List.range 34).countP (fun c => f (ballAt (r + 1) (c + 1)))) 0

theorem test_ball_groups :
    ([balls (· == .vin), balls (· == .gnd), balls (· == .vio), balls (· == .reserved)] == [40, 924, 4, 12] &&
      (List.range 4).all (fun k => balls (fun b => match b with | .lane p _ _ _ => p == k | _ => false) == 32) &&
      balls (fun b => match b with | .pcie .. => true | _ => false) == 16 && balls (fun b => match b with | .t1s _ => true | _ => false) == 2 &&
      balls (fun b => match b with | .sig _ => true | _ => false) == 30 && scanCells.length == 25) = true := by decide +kernel

/-- K2's lane 5 transmits at B21 and B22, and K0's lane 7 receives at AL4 and AM4. -/
theorem test_lane_balls :
    ([ballAt 2 21, ballAt 2 22, ballAt 30 4, ballAt 31 4] == [.lane 2 5 true true, .lane 2 5 true false, .lane 0 7 false true, .lane 0 7 false false] &&
      rowNames.length == 34 && [2, 30, 31].map (fun r => rowNames.getD (r - 1) "") == ["B", "AL", "AM"]) = true := by decide +kernel

/-- A master port's clocks are driven while it is enabled, and are inputs in Doze. -/
theorem witness_signals :
    (let m := world0.updTdm 1 (fun t => { t with en := true, role := 1 })
     let d : World := { m with power := { m.power with st := .doze } }
     m.tdmPins && (m.wire (.bclk 1)).drives && !d.tdmPins && !(d.wire (.bclk 1)).drives && decide (({ m with pins := { m.pins with vio := false } } : World).pins.vio = false)) = true := by decide +kernel

/-! Published test vectors of the standards that Table 0.4 names (FIPS 180-4, RFC 4231). -/

theorem test_sha256_abc : beVal (sha256 (strBytes "abc")) = 0xba7816bf8f01cfea414140de5dae2223b00361a396177a9cb410ff61f20015ad := by decide +kernel

theorem test_hmac_case_2 : beVal (hmac (strBytes "Jefe") (strBytes "what do ya want for nothing?")) =
    0x5bdcc146bf60754e6a042426089575c75a003f089d2739839dec58b964ec3843 := by decide +kernel

theorem test_crc32_check : crc32 (strBytes "123456789") = 0xCBF43926 := by decide +kernel

end Sys2Proof.Tests
end

namespace Sys2Proof.Machine

open Sys2Proof

/-! What each named update leaves of the security state, in the order of the model's files: all of it, or its boot part, which is what
the firmware version rests on (R14). -/

/-- The firmware version and the load in progress. -/
def Sec.boot (c : Sec) : Nat × Option (Bytes × Pend) := (c.fw, c.loading)

/-- Every other field may change. -/
@[simp] theorem Sec.boot_mk (c : Sec) (slot status prev : Nat) (staged : Option Bytes) (jobs : List (OtpJob × Option Pend)) (verFail : Nat)
    (unlocked bad session : Bool) (entries : List ManEntry) (req : Option (SessReq × Pend)) (tenReqs : List (Nat × Pend))
    (tenStatus closeBytes drawn used : Nat) :
    (Sec.mk c.fw slot status prev c.loading staged jobs verFail unlocked bad session entries req tenReqs tenStatus closeBytes drawn used).boot =
      c.boot := rfl

/-- A part that every step of a fold leaves is left by the fold. -/
theorem foldl_keeps {σ α β : Type} (g : σ → α) {f : σ → β → σ} (h : ∀ s b, g (f s b) = g s) (l : List β) (s : σ) :
    g (l.foldl f s) = g s := by
  induction l generalizing s with
  | nil => rfl
  | cons b l ih => exact (ih (f s b)).trans (h s b)

@[simp] theorem World.foldl_sec {β : Type} {f : World → β → World} (h : ∀ w b, (f w b).sec = w.sec) (l : List β) (w : World) :
    (l.foldl f w).sec = w.sec := foldl_keeps World.sec h l w

@[simp] theorem World.foldl_boot {β : Type} {f : World → β → World} (h : ∀ w b, (f w b).sec.boot = w.sec.boot) (l : List β) (w : World) :
    (l.foldl f w).sec.boot = w.sec.boot := foldl_keeps (fun w => w.sec.boot) h l w

/-! Links and messages (chapter 09). -/

@[simp] theorem World.pumpOne_sec (w : World) (k : Nat) : (w.pumpOne k).sec = w.sec := by simp only [World.pumpOne]; (repeat' split) <;> simp
@[simp] theorem World.pump_sec (w : World) (k : Nat) : (w.pump k).sec = w.sec := by simp [World.pump]
@[simp] theorem World.control_sec (w : World) (k : Nat) (nak : Option Nat) : (w.control k nak).sec = w.sec := by simp [World.control]
@[simp] theorem World.resendFrom_sec (w : World) (k seq : Nat) : (w.resendFrom k seq).sec = w.sec := by
  unfold World.resendFrom
  dsimp only
  split
  · rfl
  · exact (World.foldl_sec (fun _ _ => by simp) _ _).trans rfl
@[simp] theorem World.launchFrom_sec (w : World) (src vc dst : Nat) (bytes : Bytes) (lvl : Option Nat) :
    (w.launchFrom src vc dst bytes lvl).sec = w.sec := by
  unfold World.launchFrom; split <;> simp
@[simp] theorem World.launch_sec (w : World) (vc dst : Nat) (bytes : Bytes) : (w.launch vc dst bytes).sec = w.sec := by simp [World.launch]
@[simp] theorem World.message_sec (w : World) (typ vc dst tag addr : Nat) (data : Bytes) : (w.message typ vc dst tag addr data).sec = w.sec := by
  simp [World.message]
@[simp] theorem World.messageTo_sec (w : World) (typ vc logical tag addr : Nat) (data : Bytes) :
    (w.messageTo typ vc logical tag addr data).sec = w.sec := by
  unfold World.messageTo; split <;> simp
@[simp] theorem World.forwardBlock_sec (w : World) (except_ : Option Nat) (blk : Nat) : (w.forwardBlock except_ blk).sec = w.sec := by
  simp [World.forwardBlock, List.foldl_filter, apply_ite World.sec]
@[simp] theorem World.flood_sec (w : World) (kind content : Nat) : (w.flood kind content).sec = w.sec := by simp [World.flood]
@[simp] theorem World.passOn_sec (w : World) (k blk : Nat) (r : SbRx) : (w.passOn k blk r).sec = w.sec := by simp [World.passOn]
@[simp] theorem World.dropCarried_sec (w : World) : w.dropCarried.sec = w.sec := by simp [World.dropCarried]
@[simp] theorem World.stopJobTasks_sec (w : World) (status : Nat) : (w.stopJobTasks status).sec = w.sec := by simp [World.stopJobTasks]
@[simp] theorem World.sendCensus_sec (w : World) : w.sendCensus.sec = w.sec := by simp [World.sendCensus]
@[simp] theorem World.beginRestart_sec (w : World) (cause suspect : Nat) (facing : List Nat) : (w.beginRestart cause suspect facing).sec = w.sec := by
  simp only [World.beginRestart]; (repeat' split) <;> simp
@[simp] theorem World.mismatchStop_sec (w : World) : w.mismatchStop.sec = w.sec := by simp [World.mismatchStop]
@[simp] theorem World.jobFault_sec (w : World) (cause suspect kind inst : Nat) : (w.jobFault cause suspect kind inst).sec = w.sec := by
  simp only [World.jobFault]; (repeat' split) <;> simp
@[simp] theorem World.taskFault_sec (w : World) (t : Task) (cause kind inst : Nat) : (w.taskFault t cause kind inst).sec = w.sec := by
  unfold World.taskFault; split <;> simp
@[simp] theorem World.takeCredit_sec (w : World) (n : Nat) : (w.takeCredit n).sec = w.sec := by simp [World.takeCredit]
@[simp] theorem World.giveCredit_sec (w : World) (n : Nat) : (w.giveCredit n).sec = w.sec := by simp [World.giveCredit]
@[simp] theorem World.semMsg_sec (w : World) (l op sem q slot core rank : Nat) : (w.semMsg l op sem q slot core rank).sec = w.sec := by
  simp [World.semMsg]

/-! Tasks, queues and their completions (chapters 06 and 13). -/

@[simp] theorem World.switchIn_sec (w : World) : w.switchIn.sec = w.sec := by
  unfold World.switchIn
  refine World.foldl_sec (fun w t => ?_) _ _
  dsimp only
  split <;> simp
@[simp] theorem World.orphan_sec (glob : Bool) (queue : Nat) (w : World) (n : Nat) : (w.orphan glob queue n).sec = w.sec := by simp [World.orphan]
@[simp] theorem World.relend_sec (w : World) (id : TaskId) : (w.relend id).sec = w.sec := by simp [World.relend]
@[simp] theorem World.forgetChain_sec (w : World) (c : Chain) : (w.forgetChain c).sec = w.sec := by simp [World.forgetChain]
@[simp] theorem World.farHeld_sec (w : World) (n : Nat) : (w.farHeld n).sec = w.sec := by unfold World.farHeld; split <;> simp
@[simp] theorem World.dropChains_sec (w : World) (p : Chain → Bool) : (w.dropChains p).sec = w.sec := by
  unfold World.dropChains
  refine World.foldl_sec (fun w x => ?_) _ _
  (repeat' split) <;> simp
@[simp] theorem World.restoreSlots_sec (w : World) (s : Step) : (w.restoreSlots s).sec = w.sec := by simp [World.restoreSlots]
@[simp] theorem World.undoStep_sec (w : World) (s : Step) : (w.undoStep s).sec = w.sec := by simp only [World.undoStep]; (repeat' split) <;> simp
@[simp] theorem World.endStep_sec (w : World) (id : TaskId) (status : Nat) : (w.endStep id status).sec = w.sec := by
  simp only [World.endStep]; (repeat' split) <;> simp
@[simp] theorem World.settleReset_sec (w : World) (n : Nat) : (w.settleReset n).sec = w.sec := by
  simp only [World.settleReset]; (repeat' split) <;> simp
@[simp] theorem World.removeTask_sec (w : World) (t : Task) (status : Nat) : (w.removeTask t status).sec = w.sec := by
  simp [World.removeTask, apply_ite World.sec]
@[simp] theorem World.finish_sec (w : World) (t : Task) (status : Nat) : (w.finish t status).sec = w.sec := by unfold World.finish; split <;> simp
@[simp] theorem World.finishAfter_sec (w : World) (t : Task) (status : Nat) : (w.finishAfter t status).sec = w.sec := by
  unfold World.finishAfter; split <;> simp
@[simp] theorem World.stopQueue_sec (w : World) (n status : Nat) : (w.stopQueue n status).sec = w.sec := by simp [World.stopQueue]

/-! Flags and counts of operations. -/

@[simp] theorem World.addTotals_sec (w : World) (r : OpRes) : (w.addTotals r).sec = w.sec := by simp [World.addTotals]
@[simp] theorem World.writeReport_sec (w : World) (t : Task) (g index : Nat) (rpt : Bool) (r : OpRes) : (w.writeReport t g index rpt r).sec = w.sec := by
  simp only [World.writeReport]; (repeat' split) <;> simp

/-! Reads and writes of other engines (chapter 07). -/

@[simp] theorem World.messageBytes_sec (w : World) (typ dst tag addr : Nat) (data : Bytes) (sealIt : Bool) :
    (w.messageBytes typ dst tag addr data sealIt).1.sec = w.sec := by
  unfold World.messageBytes; split <;> simp
@[simp] theorem World.sendMsg_sec (w : World) (typ vc dst tag addr : Nat) (data : Bytes) (sealIt : Bool) :
    (w.sendMsg typ vc dst tag addr data sealIt).sec = w.sec := by
  simp [World.sendMsg]
@[simp] theorem World.updColl_sec (w : World) (seq : Nat) (f : Coll → Coll) : (w.updColl seq f).sec = w.sec := by simp [World.updColl]
@[simp] theorem World.sendWaiting_sec (w : World) (x : Waiting) : (w.sendWaiting x).sec = w.sec := by
  simp only [World.sendWaiting]; (repeat' split) <;> simp
@[simp] theorem World.credited_sec (w : World) (x : Waiting) : (w.credited x).sec = w.sec := by unfold World.credited; split <;> simp
@[simp] theorem World.request_sec (w : World) (dst : Nat) (m : Bytes) : (w.request dst m).sec = w.sec := by simp [World.request]
@[simp] theorem World.creditBack_sec (w : World) : w.creditBack.sec = w.sec := by simp only [World.creditBack]; (repeat' split) <;> simp
@[simp] theorem World.ackFlits_sec (w : World) (k ack : Nat) : (w.ackFlits k ack).sec = w.sec := by simp [World.ackFlits]
@[simp] theorem World.takeTag_sec (w : World) : w.takeTag.1.sec = w.sec := by simp [World.takeTag]

/-- The engine's security state is the one given. The projection itself would have the kernel evaluate the lines that a fetch walks. -/
def World.SecIs (c : Sec) (w : World) : Prop := w.sec = c

theorem World.fetchFar_secIs {c : Sec} (w : World) (since l a n : Nat) (hw : w.SecIs c) : (w.fetchFar since l a n).SecIs c := by
  unfold World.fetchFar
  split
  · exact hw
  · refine List.foldlRecOn (motive := World.SecIs c) _ _ hw (fun w h la _ => ?_)
    split
    split
    · exact h
    · exact (World.request_sec _ _ _).trans h

@[simp] theorem World.fetchFar_sec (w : World) (since l a n : Nat) : (w.fetchFar since l a n).sec = w.sec := w.fetchFar_secIs since l a n rfl
@[simp] theorem World.storeFar_sec (w : World) (id : TaskId) (l a : Nat) (bs : Bytes) (sealIt : Bool) : (w.storeFar id l a bs sealIt).sec = w.sec := by
  unfold World.storeFar; split <;> simp

/-! Output streams (chapter 13). -/

@[simp] theorem World.outputPost_sec (n : Nat) (w : World) (c : Nat) : (w.outputPost n c).sec = w.sec := by
  simp only [World.outputPost]; (repeat' split) <;> simp
@[simp] theorem World.streamPost_sec (w : World) (n : Nat) : (w.streamPost n).sec = w.sec := by simp [World.streamPost]

/-! Semaphores (chapter 06). -/

@[simp] theorem World.askLeave_sec (w : World) (id : TaskId) (c : Nat) : (w.askLeave id c).sec = w.sec := by simp [World.askLeave]
@[simp] theorem World.regain_sec (w : World) (id : TaskId) (c : Nat) : (w.regain id c).sec = w.sec := by
  simp only [World.regain]; (repeat' split) <;> simp
@[simp] theorem World.takeSem_sec (w : World) (glob : Bool) (n : Nat) (t : Task) (g : Nat) : (w.takeSem glob n t g).sec = w.sec := by
  simp [World.takeSem]
@[simp] theorem World.park_sec (w : World) (id : TaskId) : (w.park id).sec = w.sec := by simp [World.park]
@[simp] theorem World.lendTo_sec (w : World) (h : TaskId) (core : Nat) : (w.lendTo h core).sec = w.sec := by simp [World.lendTo]
@[simp] theorem World.extendChain_sec (h : Hold) (w : World) (c : Chain) : (w.extendChain h c).sec = w.sec := by
  unfold World.extendChain; split <;> simp
@[simp] theorem World.beginResume_sec (w : World) (t : Task) (g : Nat) (glob : Bool) (n : Nat) (h : TaskId) (core : Nat) :
    (w.beginResume t g glob n h core).sec = w.sec := by
  simp only [World.beginResume]; (repeat' split) <;> simp
@[simp] theorem World.waitSem_sec (w : World) (t : Task) (g : Nat) (glob : Bool) (n : Nat) : (w.waitSem t g glob n).1.sec = w.sec := by
  simp only [World.waitSem]; (repeat' split) <;> simp
@[simp] theorem World.yieldCores_sec (w : World) (parkedToo : Bool) (id : TaskId) : (w.yieldCores parkedToo id).sec = w.sec := by
  simp [World.yieldCores]
@[simp] theorem World.returnRank_sec (w : World) (id : TaskId) (glob : Bool) (n : Nat) : (w.returnRank id glob n).sec = w.sec := by
  simp only [World.returnRank]; (repeat' split) <;> simp
@[simp] theorem World.postSem_sec (w : World) (glob : Bool) (n engine : Nat) (id : Option TaskId) : (w.postSem glob n engine id).1.sec = w.sec := by
  simp only [World.postSem]; (repeat' split) <;> simp
@[simp] theorem World.unwait_sec (w : World) (id : TaskId) (g : Nat) (ph : Phase) : (w.unwait id g ph).sec = w.sec := by
  simp only [World.unwait]; (repeat' split) <;> simp

/-! Starting and running an operation (chapter 05). -/

@[simp] theorem World.fetchAll_sec (w : World) (since : Nat) (ms : List (Nat × Nat × Nat)) : (w.fetchAll since ms).sec = w.sec := by
  simp [World.fetchAll]
@[simp] theorem World.poisonStop_sec (w : World) (t : Task) (g cause tag : Nat) : (w.poisonStop t g cause tag).sec = w.sec := by
  simp [World.poisonStop]
@[simp] theorem World.put_sec (w : World) (r : Run) (l : Loc) (a : Nat) (bs : Bytes) (owner : Nat → Nat) : (w.put r l a bs owner).sec = w.sec := by
  unfold World.put
  split
  · simp
  · simp
  · split
    · simp
    · exact (World.foldl_sec (fun w b => by simp) _ _).trans (by simp)
@[simp] theorem World.putRows_sec (w : World) (r : Run) (o : Opd) (bs : Bytes) : (w.putRows r o bs).sec = w.sec := by
  unfold World.putRows; split <;> simp
@[simp] theorem World.putConvRow_sec (w : World) (r : Run) (o : Opd) (i : Nat) (cv : ConvRow) : (w.putConvRow r o i cv).sec = w.sec := by
  simp only [World.putConvRow]; (repeat' split) <;> simp
@[simp] theorem World.writeConv_sec (w : World) (r : Run) (o : Opd) (rows : List (List XV)) : (w.writeConv r o rows).1.sec = w.sec := by
  unfold World.writeConv; split <;> simp
@[simp] theorem World.executed_boot (w : World) (id : TaskId) (g : Nat) (r : OpRes) : (w.executed id g r).sec.boot = w.sec.boot := by
  simp [World.executed]
@[simp] theorem World.begun_sec (w : World) (t : Task) (g : Nat) : (w.begun t g).sec = w.sec := by simp [World.begun]
@[simp] theorem World.gather_boot (w : World) (t : Task) (g : Nat) (st : Stage) (reads : World → Run → List (List Region)) :
    (w.gather t g st reads).1.sec.boot = w.sec.boot := by
  simp only [World.gather]; (repeat' split) <;> simp
@[simp] theorem World.enterOp_sec (w : World) (t : Task) (g : Nat) (st : Stage) (d : Desc) : (w.enterOp t g st d).sec = w.sec := by
  simp only [World.enterOp]; (repeat' split) <;> simp
@[simp] theorem World.startOp_boot (w : World) (t : Task) (g : Nat) (st : Stage) (bs : Bytes) (extra : World → Run → List Fail)
    (reads : World → Run → List (List Region)) : (w.startOp t g st bs extra reads).1.sec.boot = w.sec.boot := by
  unfold World.startOp
  dsimp only
  (repeat' split) <;> try simp
  all_goals -- what is left came from a semaphore
    rename_i h
    simpa using congrArg (fun x => x.1.sec.boot) h.symm
@[simp] theorem World.reach_boot (w : World) (q s g opc : Nat) (mods : Nat → Bool) (extra : World → Run → List Fail)
    (reads : World → Run → List (List Region)) : (w.reach q s g opc mods extra reads).1.sec.boot = w.sec.boot := by
  unfold World.reach
  dsimp only
  (repeat' split) <;> try simp
  all_goals -- what is left came from a semaphore
    rename_i h
    simpa using congrArg (fun x => x.1.sec.boot) h.symm
@[simp] theorem World.prepare_boot (w : World) (q s g : Nat) (pts : List Nat) (opc : Nat) (mods : Nat → Bool) (extra : World → Run → List Fail)
    (reads : World → Run → List (List Region)) : (w.prepare q s g pts opc mods extra reads).1.sec.boot = w.sec.boot := by
  have hw := World.reach_boot w q s g opc mods extra reads
  unfold World.prepare
  split <;> rename_i h <;> rw [h] at hw <;> exact hw

/-! Votes (chapter 09). -/

@[simp] theorem World.sendVote_sec (w : World) (l kind : Nat) (down : Bool) (status value : Nat) :
    (w.sendVote l kind down status value).sec = w.sec := by
  simp [World.sendVote]
@[simp] theorem World.voteDown_sec (w : World) (kind status value : Nat) : (w.voteDown kind status value).sec = w.sec := by simp [World.voteDown]
@[simp] theorem World.updVote_sec (w : World) (kind value : Nat) (f : Vote → Vote) : (w.updVote kind value f).sec = w.sec := by simp [World.updVote]
@[simp] theorem World.dropVote_sec (w : World) (kind value : Nat) : (w.dropVote kind value).sec = w.sec := by simp [World.dropVote]
@[simp] theorem World.castVote_sec (w : World) (kind value id : Nat) (task : TaskId) (stage status : Nat) :
    (w.castVote kind value id task stage status).sec = w.sec := by
  simp [World.castVote]
@[simp] theorem World.hearVote_sec (w : World) (kind value id src status : Nat) : (w.hearVote kind value id src status).sec = w.sec := by
  unfold World.hearVote; split <;> simp
@[simp] theorem World.tally_sec (w : World) (kind value : Nat) : (w.tally kind value).1.sec = w.sec := by
  simp only [World.tally]; (repeat' split) <;> simp
@[simp] theorem World.adoptCkpt_sec (w : World) (task : TaskId) : (w.adoptCkpt task).sec = w.sec := by
  simp only [World.adoptCkpt]; (repeat' split) <;> simp
@[simp] theorem World.dropCkpt_sec (w : World) (task : TaskId) : (w.dropCkpt task).sec = w.sec := by unfold World.dropCkpt; split <;> simp

/-! Completing an operation (chapter 05). -/

@[simp] theorem World.applyAbandon_sec (w : World) (tenant status : Nat) : (w.applyAbandon tenant status).sec = w.sec := by
  unfold World.applyAbandon
  refine World.foldl_sec (fun w x => ?_) _ _
  (repeat' split) <;> simp
@[simp] theorem World.agreeAbandon_sec (w : World) (tenant status : Nat) : (w.agreeAbandon tenant status).sec = w.sec := by
  unfold World.agreeAbandon; split <;> simp
@[simp] theorem World.abandonUp_sec (w : World) (tenant status : Nat) : (w.abandonUp tenant status).sec = w.sec := by
  unfold World.abandonUp; split <;> simp
@[simp] theorem World.endCkpt_sec (w : World) (t : Task) (status : Nat) : (w.endCkpt t status).sec = w.sec := by
  simp only [World.endCkpt]; (repeat' split) <;> simp
@[simp] theorem World.endTask_sec (w : World) (t : Task) (status : Nat) : (w.endTask t status).sec = w.sec := by
  simp only [World.endTask]; (repeat' split) <;> simp
@[simp] theorem World.applyMarks_sec (w : World) (r : Run) : (w.applyMarks r).sec = w.sec := by
  unfold World.applyMarks
  refine World.foldl_sec (fun w x => ?_) _ _
  (repeat' split) <;> simp
@[simp] theorem World.clearGiven_sec (w : World) : w.clearGiven.sec = w.sec := by unfold World.clearGiven; split <;> simp
@[simp] theorem World.closeOp_sec (w : World) (t : Task) (g : Nat) (st : Stage) (d : Desc) (res : OpRes) : (w.closeOp t g st d res).sec = w.sec := by
  simp only [World.closeOp]; (repeat' split) <;> simp
@[simp] theorem World.postOp_sec (w : World) (t : Task) (g : Nat) (r : Run) (res : OpRes) : (w.postOp t g r res).1.sec = w.sec := by
  simp only [World.postOp]; (repeat' split) <;> simp
@[simp] theorem World.completeOp_sec (w : World) (q s g : Nat) : (w.completeOp q s g).sec = w.sec := by
  simp only [World.completeOp]; (repeat' split) <;> simp
@[simp] theorem World.posted_sec (w : World) (id : TaskId) (g : Nat) (ok : Bool) : (w.posted id g ok).sec = w.sec := by
  simp only [World.posted]; (repeat' split) <;> simp

/-! Data movement (chapter 05). -/

@[simp] theorem runNothing_sec (w : World) (r : Run) : (runNothing w r).1.sec = w.sec := by simp [runNothing]
@[simp] theorem runBytes_sec (w : World) (r : Run) : (runBytes w r).1.sec = w.sec := by simp only [runBytes]; (repeat' split) <;> simp
@[simp] theorem runTstamp_sec (w : World) (r : Run) : (runTstamp w r).1.sec = w.sec := by unfold runTstamp; split <;> simp
@[simp] theorem runFill_sec (w : World) (r : Run) : (runFill w r).1.sec = w.sec := by simp [runFill]
@[simp] theorem World.putRow_sec (w : World) (r : Run) (o : Opd) (core i : Nat) (bs : Bytes) : (w.putRow r o core i bs).sec = w.sec := by
  unfold World.putRow; split <;> simp
@[simp] theorem runGather_sec (w : World) (r : Run) : (runGather w r).1.sec = w.sec := by simp [runGather]
@[simp] theorem runScatter_sec (w : World) (r : Run) : (runScatter w r).1.sec = w.sec := by
  unfold runScatter
  exact World.foldl_sec (fun w x => by dsimp only; split <;> simp) _ _
@[simp] theorem runTranspose_sec (w : World) (r : Run) : (runTranspose w r).1.sec = w.sec := by simp [runTranspose]
@[simp] theorem runPrefetch_sec (w : World) (r : Run) : (runPrefetch w r).1.sec = w.sec := by unfold runPrefetch; split <;> simp

/-! Matrix products and reductions (chapter 05). -/

@[simp] theorem World.touchSlot_sec (w : World) (id : TaskId) (n : Nat) : (w.touchSlot id n).sec = w.sec := by simp [World.touchSlot]
@[simp] theorem World.observeSlot_sec (w : World) (id : TaskId) (n : Nat) (ob : Obsv) : (w.observeSlot id n ob).sec = w.sec := by
  simp [World.observeSlot]
@[simp] theorem World.putAt_sec (w : World) (r : Run) (ga off : Nat) (bs : Bytes) (owner : Nat → Nat) : (w.putAt r ga off bs owner).sec = w.sec := by
  unfold World.putAt; split <;> simp
@[simp] theorem World.putAttempt_sec (w : World) (r : Run) (first : Bool) (a : OutAttempt) (owner : ElFmt → Nat → Nat) :
    (w.putAttempt r first a owner).sec = w.sec := by
  simp only [World.putAttempt]; (repeat' split) <;> simp
@[simp] theorem World.writeOutput_sec (w : World) (r : Run) (t3 : List (List XV)) (flushed : Nat) (tot : DotTot) (owner : ElFmt → Nat → Nat) :
    (w.writeOutput r t3 flushed tot owner).1.sec = w.sec := by
  simp only [World.writeOutput]; (repeat' split) <;> simp
@[simp] theorem World.putSpill_sec (w : World) (r : Run) (core k : Nat) (accs : List (List EAcc)) : (w.putSpill r core k accs).sec = w.sec :=
  World.foldl_sec (fun _ _ => by simp) _ _
@[simp] theorem World.spillTiles_sec (w : World) (r : Run) (core : Nat) (old new : CoreTiles) : (w.spillTiles r core old new).sec = w.sec := by
  simp only [World.spillTiles]; (repeat' split) <;> simp

theorem World.runDot_sec (w : World) (r : Run) (k : DotWork) {finish : World → List TileRes → World × Done}
    (hf : ∀ w ts, (finish w ts).1.sec = w.sec) : (w.runDot r k finish).1.sec = w.sec := by
  unfold World.runDot
  split
  · exact hf _ _
  · dsimp only
    split
    · rw [hf, World.foldl_sec (fun _ _ => by simp)]
    · simp [World.foldl_sec]

@[simp] theorem runMat_sec (w : World) (r : Run) : (runMat w r).1.sec = w.sec := World.runDot_sec w r _ (fun _ _ => by simp)
@[simp] theorem runReduceDot_sec (squares : Bool) (w : World) (r : Run) : (runReduceDot squares w r).1.sec = w.sec :=
  World.runDot_sec w r _ (fun _ _ => by simp)
@[simp] theorem runReduceExact_sec (f : List XV → XV) (w : World) (r : Run) : (runReduceExact f w r).1.sec = w.sec := by simp [runReduceExact]
@[simp] theorem runConvert_sec (w : World) (r : Run) : (runConvert w r).1.sec = w.sec := by simp [runConvert]
@[simp] theorem runObserve_sec (w : World) (r : Run) : (runObserve w r).1.sec = w.sec := by simp [runObserve]

/-! Vector operations (chapter 05). -/

@[simp] theorem World.finishRows_sec (w : World) (r : Run) (flushed : Nat) (rows : List (List XV)) : (w.finishRows r flushed rows).1.sec = w.sec := by
  simp [World.finishRows]
@[simp] theorem runMap_sec (f : XV → XV) (w : World) (r : Run) : (runMap f w r).1.sec = w.sec := by simp [runMap]
@[simp] theorem runMap2_sec (f : XV → XV → XV) (w : World) (r : Run) : (runMap2 f w r).1.sec = w.sec := by simp [runMap2]
@[simp] theorem runMap3_sec (f : XV → XV → XV → XV) (w : World) (r : Run) : (runMap3 f w r).1.sec = w.sec := by simp [runMap3]
@[simp] theorem runSoftmax_sec (w : World) (r : Run) : (runSoftmax w r).1.sec = w.sec := by simp [runSoftmax]
@[simp] theorem runLayerNorm_sec (w : World) (r : Run) : (runLayerNorm w r).1.sec = w.sec := by simp [runLayerNorm]
@[simp] theorem runRmsNorm_sec (w : World) (r : Run) : (runRmsNorm w r).1.sec = w.sec := by simp [runRmsNorm]
@[simp] theorem runVscale_sec (w : World) (r : Run) : (runVscale w r).1.sec = w.sec := by simp [runVscale]

/-! Random numbers (chapter 05). -/

@[simp] theorem World.drew_sec (w : World) (n : Nat) : (w.drew n).sec = w.sec := by simp [World.drew]
@[simp] theorem runRngbits_sec (v : Vault) (w : World) (r : Run) : (runRngbits v w r).1.sec = w.sec := by unfold runRngbits; split <;> simp
@[simp] theorem runRnguni_sec (v : Vault) (w : World) (r : Run) : (runRnguni v w r).1.sec = w.sec := by simp [runRnguni]
@[simp] theorem runRnggauss_sec (v : Vault) (w : World) (r : Run) : (runRnggauss v w r).1.sec = w.sec := by simp [runRnggauss]
@[simp] theorem runDropout_sec (v : Vault) (w : World) (r : Run) : (runDropout v w r).1.sec = w.sec := by simp [runDropout]

/-! Training steps (chapter 08). -/

@[simp] theorem runActsave_sec (w : World) (r : Run) : (runActsave w r).1.sec = w.sec := by unfold runActsave; split <;> simp
@[simp] theorem runActload_sec (w : World) (r : Run) : (runActload w r).1.sec = w.sec := by unfold runActload; split <;> simp
@[simp] theorem runGnorm_sec (w : World) (r : Run) : (runGnorm w r).1.sec = w.sec := by simp [runGnorm]
@[simp] theorem runClipnoise_sec (v : Vault) (w : World) (r : Run) : (runClipnoise v w r).1.sec = w.sec := by
  simp only [runClipnoise]; (repeat' split) <;> simp
@[simp] theorem runReel_sec (v : Vault) (w : World) (r : Run) : (runReel v w r).1.sec = w.sec := by simp only [runReel]; (repeat' split) <;> simp
@[simp] theorem World.commit_sec (w : World) (t : Task) (s : Step) : (w.commit t s).sec = w.sec := by simp [World.commit]
@[simp] theorem runCommit_sec (v : Vault) (w : World) (r : Run) : (runCommit v w r).1.sec = w.sec := by
  simp only [runCommit]; (repeat' split) <;> simp
@[simp] theorem runCkpt_sec (v : Vault) (w : World) (r : Run) : (runCkpt v w r).1.sec = w.sec := by simp only [runCkpt]; (repeat' split) <;> simp

/-! Collectives (chapter 09). -/

@[simp] theorem World.updateSlots_sec (w : World) (id : TaskId) (m : Nat) (pend : List (Option Int)) : (w.updateSlots id m pend).sec = w.sec := by
  simp [World.updateSlots]
@[simp] theorem World.sendLevel_sec (w : World) (c : Coll) (l node span : Nat) (down : Bool) (data : Bytes) :
    (w.sendLevel c l node span down data).sec = w.sec := by
  simp only [World.sendLevel]; (repeat' split) <;> simp
@[simp] theorem World.dropColl_sec (w : World) (c : Coll) : (w.dropColl c).sec = w.sec := by simp [World.dropColl]
@[simp] theorem World.endColl_boot (w : World) (c : Coll) (r : Run) (cnt : Cnt) : (w.endColl c r cnt).sec.boot = w.sec.boot := by simp [World.endColl]
@[simp] theorem World.writeColl_boot (w : World) (c : Coll) (r : Run) (bs : Bytes) (cnt : Cnt) : (w.writeColl c r bs cnt).sec.boot = w.sec.boot := by
  simp [World.writeColl]
@[simp] theorem World.sendDown_sec (w : World) (c : Coll) (bs : Bytes) : (w.sendDown c bs).sec = w.sec := by simp [World.sendDown]
@[simp] theorem World.rootResult_boot (w : World) (c : Coll) (r : Run) (v : List XV) : (w.rootResult c r v).sec.boot = w.sec.boot := by
  simp only [World.rootResult]; (repeat' split) <;> simp
@[simp] theorem World.takeCarried_sec (w : World) (c : Coll) (p s : Nat) (v : List XV) : (w.takeCarried c p s v).1.sec = w.sec := by
  unfold World.takeCarried; split <;> simp
@[simp] theorem World.sendNode_sec (bits : Nat) (c : Coll) (w : World) (x : Nat × Nat × List XV) : (w.sendNode bits c x).sec = w.sec := by
  simp only [World.sendNode]; (repeat' split) <;> simp
@[simp] theorem World.advanceColl_boot (w : World) (seq : Nat) : (w.advanceColl seq).sec.boot = w.sec.boot := by
  simp only [World.advanceColl]; (repeat' split) <;> simp
@[simp] theorem World.collDown_boot (w : World) (c : Coll) (bs : Bytes) : (w.collDown c bs).sec.boot = w.sec.boot := by
  simp only [World.collDown]; (repeat' split) <;> simp
@[simp] theorem World.mismatch_sec (w : World) (src : Nat) : (w.mismatch src).sec = w.sec := by unfold World.mismatch; split <;> simp
@[simp] theorem World.collMsg_boot (w : World) (e : Early) : (w.collMsg e).sec.boot = w.sec.boot := by
  simp only [World.collMsg]; (repeat' split) <;> simp
@[simp] theorem World.takeEarly_boot (w : World) (seq : Nat) : (w.takeEarly seq).sec.boot = w.sec.boot := by simp [World.takeEarly]
@[simp] theorem World.issueColl_boot (w : World) (r : Run) (c : Coll) : (w.issueColl r c).1.sec.boot = w.sec.boot := by
  simp only [World.issueColl]; (repeat' split) <;> simp
@[simp] theorem runLocalCopy_sec (w : World) (r : Run) : (runLocalCopy w r).1.sec = w.sec := by simp [runLocalCopy]
@[simp] theorem runReduceTree_boot (op : CollOp) (toRoot : Bool) (w : World) (r : Run) : (runReduceTree op toRoot w r).1.sec.boot = w.sec.boot := by
  unfold runReduceTree; split <;> simp
@[simp] theorem runBroadcast_boot (w : World) (r : Run) : (runBroadcast w r).1.sec.boot = w.sec.boot := by
  unfold runBroadcast
  split
  · simp
  · dsimp only
    split
    · rename_i h
      exact (congrArg (fun x => x.1.sec.boot) h).symm.trans (World.issueColl_boot _ _ _)
    · rename_i h
      have hw := (congrArg (fun x => x.1.sec.boot) h).symm.trans (World.issueColl_boot _ _ _)
      (repeat' split) <;> simpa using hw
@[simp] theorem runAllgather_boot (w : World) (r : Run) : (runAllgather w r).1.sec.boot = w.sec.boot := by unfold runAllgather; split <;> simp
@[simp] theorem runBarrier_sec (w : World) (r : Run) : (runBarrier w r).1.sec = w.sec := by simp only [runBarrier]; (repeat' split) <;> simp
@[simp] theorem runScaleupd_boot (w : World) (r : Run) : (runScaleupd w r).1.sec.boot = w.sec.boot := by unfold runScaleupd; split <;> simp

/-! Scheduling (chapter 06). -/

@[simp] theorem World.giveCores_sec (w : World) (id : TaskId) (cs : List Nat) (f : Task → Task) : (w.giveCores id cs f).sec = w.sec := by
  simp [World.giveCores]
@[simp] theorem World.placeTask_sec (v : Vault) (w : World) (id : TaskId) : (w.placeTask v id).sec = w.sec := by
  simp only [World.placeTask]; (repeat' split) <;> simp
@[simp] theorem World.preemptPoint_sec (w : World) (id : TaskId) (c : Nat) : (w.preemptPoint id c).sec = w.sec := by
  simp only [World.preemptPoint]; (repeat' split) <;> simp
@[simp] theorem World.drained_sec (w : World) (id : TaskId) (c ns : Nat) : (w.drained id c ns).sec = w.sec := by
  simp only [World.drained]; (repeat' split) <;> simp
@[simp] theorem World.saveCtx_sec (w : World) (t : Task) (c : Nat) : (w.saveCtx t c).sec = w.sec := by simp [World.saveCtx]
@[simp] theorem World.restoreCtx_sec (w : World) (id : TaskId) (c : Nat) : (w.restoreCtx id c).sec = w.sec := by
  simp only [World.restoreCtx]; (repeat' split) <;> simp
@[simp] theorem World.saved_sec (w : World) (id : TaskId) (c : Nat) : (w.saved id c).sec = w.sec := by
  simp only [World.saved]; (repeat' split) <;> simp
@[simp] theorem World.restored_sec (w : World) (id : TaskId) (c : Nat) (ok : Bool) : (w.restored id c ok).sec = w.sec := by
  simp only [World.restored]; (repeat' split) <;> simp
@[simp] theorem World.drainTimeout_sec (w : World) (id : TaskId) (c : Nat) : (w.drainTimeout id c).sec = w.sec := by
  simp only [World.drainTimeout]; (repeat' split) <;> simp
@[simp] theorem World.semRelease_sec (w : World) (glob : Bool) (n : Nat) : (w.semRelease glob n).sec = w.sec := by
  simp only [World.semRelease]; (repeat' split) <;> simp
@[simp] theorem World.withdraw_sec (w : World) (c : Chain) : (w.withdraw c).sec = w.sec := by simp only [World.withdraw]; (repeat' split) <;> simp
@[simp] theorem World.budgetExpiry_sec (w : World) (id : TaskId) : (w.budgetExpiry id).sec = w.sec := by
  simp only [World.budgetExpiry]; (repeat' split) <;> simp
@[simp] theorem World.markRelease_sec (w : World) (id : TaskId) : (w.markRelease id).sec = w.sec := by
  simp only [World.markRelease]; (repeat' split) <;> simp
@[simp] theorem World.stepAbandon_sec (w : World) (id : TaskId) : (w.stepAbandon id).sec = w.sec := by
  simp only [World.stepAbandon]; (repeat' split) <;> simp
@[simp] theorem World.acceptStep_sec (w : World) (t : Task) : (w.acceptStep t).sec = w.sec := by simp [World.acceptStep]
@[simp] theorem World.refuseStep_sec (w : World) (t : Task) (status : Nat) : (w.refuseStep t status).sec = w.sec := by
  unfold World.refuseStep; split <;> simp
@[simp] theorem World.admission_sec (v : Vault) (w : World) (id : TaskId) : (w.admission v id).sec = w.sec := by
  simp only [World.admission]; (repeat' split) <;> simp
@[simp] theorem World.mapParts_sec (w : World) (f : Nat → Part → Part) : (w.mapParts f).sec = w.sec := by simp [World.mapParts]

/-! Steps (chapter 08). -/

@[simp] theorem World.answered_boot (w : World) (id : TaskId) (g : Nat) : (w.answered id g).sec.boot = w.sec.boot := by
  simp only [World.answered]; (repeat' split) <;> simp
@[simp] theorem World.actVote_boot (w : World) (v : Vote) (status : Nat) : (w.actVote v status).sec.boot = w.sec.boot := by
  simp only [World.actVote]; (repeat' split) <;> simp
@[simp] theorem World.settleVote_boot (w : World) (kind value : Nat) : (w.settleVote kind value).sec.boot = w.sec.boot := by
  have hw := congrArg Sec.boot (World.tally_sec w kind value)
  unfold World.settleVote
  split
  · rfl
  · split <;> rename_i h <;> rw [h] at hw
    · exact hw
    · simpa using hw
@[simp] theorem World.settleVotes_boot (w : World) : w.settleVotes.sec.boot = w.sec.boot := by simp [World.settleVotes]

/-! Changes of the power state (chapter 10). -/

@[simp] theorem World.setSt_sec (w : World) (s : PState) : (w.setSt s).sec = w.sec := by simp only [World.setSt]; (repeat' split) <;> simp
@[simp] theorem World.readyPosted_sec (w : World) : w.readyPosted.sec = w.sec := by simp [World.readyPosted]
@[simp] theorem World.leaveIdle_sec (w : World) : w.leaveIdle.sec = w.sec := by unfold World.leaveIdle; split <;> simp
@[simp] theorem World.doorbell_sec (w : World) : w.doorbell.sec = w.sec := by unfold World.doorbell; split <;> simp

/-! Queues (chapter 13). -/

@[simp] theorem World.prodWrite_sec (w : World) (n p : Nat) : (w.prodWrite n p).sec = w.sec := by
  simp only [World.prodWrite]; (repeat' split) <;> simp
@[simp] theorem World.cackWrite_sec (w : World) (n a : Nat) : (w.cackWrite n a).sec = w.sec := by
  simp only [World.cackWrite]; (repeat' split) <;> simp
@[simp] theorem World.cancelTask_sec (w : World) (id : TaskId) (silent : Bool) : (w.cancelTask id silent).sec = w.sec := by simp [World.cancelTask]
@[simp] theorem World.cancelWrite_sec (w : World) (n s : Nat) : (w.cancelWrite n s).sec = w.sec := by
  simp only [World.cancelWrite]; (repeat' split) <;> simp
@[simp] theorem World.taskFetch_sec (v : Vault) (w : World) (n : Nat) (desc : Bytes) : (w.taskFetch v n desc).sec = w.sec := by
  simp only [World.taskFetch]; (repeat' split) <;> simp
@[simp] theorem World.coalesce_sec (w : World) (n : Nat) : (w.coalesce n).sec = w.sec := by unfold World.coalesce; split <;> simp
@[simp] theorem World.resetQueue_sec (w : World) (n : Nat) (silent : Bool) : (w.resetQueue n silent).sec = w.sec := by simp [World.resetQueue]
@[simp] theorem World.clearWindow_sec (w : World) : w.clearWindow.sec = w.sec := by simp [World.clearWindow]
@[simp] theorem World.hostReset_sec (w : World) : w.hostReset.sec = w.sec := by simp [World.hostReset]
@[simp] theorem World.trainPcie_sec (w : World) (speed width : Nat) : (w.trainPcie speed width).sec = w.sec := by
  unfold World.trainPcie; split <;> simp
@[simp] theorem World.badWindow_sec (w : World) : w.badWindow.sec = w.sec := by simp [World.badWindow]
@[simp] theorem World.sealedWindow_sec (w : World) (off : Nat) : (w.sealedWindow off).sec = w.sec := by
  simp only [World.sealedWindow]; (repeat' split) <;> simp
@[simp] theorem World.windowRead_sec (w : World) (off len : Nat) : (w.windowRead off len).sec = w.sec := by
  simp only [World.windowRead]; (repeat' split) <;> simp
@[simp] theorem World.windowWrite_sec (w : World) (off : Nat) (data : Bytes) : (w.windowWrite off data).sec = w.sec := by
  simp only [World.windowWrite]; (repeat' split) <;> simp

/-! Streams (chapter 13). -/

@[simp] theorem World.markGap_sec (w : World) (p : Nat) : (w.markGap p).sec = w.sec := by simp [World.markGap]
@[simp] theorem World.inputDone_sec (w : World) (c : Nat) : (w.inputDone c).sec = w.sec := by simp [World.inputDone]
@[simp] theorem World.inputDrop_sec (w : World) (c : Nat) : (w.inputDrop c).sec = w.sec := by simp [World.inputDrop]
@[simp] theorem World.streamIn_sec (w : World) (q v : Nat) : (w.streamIn q v).sec = w.sec := by simp only [World.streamIn]; (repeat' split) <;> simp
@[simp] theorem World.streamTaken_sec (w : World) (q v : Nat) : (w.streamTaken q v).sec = w.sec := by
  simp only [World.streamTaken]; (repeat' split) <;> simp
@[simp] theorem World.fsync_sec (w : World) (p bclks : Nat) : (w.fsync p bclks).1.sec = w.sec := by simp only [World.fsync]; (repeat' split) <;> simp
@[simp] theorem World.frameStart_sec (w : World) (c bclks : Nat) : (w.frameStart c bclks).sec = w.sec := by
  simp only [World.frameStart]; (repeat' split) <;> simp
@[simp] theorem World.frameEnd_sec (w : World) (c : Nat) (codes : List Nat) : (w.frameEnd c codes).sec = w.sec := by
  simp only [World.frameEnd]; (repeat' split) <;> simp
@[simp] theorem World.loseClock_sec (w : World) (p : Nat) : (w.loseClock p).sec = w.sec := by simp only [World.loseClock]; (repeat' split) <;> simp
@[simp] theorem World.clockLoss_sec (w : World) (p : Nat) : (w.clockLoss p).sec = w.sec := by unfold World.clockLoss; split <;> simp
@[simp] theorem World.playout_sec (w : World) (c : Nat) : (w.playout c).sec = w.sec := by simp only [World.playout]; (repeat' split) <;> simp
@[simp] theorem World.enableTdm_sec (w : World) (p : Nat) : (w.enableTdm p).sec = w.sec := by simp [World.enableTdm]
@[simp] theorem World.openCtx_sec (w : World) (c : Nat) : (w.openCtx c).sec = w.sec := by simp [World.openCtx]

/-! Doorbells and the window (chapter 13). -/

@[simp] theorem World.doorbellAct_sec (w : World) (off v : Nat) : (w.doorbellAct off v).sec = w.sec := by
  simp only [World.doorbellAct]; (repeat' split) <;> simp
@[simp] theorem World.doorbellRaw_sec (w : World) (off v : Nat) : (w.doorbellRaw off v).sec = w.sec := by unfold World.doorbellRaw; split <;> simp
@[simp] theorem World.doorbellWrite_sec (w : World) (off n v : Nat) : (w.doorbellWrite off n v).sec = w.sec := by
  simp only [World.doorbellWrite]; (repeat' split) <;> simp
@[simp] theorem World.doorbellsDue_sec (w : World) : w.doorbellsDue.sec = w.sec := by unfold World.doorbellsDue; split <;> simp
@[simp] theorem State.ring_sec (st : State) (q reg v : Nat) : (st.ring q reg v).w.sec = st.w.sec := by unfold State.ring; split <;> simp

/-! Operating points and alerts (chapter 11). -/

@[simp] theorem World.rampDone_sec (w : World) : w.rampDone.sec = w.sec := by unfold World.rampDone; split <;> simp
@[simp] theorem World.moveTo_sec (w : World) (p : Pt) (force : Bool) : (w.moveTo p force).sec = w.sec := by
  simp only [World.moveTo]; (repeat' split) <;> simp
@[simp] theorem World.noteReasons_sec (w : World) : w.noteReasons.sec = w.sec := by simp [World.noteReasons]
@[simp] theorem World.floodCeiling_sec (w : World) (p : Pt) : (w.floodCeiling p).sec = w.sec := by simp [World.floodCeiling]
@[simp] theorem World.takePoint_sec (w : World) (own : Pt) (force : Bool) : (w.takePoint own force).sec = w.sec := by
  simp only [World.takePoint]; (repeat' split) <;> simp
@[simp] theorem World.takeCeiling_sec (w : World) (force : Bool) : (w.takeCeiling force).sec = w.sec := by simp [World.takeCeiling]
@[simp] theorem World.jobProfile_sec (w : World) : w.jobProfile.sec = w.sec := by unfold World.jobProfile; split <;> simp
@[simp] theorem World.follow_sec (w : World) : w.follow.sec = w.sec := by simp only [World.follow]; (repeat' split) <;> simp
@[simp] theorem World.countFloor_sec (w : World) : w.countFloor.sec = w.sec := by simp [World.countFloor]
@[simp] theorem World.forceDown_sec (w : World) : w.forceDown.sec = w.sec := by simp [World.forceDown]
@[simp] theorem World.letGo_sec (w : World) : w.letGo.sec = w.sec := by simp [World.letGo]
@[simp] theorem World.enterHalt_sec (w : World) (f : OpPoint → OpPoint) : (w.enterHalt f).sec = w.sec := by
  simp only [World.enterHalt]; (repeat' split) <;> simp
@[simp] theorem World.leaveHalt_sec (w : World) (f : OpPoint → OpPoint) : (w.leaveHalt f).sec = w.sec := by
  simp only [World.leaveHalt]; (repeat' split) <;> simp
@[simp] theorem World.alertSteps_sec (w : World) : w.alertSteps.sec = w.sec := by
  unfold World.alertSteps
  refine World.foldl_sec (fun w x => ?_) _ _
  (repeat' split) <;> simp
@[simp] theorem World.powerAlert_sec (w : World) : w.powerAlert.sec = w.sec := by unfold World.powerAlert; split <;> simp
@[simp] theorem World.regulatorAlert_sec (w : World) : w.regulatorAlert.sec = w.sec := by unfold World.regulatorAlert; split <;> simp
@[simp] theorem World.readPins_sec (w : World) : w.readPins.sec = w.sec := by simp only [World.readPins]; (repeat' split) <;> simp
@[simp] theorem World.dvfsSample_sec (w : World) (doms : List Nat) (vin : Nat) : (w.dvfsSample doms vin).sec = w.sec := by
  simp only [World.dvfsSample]; (repeat' split) <;> simp
@[simp] theorem World.tempRetrain_sec (w : World) : w.tempRetrain.sec = w.sec := by
  unfold World.tempRetrain
  exact World.foldl_sec (fun _ _ => by simp) _ _
@[simp] theorem World.sensors_sec (w : World) (temps : List Int) : (w.sensors temps).sec = w.sec := by
  simp only [World.sensors]; (repeat' split) <;> simp

/-! What OTP gives (chapter 15). -/

@[simp] theorem World.classDefaults_sec (w : World) : w.classDefaults.sec = w.sec := by simp [World.classDefaults]
@[simp] theorem World.otpLoad_sec (o : Otp) (w : World) (straps : Nat) : (w.otpLoad o straps).sec = w.sec := by simp [World.otpLoad]

/-! Waking and powering down (chapter 10). -/

@[simp] theorem World.nextStage_sec (w : World) : w.nextStage.sec = w.sec := by simp [World.nextStage]
@[simp] theorem World.stageFails_sec (w : World) : w.stageFails.sec = w.sec := by unfold World.stageFails; split <;> simp
@[simp] theorem World.readyUp_sec (w : World) : w.readyUp.sec = w.sec := by simp [World.readyUp]
@[simp] theorem World.trimmed_sec (w : World) : w.trimmed.sec = w.sec := by simp [World.trimmed]
@[simp] theorem World.stageDone_sec (o : Otp) (w : World) (straps : Nat) : (w.stageDone o straps).sec = w.sec := by
  simp only [World.stageDone]; (repeat' split) <;> simp
@[simp] theorem World.dropComing_sec (w : World) : w.dropComing.sec = w.sec := by simp [World.dropComing]
@[simp] theorem World.idleEntered_sec (w : World) : w.idleEntered.sec = w.sec := by unfold World.idleEntered; split <;> simp
@[simp] theorem World.beginDown_sec (w : World) (byReq toDoze : Bool) : (w.beginDown byReq toDoze).sec = w.sec := by simp [World.beginDown]
@[simp] theorem World.goTarget_sec (w : World) : w.goTarget.sec = w.sec := by simp only [World.goTarget]; (repeat' split) <;> simp
@[simp] theorem World.abortDown_sec (w : World) : w.abortDown.sec = w.sec := by simp only [World.abortDown]; (repeat' split) <;> simp
@[simp] theorem World.releaseTasks_sec (w : World) : w.releaseTasks.sec = w.sec := by
  unfold World.releaseTasks
  refine World.foldl_sec (fun w x => ?_) _ _
  (repeat' split) <;> simp [apply_ite World.sec]
@[simp] theorem World.release_sec (w : World) : w.release.sec = w.sec := by simp [World.release]
@[simp] theorem World.intoDoze_sec (w : World) : w.intoDoze.sec = w.sec := by simp [World.intoDoze]
@[simp] theorem World.startExit_sec (w : World) (cause : Nat) : (w.startExit cause).sec = w.sec := by simp [World.startExit]
@[simp] theorem World.exitEvent_sec (w : World) (cause : Nat) : (w.exitEvent cause).sec = w.sec := by
  simp only [World.exitEvent]; (repeat' split) <;> simp
@[simp] theorem World.reachDoze_sec (w : World) : w.reachDoze.sec = w.sec := by simp [World.reachDoze]
@[simp] theorem World.dozeReturn_sec (w : World) : w.dozeReturn.sec = w.sec := by simp [World.dozeReturn]
@[simp] theorem World.wakeDown_sec (w : World) : w.wakeDown.sec = w.sec := by simp only [World.wakeDown]; (repeat' split) <;> simp
@[simp] theorem World.requestState_sec (w : World) (v : Nat) : (w.requestState v).sec = w.sec := by
  simp only [World.requestState]; (repeat' split) <;> simp

/-! OTP programming, tenants and sessions (chapter 15). -/

@[simp] theorem State.done_sec (st : State) (p : Option Pend) (status : Nat) : (st.done p status).w.sec = st.w.sec := by simp [State.done]
@[simp] theorem State.program_boot (st : State) (p : Pend) (j : OtpJob) : (st.program p j).w.sec.boot = st.w.sec.boot := by
  unfold State.program; split <;> simp
@[simp] theorem State.programRecord_boot (st : State) (p : Pend) : (st.programRecord p).w.sec.boot = st.w.sec.boot := by
  simp only [State.programRecord]; (repeat' split) <;> simp
@[simp] theorem State.programSlot_boot (st : State) (p : Pend) (slot : Nat) (hash : Bytes) :
    (st.programSlot p slot hash).w.sec.boot = st.w.sec.boot := by
  unfold State.programSlot; split <;> simp
@[simp] theorem State.revokeSlot_boot (st : State) (p : Pend) (slot : Nat) : (st.revokeSlot p slot).w.sec.boot = st.w.sec.boot := by
  unfold State.revokeSlot; split <;> simp
@[simp] theorem World.unsealAreas_sec (w : World) (t : Tenant) : (w.unsealAreas t).sec = w.sec := by simp [World.unsealAreas]
@[simp] theorem World.sealAreas_sec (w : World) (id : Nat) (t : Tenant) : (w.sealAreas id t).sec = w.sec := by simp [World.sealAreas]
@[simp] theorem State.tenantStatus_boot (st : State) (p : Pend) (status : Nat) : (st.tenantStatus p status).w.sec.boot = st.w.sec.boot := by
  simp [State.tenantStatus]
@[simp] theorem State.createTenant_boot (st : State) (p : Pend) (d : Bytes) : (st.createTenant p d).w.sec.boot = st.w.sec.boot := by
  simp only [State.createTenant]; (repeat' split) <;> simp
@[simp] theorem State.importTenant_boot (st : State) (p : Pend) (d : Bytes) : (st.importTenant p d).w.sec.boot = st.w.sec.boot := by
  simp only [State.importTenant]; (repeat' split) <;> simp
@[simp] theorem State.retireTenant_boot (st : State) (p : Pend) (d : Bytes) : (st.retireTenant p d).w.sec.boot = st.w.sec.boot := by
  simp only [State.retireTenant]; (repeat' split) <;> simp
@[simp] theorem World.tenantDone_boot (w : World) : w.tenantDone.sec.boot = w.sec.boot := by unfold World.tenantDone; split <;> simp
@[simp] theorem State.advance_boot (st : State) (p : Option Pend) : (st.advance p).w.sec.boot = st.w.sec.boot := by simp [State.advance]
@[simp] theorem State.openSession_boot (st : State) (p : Pend) (d : Bytes) : (st.openSession p d).w.sec.boot = st.w.sec.boot := by
  simp only [State.openSession]; (repeat' split) <;> simp
@[simp] theorem State.closeSession_boot (st : State) (p : Pend) (d : Bytes) : (st.closeSession p d).w.sec.boot = st.w.sec.boot := by
  unfold State.closeSession
  dsimp only
  (repeat' split) <;> try simp
  rw [World.foldl_sec (fun _ _ => by simp)]
@[simp] theorem State.sessionAdvanced_boot (st : State) : st.sessionAdvanced.w.sec.boot = st.w.sec.boot := by
  simp only [State.sessionAdvanced]; (repeat' split) <;> simp
@[simp] theorem State.otpWord_boot (st : State) (ok : Bool) : (st.otpWord ok).w.sec.boot = st.w.sec.boot := by
  simp only [State.otpWord]; (repeat' split) <;> simp
@[simp] theorem World.relock_boot (v : Vault) (w : World) (client : Nat) : (w.relock v client).1.sec.boot = w.sec.boot := by
  simp only [World.relock]; (repeat' split) <;> simp
@[simp] theorem World.draw_boot (w : World) : w.draw.1.sec.boot = w.sec.boot := by simp [World.draw]

/-! Messages of other engines (chapter 09). -/

@[simp] theorem World.portFault_sec (w : World) (k suspect : Nat) : (w.portFault k suspect).sec = w.sec := by
  unfold World.portFault
  dsimp only
  split
  · exact (World.foldl_sec (fun _ _ => by simp) _ _).trans (by simp)
  · simp
@[simp] theorem World.nakFlit_sec (w : World) (k : Nat) (crcOk : Bool) : (w.nakFlit k crcOk).sec = w.sec := by simp [World.nakFlit]
@[simp] theorem World.keepFlits_sec (w : World) (k : Nat) (h : RxHdr) (n : Nat) : (w.keepFlits k h n).sec = w.sec := by
  simp only [World.keepFlits]; (repeat' split) <;> simp
@[simp] theorem World.rxFlits_sec (w : World) (k : Nat) (h : RxHdr) (n : Nat) : (w.rxFlits k h n).1.sec = w.sec := by
  simp only [World.rxFlits]; (repeat' split) <;> simp
@[simp] theorem World.receive_sec (w : World) (k : Nat) (h : RxHdr) (m : MsgHdr) (n : Nat) (wire : Bytes) : (w.receive k h m n wire).1.sec = w.sec := by
  have hw := World.rxFlits_sec w k h n
  unfold World.receive
  split <;> rename_i e <;> rw [e] at hw
  · exact hw
  · (repeat' split) <;> simpa using hw
@[simp] theorem World.serveRead_sec (w : World) (m : MsgHdr) : (w.serveRead m).sec = w.sec := by simp only [World.serveRead]; (repeat' split) <;> simp
@[simp] theorem World.takeRead_sec (w : World) (m : MsgHdr) (data : Bytes) : (w.takeRead m data).sec = w.sec := by
  unfold World.takeRead; split <;> simp
@[simp] theorem World.serveWrite_sec (w : World) (m : MsgHdr) (data : Bytes) : (w.serveWrite m data).sec = w.sec := by
  simp only [World.serveWrite]; (repeat' split) <;> simp
@[simp] theorem World.closed_sec (w : World) (id : TaskId) : (w.closed id).sec = w.sec := by simp only [World.closed]; (repeat' split) <;> simp
@[simp] theorem World.takeAck_sec (w : World) (m : MsgHdr) : (w.takeAck m).sec = w.sec := by unfold World.takeAck; split <;> simp
@[simp] theorem World.servePost_sec (w : World) (m : MsgHdr) (sem q slot core : Nat) : (w.servePost m sem q slot core).sec = w.sec := by
  simp [World.servePost]
@[simp] theorem World.serveSetup_sec (w : World) (m : MsgHdr) (lam : Nat) : (w.serveSetup m lam).sec = w.sec := by
  simp only [World.serveSetup]; (repeat' split) <;> simp
@[simp] theorem World.lateNode_boot (w : World) (id : TaskId) (g node : Nat) : (w.lateNode id g node).sec.boot = w.sec.boot := by
  simp only [World.lateNode]; (repeat' split) <;> simp
@[simp] theorem World.lendFar_sec (w : World) (n : Nat) (h : Task) (core rank : Nat) : (w.lendFar n h core rank).sec = w.sec := by
  simp [World.lendFar]
@[simp] theorem World.dropFar_sec (w : World) (c : Chain) : (w.dropFar c).sec = w.sec := by simp [World.dropFar]
@[simp] theorem World.homeWait_sec (w : World) (src n q slot core rank : Nat) : (w.homeWait src n q slot core rank).sec = w.sec := by
  simp only [World.homeWait]; (repeat' split) <;> simp
@[simp] theorem World.parkAsking_sec (w : World) (t : Task) (g n : Nat) : (w.parkAsking t g n).sec = w.sec := by
  simp only [World.parkAsking]; (repeat' split) <;> simp
@[simp] theorem World.homeResumed_sec (w : World) (n : Nat) : (w.homeResumed n).sec = w.sec := by
  unfold World.homeResumed
  refine (World.foldl_sec (fun w t => World.foldl_sec (fun w x => ?_) _ _) _ _).trans (by simp)
  (repeat' split) <;> simp
@[simp] theorem World.homeWithdraw_sec (w : World) (src n q slot : Nat) : (w.homeWithdraw src n q slot).sec = w.sec := by
  simp only [World.homeWithdraw]; (repeat' split) <;> simp
@[simp] theorem World.homeOrphan_sec (w : World) (src n q slot : Nat) : (w.homeOrphan src n q slot).sec = w.sec := by
  unfold World.homeOrphan; split <;> simp
@[simp] theorem World.homeMsg_sec (w : World) (src op n q slot core rank : Nat) : (w.homeMsg src op n q slot core rank).sec = w.sec := by
  unfold World.homeMsg; split <;> simp
@[simp] theorem World.awayMsg_sec (w : World) (op n q slot core rank : Nat) : (w.awayMsg op n q slot core rank).sec = w.sec := by
  simp only [World.awayMsg]; (repeat' split) <;> simp
@[simp] theorem World.takePosted_sec (w : World) (q slot core : Nat) (ok : Bool) : (w.takePosted q slot core ok).sec = w.sec := by
  simp only [World.takePosted]; (repeat' split) <;> simp
@[simp] theorem World.semMessage_sec (w : World) (src op n q slot core rank : Nat) : (w.semMessage src op n q slot core rank).sec = w.sec := by
  simp only [World.semMessage]; (repeat' split) <;> simp

/-! The job and its ports (chapter 09). -/

@[simp] theorem World.startFails_sec (w : World) (status : Nat) : (w.startFails status).sec = w.sec := by simp [World.startFails]
@[simp] theorem World.jobRuns_boot (w : World) (map : Tab Nat) (down : List Nat) : (w.jobRuns map down).sec.boot = w.sec.boot := by
  simp [World.jobRuns]
@[simp] theorem World.settleStart_boot (w : World) : w.settleStart.sec.boot = w.sec.boot := by simp only [World.settleStart]; (repeat' split) <;> simp
@[simp] theorem World.startJob_boot (w : World) (p : Pend) (peers : List Peer) : (w.startJob p peers).sec.boot = w.sec.boot := by
  unfold World.startJob
  dsimp only
  (repeat' split) <;> try simp
  rw [World.foldl_sec (fun _ _ => by simp)]
@[simp] theorem World.stopJob_sec (w : World) (p : Pend) : (w.stopJob p).sec = w.sec := by simp only [World.stopJob]; (repeat' split) <;> simp
@[simp] theorem World.stageTrained_boot (w : World) (k : Nat) (nbr : Nbr) : (w.stageTrained k nbr).sec.boot = w.sec.boot := by
  simp only [World.stageTrained]; (repeat' split) <;> simp
@[simp] theorem World.trainTimeout_boot (w : World) (k : Nat) : (w.trainTimeout k).sec.boot = w.sec.boot := by
  simp only [World.trainTimeout]; (repeat' split) <;> simp
@[simp] theorem World.takeControl_sec (w : World) (k : Nat) (h : RxHdr) (credits : List Nat) (nak : Nat) :
    (w.takeControl k h credits nak).sec = w.sec := by
  simp only [World.takeControl]; (repeat' split) <;> simp
@[simp] theorem World.neighbourLost_sec (w : World) (k : Nat) : (w.neighbourLost k).sec = w.sec := by
  simp only [World.neighbourLost]; (repeat' split) <;> simp
@[simp] theorem World.heardCeiling_sec (w : World) (p : Pt) : (w.heardCeiling p).sec = w.sec := by simp [World.heardCeiling]
@[simp] theorem World.takeHeartbeat_sec (w : World) (k blk : Nat) : (w.takeHeartbeat k blk).sec = w.sec := by
  simp only [World.takeHeartbeat]; (repeat' split) <;> simp
@[simp] theorem World.takeCeilingBlock_sec (w : World) (k blk : Nat) : (w.takeCeilingBlock k blk).sec = w.sec := by
  simp only [World.takeCeilingBlock]; (repeat' split) <;> simp
@[simp] theorem World.applyCeiling_sec (w : World) : w.applyCeiling.sec = w.sec := by unfold World.applyCeiling; split <;> simp
@[simp] theorem World.settleCeilings_sec (w : World) : w.settleCeilings.sec = w.sec := by
  have hw := World.tally_sec w 6 0
  unfold World.settleCeilings
  split <;> rename_i h <;> rw [h] at hw
  · simpa using hw
  · split <;> simpa using hw
@[simp] theorem World.voteCeiling_sec (w : World) : w.voteCeiling.sec = w.sec := by unfold World.voteCeiling; split <;> simp
@[simp] theorem World.takeFault_sec (w : World) (k blk : Nat) : (w.takeFault k blk).sec = w.sec := by
  simp only [World.takeFault]; (repeat' split) <;> simp
@[simp] theorem World.sendCopy_sec (v : Vault) (w : World) (dst : Nat) : (w.sendCopy v dst).sec = w.sec := by
  simp only [World.sendCopy]; (repeat' split) <;> simp
@[simp] theorem World.sendCopies_sec (v : Vault) (w : World) : (w.sendCopies v).sec = w.sec := by simp [World.sendCopies]
@[simp] theorem World.remapTo_sec (v : Vault) (w : World) (l node : Nat) : (w.remapTo v l node).sec = w.sec := by
  simp only [World.remapTo]; (repeat' split) <;> simp
@[simp] theorem World.takeRemap_sec (v : Vault) (w : World) (k blk : Nat) : (w.takeRemap v k blk).sec = w.sec := by
  simp only [World.takeRemap]; (repeat' split) <;> simp
@[simp] theorem World.endRestart_sec (w : World) (failed : Bool) : (w.endRestart failed).sec = w.sec := by
  simp only [World.endRestart]; (repeat' split) <;> simp
@[simp] theorem World.floodResume_sec (w : World) (failed : Bool) : (w.floodResume failed).sec = w.sec := by simp [World.floodResume]
@[simp] theorem World.takeResume_sec (w : World) (k blk : Nat) : (w.takeResume k blk).sec = w.sec := by
  simp only [World.takeResume]; (repeat' split) <;> simp
@[simp] theorem World.nextCoordinator_sec (w : World) (r : Restart) : (w.nextCoordinator r).sec = w.sec := by
  simp only [World.nextCoordinator]; (repeat' split) <;> simp
@[simp] theorem World.censusEnds_sec (v : Vault) (w : World) : (w.censusEnds v).sec = w.sec := by
  simp only [World.censusEnds]; (repeat' split) <;> simp
@[simp] theorem World.takeCensus_sec (v : Vault) (w : World) (m : MsgHdr) (answer : Bool) : (w.takeCensus v m answer).sec = w.sec := by
  simp only [World.takeCensus]; (repeat' split) <;> simp
@[simp] theorem State.restoreOwn_sec (st : State) (c : Ckpt) : (st.restoreOwn c).w.sec = st.w.sec := by
  unfold State.restoreOwn
  dsimp only [State.onW]
  exact foldl_keeps (fun s : State => s.w.sec) (fun _ _ => by rfl) _ _

@[simp] theorem State.adoptTenant_sec (acc : State × Ckpt × Nat) (b : Bytes) : (State.adoptTenant acc b).1.w.sec = acc.1.w.sec := by
  simp [State.adoptTenant]

@[simp] theorem State.restoreCopy_sec (st : State) (b : Bytes) : (st.restoreCopy b).w.sec = st.w.sec := by
  unfold State.restoreCopy
  dsimp only [State.onW]
  exact foldl_keeps (fun acc : State × Ckpt × Nat => acc.1.w.sec) (fun acc _ => State.adoptTenant_sec acc b) _ _
@[simp] theorem State.takeCopy_boot (st : State) (data : Bytes) : (st.takeCopy data).w.sec.boot = st.w.sec.boot := by
  simp only [State.takeCopy]; (repeat' split) <;> simp
@[simp] theorem World.settleReady_sec (w : World) : w.settleReady.sec = w.sec := by
  have hw := World.tally_sec w 5 w.link.epoch
  unfold World.settleReady
  split <;> rename_i h <;> rw [h] at hw
  · dsimp only
    split <;> simpa using hw
  · exact hw
@[simp] theorem State.restoreDone_sec (st : State) : st.restoreDone.w.sec = st.w.sec := by simp only [State.restoreDone]; (repeat' split) <;> simp
@[simp] theorem World.voteUp_sec (w : World) (m : MsgHdr) (kind status value : Nat) : (w.voteUp m kind status value).sec = w.sec := by
  simp only [World.voteUp]; (repeat' split) <;> simp
@[simp] theorem World.voteCame_boot (w : World) (kind status value : Nat) : (w.voteCame kind status value).sec.boot = w.sec.boot := by
  simp only [World.voteCame]; (repeat' split) <;> simp

/-! Slices and memory channels (chapter 07). -/

@[simp] theorem World.onMem_sec (w : World) (f : Mem → Mem) : (w.onMem f).sec = w.sec := by simp [World.onMem]
@[simp] theorem World.charge_sec (w : World) (core n : Nat) : (w.charge core n).sec = w.sec := by unfold World.charge; split <;> simp
@[simp] theorem World.fetchSectors_sec (w : World) (l la mask : Nat) : (w.fetchSectors l la mask).sec = w.sec := by
  simp [World.fetchSectors, apply_ite World.sec]
@[simp] theorem World.readFar_sec (w : World) (core l addr mask : Nat) : (w.readFar core l addr mask).sec = w.sec := by
  simp only [World.readFar]; (repeat' split) <;> simp
@[simp] theorem World.sliceRead_sec (w : World) (core addr mask : Nat) (serving : Bool) : (w.sliceRead core addr mask serving).sec = w.sec := by
  simp only [World.sliceRead]; (repeat' split) <;> simp
@[simp] theorem World.sliceWrite_sec (w : World) (core addr : Nat) (data : Bytes) (serving : Bool) :
    (w.sliceWrite core addr data serving).sec = w.sec := by
  simp only [World.sliceWrite]; (repeat' split) <;> simp
@[simp] theorem World.countEcc_sec (w : World) (sec ecc src n how : Nat) : (w.countEcc sec ecc src n how).sec = w.sec := by
  unfold World.countEcc; split <;> simp
@[simp] theorem World.checkSector_sec (w : World) (sec ecc src n how : Nat) : (w.checkSector sec ecc src n how).sec = w.sec := by
  simp only [World.checkSector]; (repeat' split) <;> simp
@[simp] theorem World.sectorFill_sec (w : World) (slice line sector ecc : Nat) : (w.sectorFill slice line sector ecc).sec = w.sec := by
  simp only [World.sectorFill]; (repeat' split) <;> simp
@[simp] theorem World.memConflicts_sec (w : World) : w.memConflicts.sec = w.sec := by simp [World.memConflicts, apply_ite World.sec]
@[simp] theorem World.numConflicts_sec (w : World) : w.numConflicts.sec = w.sec := by simp [World.numConflicts, apply_ite World.sec]
@[simp] theorem World.patrolRead_sec (w : World) (ch addr ecc : Nat) (last overdue : Bool) : (w.patrolRead ch addr ecc last overdue).sec = w.sec := by
  simp only [World.patrolRead]; (repeat' split) <;> simp
@[simp] theorem World.refetch_sec (w : World) (slice : Nat) (l : Line) (mask : Nat) : (w.refetch slice l mask).sec = w.sec := by
  simp only [World.refetch]; (repeat' split) <;> simp
@[simp] theorem World.arrayError_sec (w : World) (slice : Nat) (l : Line) (sector : Nat) : (w.arrayError slice l sector).sec = w.sec := by
  simp only [World.arrayError]; (repeat' split) <;> simp
@[simp] theorem World.scrubLine_sec (w : World) (slice set way sector ecc : Nat) : (w.scrubLine slice set way sector ecc).sec = w.sec := by
  simp only [World.scrubLine]; (repeat' split) <;> simp

/-! Faults, the event log and the test port (chapters 14 and 16). -/

@[simp] theorem World.endAll_sec (w : World) (status : Nat) : (w.endAll status).sec = w.sec := by
  unfold World.endAll
  refine World.foldl_sec (fun w x => ?_) _ _
  (repeat' split) <;> simp
@[simp] theorem World.coreFails_sec (w : World) (core : Nat) : (w.coreFails core).sec = w.sec := by
  simp only [World.coreFails]; (repeat' split) <;> simp
@[simp] theorem World.copyEvent_sec (w : World) : w.copyEvent.sec = w.sec := by simp only [World.copyEvent]; (repeat' split) <;> simp
@[simp] theorem World.tapTo_sec (w : World) (code : Nat) : (w.tapTo code).sec = w.sec := by simp only [World.tapTo]; (repeat' split) <;> simp
@[simp] theorem World.takeover_sec (w : World) (code : Nat) : (w.takeover code).sec = w.sec := by simp only [World.takeover]; (repeat' split) <;> simp
@[simp] theorem World.tapBypass_sec (o : Otp) (w : World) (x : TapScan) : (w.tapBypass o x).sec = w.sec := by
  simp only [World.tapBypass]; (repeat' split) <;> simp

/-! Objects (chapter 12). -/

@[simp] theorem World.updSels_sec (w : World) (client : Nat) (f : Sels → Sels) : (w.updSels client f).sec = w.sec := by
  unfold World.updSels; split <;> simp
@[simp] theorem World.writeLow_boot (w : World) (idx sub v : Nat) (d : Bytes) : (w.writeLow idx sub v d).sec.boot = w.sec.boot := by
  unfold World.writeLow; split <;> simp
@[simp] theorem World.writeQueue_sec (w : World) (n sub v : Nat) : (w.writeQueue n sub v).1.sec = w.sec := by
  simp only [World.writeQueue]; (repeat' split) <;> simp
@[simp] theorem World.writeCtx_sec (v : Vault) (w : World) (c sub x : Nat) : (w.writeCtx v c sub x).1.sec = w.sec := by
  simp only [World.writeCtx]; (repeat' split) <;> simp
@[simp] theorem World.writeTdm_sec (w : World) (p sub v : Nat) : (w.writeTdm p sub v).1.sec = w.sec := by
  simp only [World.writeTdm]; (repeat' split) <;> simp
@[simp] theorem World.writeHost_sec (v : Vault) (w : World) (idx inst sub x : Nat) (d : Bytes) : (w.writeHost v idx inst sub x d).1.sec = w.sec := by
  unfold World.writeHost; split <;> simp
@[simp] theorem World.writeMid_sec (w : World) (rq : Rq) (idx inst sub v : Nat) : (w.writeMid rq idx inst sub v).sec = w.sec := by
  unfold World.writeMid; split <;> simp
@[simp] theorem World.writeHigh_sec (w : World) (rq : Rq) (idx sub v : Nat) : (w.writeHigh rq idx sub v).sec = w.sec := by
  unfold World.writeHigh; split <;> simp
@[simp] theorem World.writeObj_boot (v : Vault) (w : World) (rq : Rq) (index sub : Nat) (d : Bytes) :
    (w.writeObj v rq index sub d).1.sec.boot = w.sec.boot := by
  simp only [World.writeObj]; (repeat' split) <;> simp

/-! The protocol (chapter 12). -/

@[simp] theorem World.wrongLevel_sec (w : World) (id : Nat) : (w.wrongLevel id).sec = w.sec := by simp [World.wrongLevel]
@[simp] theorem World.answerLevel_sec (o : Otp) (w : World) (id : Nat) (d : Bytes) : (w.answerLevel o id d).1.sec = w.sec := by
  simp only [World.answerLevel]; (repeat' split) <;> simp
@[simp] theorem World.challenge_boot (w : World) (id : Nat) : (w.challenge id).1.sec.boot = w.sec.boot := by
  simp only [World.challenge]; (repeat' split) <;> simp
@[simp] theorem World.closeLevel_sec (w : World) (id : Nat) : (w.closeLevel id).sec = w.sec := by simp [World.closeLevel]
@[simp] theorem World.debugChallenge_boot (w : World) (id : Nat) : (w.debugChallenge id).1.sec.boot = w.sec.boot := by
  simp only [World.debugChallenge]; (repeat' split) <;> simp
@[simp] theorem World.answerDebug_boot (o : Otp) (v : Vault) (w : World) (id : Nat) (d : Bytes) : (w.answerDebug o v id d).1.sec.boot = w.sec.boot := by
  simp only [World.answerDebug]; (repeat' split) <;> simp
@[simp] theorem State.refuse_sec (st : State) (status : Nat) : (st.refuse status).st.w.sec = st.w.sec := by simp [State.refuse]
@[simp] theorem State.readOf_boot (st : State) (rq : Rq) (index sub : Nat) : (st.readOf rq index sub).1.w.sec.boot = st.w.sec.boot := by
  simp only [State.readOf]; (repeat' split) <;> simp
@[simp] theorem State.writeNow_boot (st : State) (rq : Rq) (index sub : Nat) (d : Bytes) :
    (st.writeNow rq index sub d).1.w.sec.boot = st.w.sec.boot := by
  simp only [State.writeNow]; (repeat' split) <;> simp
@[simp] theorem State.writeOf_boot (st : State) (rq : Rq) (index sub : Nat) (d : Bytes) : (st.writeOf rq index sub d).st.w.sec.boot = st.w.sec.boot := by
  simp only [State.writeOf]; (repeat' split) <;> simp
@[simp] theorem World.endTransfer_sec (w : World) (id : Nat) : (w.endTransfer id).sec = w.sec := by simp [World.endTransfer]
@[simp] theorem World.openTransfer_sec (w : World) (t : Transfer) : (w.openTransfer t).sec = w.sec := by simp [World.openTransfer]
@[simp] theorem State.doRead_boot (st : State) (rq : Rq) (m : Msg) : (st.doRead rq m).st.w.sec.boot = st.w.sec.boot := by
  simp only [State.doRead]; (repeat' split) <;> simp
@[simp] theorem State.doWrite_boot (st : State) (rq : Rq) (m : Msg) : (st.doWrite rq m).st.w.sec.boot = st.w.sec.boot := by
  simp only [State.doWrite]; (repeat' split) <;> simp
@[simp] theorem State.doReadSeg_sec (st : State) (rq : Rq) (m : Msg) (t : Transfer) : (st.doReadSeg rq m t).st.w.sec = st.w.sec := by
  simp only [State.doReadSeg]; (repeat' split) <;> simp
@[simp] theorem State.doWriteSeg_boot (st : State) (rq : Rq) (m : Msg) (t : Transfer) : (st.doWriteSeg rq m t).st.w.sec.boot = st.w.sec.boot := by
  simp only [State.doWriteSeg]; (repeat' split) <;> simp
@[simp] theorem State.doSeg_boot (st : State) (rq : Rq) (m : Msg) : (st.doSeg rq m).st.w.sec.boot = st.w.sec.boot := by
  simp only [State.doSeg]; (repeat' split) <;> simp
@[simp] theorem State.doAbort_sec (st : State) (rq : Rq) (m : Msg) : (st.doAbort rq m).st.w.sec = st.w.sec := by
  simp only [State.doAbort]; (repeat' split) <;> simp
@[simp] theorem State.doObject_boot (st : State) (rq : Rq) (m : Msg) : (st.doObject rq m).st.w.sec.boot = st.w.sec.boot := by
  simp only [State.doObject]; (repeat' split) <;> simp
@[simp] theorem World.takeAckOf_sec (w : World) (mac seq : Nat) : (w.takeAckOf mac seq).sec = w.sec := by simp [World.takeAckOf]
@[simp] theorem World.served_boot (w : World) (status : Nat) : (w.served status).sec.boot = w.sec.boot := by simp [World.served]
@[simp] theorem World.windowDone_sec (w : World) : w.windowDone.sec = w.sec := by simp [World.windowDone]
@[simp] theorem World.windowAnswer_sec (w : World) (resp : Bytes) : (w.windowAnswer resp).sec = w.sec := by simp [World.windowAnswer]
@[simp] theorem World.keepResponse_sec (w : World) (s : Stored) : (w.keepResponse s).sec = w.sec := by simp [World.keepResponse]
@[simp] theorem World.takeFrame_sec (w : World) (peers : List Peer) (mac : Nat) (b : Bytes) : (w.takeFrame peers mac b).sec = w.sec := by
  simp only [World.takeFrame]; (repeat' split) <;> simp
@[simp] theorem World.frameIn_sec (w : World) (peers : List Peer) (dmac smac etype : Nat) (fcsOk : Bool) (payload : Bytes) :
    (w.frameIn peers dmac smac etype fcsOk payload).sec = w.sec := by
  simp only [World.frameIn]; (repeat' split) <;> simp
@[simp] theorem World.watchOne_sec (o : Otp) (v : Vault) (w : World) (i : Nat) : (w.watchOne o v i).sec = w.sec := by
  simp only [World.watchOne]; (repeat' split) <;> simp
@[simp] theorem World.compareWatch_sec (o : Otp) (v : Vault) (w : World) : (w.compareWatch o v).sec = w.sec := by
  unfold World.compareWatch; split <;> simp
@[simp] theorem World.resendNote_sec (w : World) (seq : Nat) : (w.resendNote seq).sec = w.sec := by
  simp only [World.resendNote]; (repeat' split) <;> simp

/-! The passing of time. -/

@[simp] theorem World.addCycles_sec (w : World) : w.addCycles.sec = w.sec := by unfold World.addCycles; split <;> simp
@[simp] theorem World.accrue_sec (w : World) : w.accrue.sec = w.sec := by simp [World.accrue]
@[simp] theorem World.ageCal_sec (w : World) : w.ageCal.sec = w.sec := by unfold World.ageCal; simp only; split <;> simp
@[simp] theorem World.owedVectors_sec (w : World) : w.owedVectors.sec = w.sec := by simp only [World.owedVectors]; (repeat' split) <;> simp
@[simp] theorem World.tick_sec (w : World) : w.tick.sec = w.sec := by simp only [World.tick]; (repeat' split) <;> simp

/-! Operations and messages: what they are given to do decides what they leave. -/

@[simp] theorem State.committing_w (st : State) (f : World → World) : (st.committing f).w = f st.w := rfl
@[simp] theorem State.onJob_w (st : State) (f : World → World) : (st.onJob f).w = (f st.w).settleVotes := rfl

/-- A message that is taken is acted on; one that is not has only been received. -/
theorem World.taken_boot {p : World × Bool} {c : Nat × Option (Bytes × Pend)} {f : World → World} (hp : p.1.sec.boot = c)
    (hf : ∀ w, (f w).sec.boot = w.sec.boot) : (match p with | (w, true) => f w | (w, false) => w).sec.boot = c := by
  obtain ⟨w, _ | _⟩ := p
  · exact hp
  · exact (hf w).trans hp

theorem World.taking_boot (w : World) (k : Nat) (h : RxHdr) (m : MsgHdr) (typ : Nat) (data : Bytes) {f : World → World}
    (hf : ∀ w, (f w).sec.boot = w.sec.boot) : (w.taking k h m typ data f).sec.boot = w.sec.boot :=
  World.taken_boot (by simp) hf

theorem World.advance_boot {run : World → Run → World × Done} (hrun : ∀ w r, (run w r).1.sec.boot = w.sec.boot) (w : World) (r : Run) :
    (World.advance run w r).1.sec.boot = w.sec.boot := by
  unfold World.advance
  split
  · exact hrun w r
  · split
    · exact hrun w _
    · split
      · simpa using hrun w r
      · simp

theorem World.execute_boot {run : World → Run → World × Done} (hrun : ∀ w r, (run w r).1.sec.boot = w.sec.boot) (w : World) (r : Run) :
    (World.execute run w r).sec.boot = w.sec.boot := by
  have hw := World.advance_boot hrun w r
  unfold World.execute
  split <;> rename_i e <;> rw [e] at hw <;> simpa using hw

theorem World.operate_boot (w : World) (q s g : Nat) (pts : List Nat) (opc : Nat) (mods : Nat → Bool) (extra : World → Run → List Fail)
    (reads : World → Run → List (List Region)) {run : World → Run → World × Done} (hrun : ∀ w r, (run w r).1.sec.boot = w.sec.boot) :
    (w.operate q s g pts opc mods extra reads run).sec.boot = w.sec.boot := by
  have hw := World.prepare_boot w q s g pts opc mods extra reads
  unfold World.operate
  split <;> rename_i e <;> rw [e] at hw
  · exact (World.execute_boot hrun _ _).trans hw
  · exact hw

theorem State.operate_boot (st : State) (q s g : Nat) (pts : List Nat) (opc : Nat) (mods : Nat → Bool) (extra : World → Run → List Fail)
    (reads : World → Run → List (List Region)) {run : World → Run → World × Done} (hrun : ∀ w r, (run w r).1.sec.boot = w.sec.boot) :
    ∃ t, st.operate q s g pts opc mods extra reads run = .next t ∧ t.w.sec.boot = st.w.sec.boot :=
  ⟨_, rfl, World.operate_boot _ _ _ _ _ _ _ _ _ hrun⟩

theorem State.operateV_boot (st : State) (q s g : Nat) (pts : List Nat) (opc : Nat) (mods : Nat → Bool) (extra : Vault → World → Run → List Fail)
    (reads : Vault → World → Run → List (List Region)) {run : Vault → World → Run → World × Done}
    (hrun : ∀ v w r, (run v w r).1.sec.boot = w.sec.boot) :
    ∃ t, st.operateV q s g pts opc mods extra reads run = .next t ∧ t.w.sec.boot = st.w.sec.boot :=
  ⟨_, rfl, World.operate_boot _ _ _ _ _ _ _ _ _ (hrun _)⟩

/-! The firmware version over one step (R14): the relation that every step but the end of a load keeps. -/

/-- From one security state to the next the firmware version stays or becomes 0, and where it read 0 during a load it still does. -/
def VersionStep (a b : Sec) : Prop :=
  (a.loading.isSome = true → a.fw = 0) → (b.loading.isSome = true → b.fw = 0) ∧ (b.fw = a.fw ∨ b.fw = 0)

theorem VersionStep.of_boot {a b : Sec} (h : b.boot = a.boot) : VersionStep a b := by
  obtain ⟨hfw, hl⟩ := Prod.mk.inj h
  intro ha
  rw [hfw, hl]
  exact ⟨ha, .inl rfl⟩

theorem VersionStep.of_zero {a b : Sec} (h : b.fw = 0) : VersionStep a b := fun _ => ⟨fun _ => h, .inr h⟩

theorem VersionStep.trans {a b c : Sec} (hab : VersionStep a b) (hbc : VersionStep b c) : VersionStep a c := by
  intro ha
  obtain ⟨hb, hfb⟩ := hab ha
  obtain ⟨hc, hfc⟩ := hbc hb
  refine ⟨hc, ?_⟩
  rcases hfc with hfc | hfc
  · rw [hfc]; exact hfb
  · exact .inr hfc

theorem VersionStep.trans_boot {a b c : Sec} (hab : VersionStep a b) (h : c.boot = b.boot) : VersionStep a c := hab.trans (.of_boot h)

theorem VersionStep.boot_trans {a b c : Sec} (h : b.boot = a.boot) (hbc : VersionStep b c) : VersionStep a c := (VersionStep.of_boot h).trans hbc

/-! Requests: only FIRMWARE_LOAD touches the version, and one is refused while another is in progress (R373). -/

theorem World.loadFirmware_version (w : World) (p : Pend) (addr len : Nat) : VersionStep w.sec (w.loadFirmware p addr len).sec := by
  unfold World.loadFirmware
  dsimp only
  split
  · exact .of_boot (by simp)
  · split
    · exact .of_boot (by simp)
    · exact .of_zero rfl

theorem State.doOwed_version (st : State) (peers : List Peer) (o : Owed) : VersionStep st.w.sec (st.doOwed peers o).w.sec := by
  simp only [State.doOwed]
  split
  case h_3 => exact World.loadFirmware_version _ _ _ _
  all_goals exact .of_boot (by simp [apply_ite State.w, apply_ite World.sec, apply_ite Sec.boot])

theorem State.answer_boot {st : State} {window : Bool} {mac : Nat} {m : Msg} {a : Answer} (h : st.answer window mac m = some a) :
    a.st.w.sec.boot = st.w.sec.boot := by
  simp only [State.answer] at h
  repeat' split at h
  all_goals cases h <;> simp

theorem State.owed_version (st : State) (peers : List Peer) (o : Option Owed) :
    VersionStep st.w.sec (o.elim st (fun o => st.doOwed peers o)).w.sec := by
  cases o with
  | none => exact .of_boot rfl
  | some o => exact st.doOwed_version peers o

theorem State.serveWindow_version (st : State) (peers : List Peer) (m : Msg) (lost : Bool) :
    VersionStep st.w.sec (st.serveWindow peers m lost).w.sec := by
  unfold State.serveWindow
  split
  · exact .of_boot (by simp [apply_ite State.w, apply_ite World.sec])
  · rename_i a ha
    refine VersionStep.boot_trans ?_ (State.owed_version _ peers a.owed)
    simp [apply_ite World.sec, State.answer_boot ha]

theorem State.serveFrame_version (st : State) (peers : List Peer) (mac : Nat) (b : Bytes) :
    VersionStep st.w.sec (st.serveFrame peers mac b).w.sec := by
  unfold State.serveFrame
  dsimp only
  split
  · exact .of_boot (by simp)
  · split
    · exact .of_boot (by simp)
    · rename_i a ha
      refine VersionStep.boot_trans ?_ (State.owed_version _ peers a.owed)
      simp [State.answer_boot ha]

theorem State.serveOne_version (st : State) (x : Rx) : VersionStep st.w.sec (st.serveOne x).w.sec := by
  cases x with
  | window msg peers lost => exact st.serveWindow_version peers _ lost
  | frame mac msg peers => exact st.serveFrame_version peers mac msg

theorem State.foldl_serveOne_version (l : List Rx) (st : State) : VersionStep st.w.sec (l.foldl State.serveOne st).w.sec := by
  induction l generalizing st with
  | nil => exact .of_boot rfl
  | cons x l ih => exact (st.serveOne_version x).trans (ih _)

theorem State.serveAll_version (st : State) : VersionStep st.w.sec st.serveAll.w.sec :=
  State.foldl_serveOne_version st.w.stn.rx (st.onW (fun w => { w with stn := { w.stn with rx := [] } }))

theorem State.serveNext_version (st : State) : VersionStep st.w.sec st.serveNext.w.sec := by
  unfold State.serveNext
  split
  · exact .of_boot rfl
  · refine VersionStep.boot_trans ?_ (State.serveOne_version _ _)
    rfl

/-- Serving what waits, or leaving it to wait, after an update that leaves the version. -/
theorem State.serveUnless_version {st st' : State} (c : Prop) [Decidable c] (h : st'.w.sec.boot = st.w.sec.boot) :
    VersionStep st.w.sec (if c then st' else st'.serveAll).w.sec := by
  split
  · exact .of_boot h
  · exact .boot_trans h st'.serveAll_version

theorem State.windowGo_version (st : State) (peers : List Peer) (msg : Bytes) (n v : Nat) (wait : Bool) :
    VersionStep st.w.sec (st.windowGo peers msg n v wait).w.sec := by
  unfold State.windowGo
  split
  · exact .of_boot rfl
  · exact State.serveUnless_version _ (by simp)

theorem State.adpIn_version (st : State) (peers : List Peer) (car : Carrier) (msg : Bytes) :
    VersionStep st.w.sec (st.adpIn peers car msg).w.sec := by
  cases car with
  | window => exact st.windowGo_version peers msg 4 1 false
  | frame dmac smac etype fcsOk wait => exact State.serveUnless_version _ (by simp)

theorem State.adpKind_version (st : State) (kind : Nat) (car : Carrier) (msg : Bytes) :
    VersionStep st.w.sec (st.adpKind kind car msg).w.sec := by
  simp only [State.adpKind]
  split
  · exact st.adpIn_version [] car msg
  · exact .of_boot rfl

theorem State.request_version (st : State) (peers : List Peer) (r : Req) (kind index sub : Nat) (d : Bytes) :
    VersionStep st.w.sec (st.request peers r kind index sub d).w.sec := by
  simp only [State.request]
  split <;> exact State.adpIn_version _ _ _ _

theorem State.put_version (st : State) (r : Req) (index sub : Nat) (d : Bytes) : VersionStep st.w.sec (st.put r index sub d).w.sec :=
  st.request_version [] r kWrite index sub d

theorem State.putOp_version (st : State) (r : Req) (index sub op : Nat) (d : Bytes) :
    VersionStep st.w.sec (st.putOp r index sub op d).w.sec := by
  unfold State.putOp
  split
  · exact st.put_version r index sub d
  · exact .of_boot rfl

/-- A request that is made only where its operand names something. -/
theorem State.putIf_version (st : State) (c : Prop) [Decidable c] (r : Req) (index sub : Nat) (d : Bytes) :
    VersionStep st.w.sec (if c then st.put r index sub d else st).w.sec := by
  split
  · exact st.put_version r index sub d
  · exact .of_boot rfl

theorem State.tick_version (st : State) : VersionStep st.w.sec st.tick.w.sec := by
  refine VersionStep.trans_boot (b := (if st.serves then st.serveNext else st).w.sec) ?_ (congrArg Sec.boot (World.tick_sec _))
  split
  · exact st.serveNext_version
  · exact .of_boot rfl

/-! Loss of power: no firmware is left (R240, Table 10.2). -/

@[simp] theorem World.dark_fw (w : World) : w.dark.sec.fw = 0 := rfl
@[simp] theorem World.beginWake_sec (w : World) : w.beginWake.sec = w.dark.sec := by simp [World.beginWake]
@[simp] theorem World.cut_sec (w : World) : w.cut.sec = w.dark.sec := rfl
@[simp] theorem World.dormant_fw (w : World) : w.dormant.sec.fw = 0 := by unfold World.dormant; split <;> simp

theorem World.downStep_version (w : World) : VersionStep w.sec w.downStep.sec := by
  unfold World.downStep
  split
  · exact .of_boot rfl
  · split
    case h_6 => exact .of_zero (by simp)
    all_goals exact .of_boot (by simp [apply_ite World.sec])

theorem World.unwound_version (w : World) : VersionStep w.sec w.unwound.sec := by
  unfold World.unwound
  split
  · exact .of_boot rfl
  · split <;> exact .of_zero (by simp)

theorem World.wakeUp_version (w : World) : VersionStep w.sec w.wakeUp.sec := by
  unfold World.wakeUp
  split
  · exact .of_boot rfl
  · dsimp only
    split
    · exact .of_zero (by simp)
    all_goals exact .of_boot (by simp [apply_ite World.sec])

/-- A loss of power in some states alone. -/
theorem World.cutUnless_version {w w' : World} (c : Prop) [Decidable c] (h : w'.sec = w.sec) :
    VersionStep w.sec (if c then w' else w'.cut).sec := by
  split
  · exact .of_boot (by rw [h])
  · exact .of_zero (by simp)

/-! The watchdog and the end of a load (R401, R373). -/

theorem World.watchdogFires_version (w : World) : VersionStep w.sec w.watchdogFires.sec := by
  unfold World.watchdogFires
  split
  · exact .of_boot rfl
  · exact .of_zero (by simp)

theorem World.firmwareDone_none {o : Otp} {w : World} (h : w.sec.loading = none) : w.firmwareDone o = w := by simp [World.firmwareDone, h]

/-- What the end of a load leaves: the image's version where it has verified, and the one before the load otherwise. -/
theorem World.firmwareDone_boot {o : Otp} {w : World} {img : Bytes} {p : Pend} (h : w.sec.loading = some (img, p)) :
    (w.firmwareDone o).sec.boot = (if o.verify img = 0 then leAt img 4 4 else w.sec.fwPrev, none) := by
  simp [World.firmwareDone, h, apply_ite World.sec, Sec.boot]

/-! Every command (R14). -/

/-- A command's step keeps the version as `VersionStep` says. -/
def KeepsVersion (c : Instr) (s : State) : Prop := ∃ t, exec c s = .next t ∧ VersionStep s.w.sec t.w.sec

theorem KeepsVersion.of_boot {c : Instr} {s : State} (h : ∃ t, exec c s = .next t ∧ t.w.sec.boot = s.w.sec.boot) : KeepsVersion c s := by
  obtain ⟨t, ht, hb⟩ := h
  exact ⟨t, ht, .of_boot hb⟩

/-- Wake-Failed is left for Dormant, or not at all (R246). -/
theorem World.failedExit_version (w : World) : VersionStep w.sec (if w.power.st = .wakeFailed ∧ !w.pins.wake then w.dark else w).sec := by
  split
  · exact .of_zero rfl
  · exact .of_boot rfl

/-- RESET_N rising lets a wake start in Dormant (R255). -/
theorem World.resetReleased_version (w : World) :
    VersionStep w.sec (if w.power.st = .dormant then ({ w with pins := { w.pins with resetN := true } } : World).dormant
      else { w with pins := { w.pins with resetN := true } }).sec := by
  split
  · exact .of_zero (by simp)
  · exact .of_boot rfl

/-- The return from Doze answers what waited (R302). -/
theorem State.dozeExit_version (s : State) :
    VersionStep s.w.sec (if s.w.power.st = .doze ∧ s.w.power.exiting.isSome then (s.onW World.dozeReturn).serveAll else s).w.sec := by
  split
  · exact .boot_trans (by simp) (State.serveAll_version _)
  · exact .of_boot rfl

/-- A checkpoint copy that was taken leaves the version. -/
theorem State.copyCame_boot (s : State) {p : World × Bool} (hp : p.1.sec.boot = s.w.sec.boot) (data : Bytes) :
    (match p with | (w, true) => ({ s with w := w } : State).takeCopy data | (w, false) => { s with w := w }).w.sec.boot = s.w.sec.boot := by
  obtain ⟨w, _ | _⟩ := p
  · exact hp
  · exact (State.takeCopy_boot _ data).trans hp

/-- Every command but the end of a firmware load keeps the version (R14). -/
theorem keepsVersion (c : Instr) (s : State) (hc : c ≠ .firmwareLoadDone) : KeepsVersion c s := by
  cases c with
  | firmwareLoadDone => exact absurd rfl hc
  -- operations
  | nopOp | jumpOp | tstamp | dropOp | copyOp | fillOp | loads | stores | gather | scatter | transpose | prefetch | matmul | matmult | conv1d |
  reduceSum | reduceSumsq | reduceMax | reduceMin | reduceAmax | reduceArgmax | reduceArgmin | vadd | vmul | vfma | vmax | vmin | vfuncRelu |
  vfuncGelu | vfuncSilu | vfuncTanh | vfuncSigmoid | vfuncExp | vfuncReciprocal | vfuncRsqrt | vfuncSqrt | vfuncAbs | vfuncNegation | softmax |
  layerNorm | rmsNorm | vscale | vselect | convert | scaleupd | observe | actsave | actload | gnorm | allreduceSum | allreduceMax | allreduceMin |
  reduceRootSum | reduceRootMax | reduceRootMin | broadcast | allgather | pushpost =>
    exact .of_boot (State.operate_boot _ _ _ _ _ _ _ _ _ (fun _ _ => by simp))
  | clipnoise | reel | ckpt | rngbits | rnguni | rnggauss | dropout =>
    exact .of_boot (State.operateV_boot _ _ _ _ _ _ _ _ _ (fun _ _ _ => by simp))
  | commit | barrier =>
    exact .of_boot ⟨_, rfl, (World.settleVotes_boot _).trans (World.operate_boot _ _ _ _ _ _ _ _ _ (fun _ _ => by simp))⟩
  | endOp => exact .of_boot ⟨_, rfl, by simp [World.operate_boot, apply_ite World.sec]⟩
  -- requests of clients
  | semValueWrite | jobStop | requestActive | requestIdle | requestDoze | levelResponse | closeLevel | programStagedRecord | retireFactoryLevel |
  firmwareLoad | programKeySlot | revokeKeySlot | debugResponse | relockDebug | disableDebug | createTenant =>
    exact ⟨_, rfl, State.put_version _ _ _ _ _⟩
  | sessionOpen | sessionClose | tenantImport | tenantRetire => exact ⟨_, rfl, State.putOp_version _ _ _ _ _ _⟩
  | queueDisable | queueEnable | queueReset | tdmPortEnable | contextOpen | contextClose => exact ⟨_, rfl, State.putIf_version _ _ _ _ _ _⟩
  | jobStart | levelChallenge | debugChallenge => exact ⟨_, rfl, State.request_version _ _ _ _ _ _ _⟩
  | adpRead | adpWrite | readSeg | writeSeg | adpAbort | discover | notifyAck => exact ⟨_, rfl, State.adpKind_version _ _ _ _⟩
  | windowGo => exact ⟨_, rfl, State.windowGo_version _ _ _ _ _ _⟩
  | dozeExitComplete => exact ⟨_, rfl, State.dozeExit_version s⟩
  -- messages of other engines
  | readDataMsg | writeMsg | writeAckMsg | pushpostPostMsg | skipNoticeMsg | semaphoreMsg | censusMsg =>
    exact .of_boot ⟨_, rfl, World.taking_boot _ _ _ _ _ _ (fun _ => by simp)⟩
  | readMsg | collectiveSetupMsg | collectiveData => exact .of_boot ⟨_, rfl, World.taken_boot (by simp) (fun _ => by simp)⟩
  | voteMsg =>
    exact .of_boot ⟨_, rfl, (World.settleVotes_boot _).trans (World.taking_boot _ _ _ _ _ _
      (fun _ => by simp [apply_ite World.sec, apply_ite Sec.boot]))⟩
  | checkpointCopyMsg => exact .of_boot ⟨_, rfl, State.copyCame_boot _ (by simp) _⟩
  -- power
  | wakeRise => exact ⟨_, rfl, s.w.wakeUp_version⟩
  | unwindDone => exact ⟨_, rfl, s.w.unwound_version⟩
  | powerDownStepDone => exact ⟨_, rfl, s.w.downStep_version⟩
  | resetNLow => exact ⟨_, rfl, World.cutUnless_version _ rfl⟩
  | vinLoss => exact ⟨_, rfl, World.cutUnless_version _ rfl⟩
  | wakeFailedExit => exact ⟨_, rfl, s.w.failedExit_version⟩
  | resetNRelease => exact ⟨_, rfl, s.w.resetReleased_version⟩
  | watchdog => exact ⟨_, rfl, s.w.watchdogFires_version⟩
  -- every other command leaves it
  | streamInputWritten | streamOutputTaken => exact .of_boot ⟨_, rfl, by split <;> simp⟩
  | dozeExitFrame car => cases car with
    | window => exact .of_boot ⟨_, rfl, rfl⟩
    | frame => exact .of_boot ⟨_, rfl, by dsimp only; split <;> simp⟩
  | dozeResidencyEnd | transmitOpportunity =>
    exact .of_boot ⟨_, rfl, by dsimp only [State.onW_w]; (repeat' split) <;> simp⟩
  | prodWrite | taskFetch | cackWrite | cancelWrite | coalescingTimeout | pcieLinkTraining | windowRead | windowWrite | tdmFrameStart | tdmFrameEnd |
  clockLoss | playoutDue | semRelease | holdBudgetExpiry | opComplete | phaseMarkRelease | stepAdmission | stepAbandon | taskPlacement |
  preemptionPoint | drainComplete | contextSaveDone | contextRestoreDone | drainTimeout | sliceRead | sliceWrite | sectorFill | streamBypassWindow |
  compressionSampleEnd | patrolScrubRead | sliceScrub | portTrainingStageDone | portTrainingTimeout | controlFlit | heartbeatSend | heartbeat |
  ceiling | ceilingApply | ceilingVote | faultFlood | remap | resume | censusTimeout | latenessDeadline | wakeFall | wakeStageDone | idleEntryDone |
  dvfsSample | voltageRampDone | sensorSample | pwrAlertRise | segmentTimeout | windowStatusClear | watchCompare | notifyResend | beaconLoss |
  challengeExpiry | lockoutExpiry | otpWordProgrammed | coreError | tapBypass | tapExtest | tapHighz | tapClamp | testLogicReset | coolOkRise |
  checkpointRestoreDone | tenantCommandDone | notificationRingTailWrite => exact .of_boot ⟨_, rfl, by simp⟩
  | functionLevelReset | perstNLow | linkDown | regulatorRefill | interferenceWindowEnd | forcedScrubSpell | refresh | calibrationDue | calibrationRun
  | forcedCalibration | memBandConflict | numBandConflict | pwrBandConflict | creditReturnTimer | ackProgressTimeout | heartbeatTimeout |
  wakeStageTimeout | retrySettleEnd | readyBurst | dozeExitPcie | currentClampEngage | currentClampReleaseStep | thermalTripRelease | pwrAlertFall |
  pwrAlertHoldEnd | regulatorAlert | regulatorAlertClear | coolOkFall | haltRelease | regulatorCalibrationStart | regulatorCalibrationDone |
  plcaBeacon | levelIdleTimeout | eventLogCopy | calibrationStale | tapIdcode | tapSample | telemetrySampleDropped | dozeEnergyIntegration |
  entropyHealthTestFail | calibrationEnd => exact .of_boot ⟨_, rfl, by simp [apply_ite World.sec, apply_ite Sec.boot]⟩

/-- What the end of a load makes of the version (R14, R373): a load in progress ends, with the image's version or the one before. -/
theorem firmwareLoadDone_version (s : State) : ∃ t, exec .firmwareLoadDone s = .next t ∧
    (VersionStep s.w.sec t.w.sec ∨ ∃ img p, s.w.sec.loading = some (img, p) ∧ t.w.sec.loading = none ∧
      ((s.otp.verify img = 0 ∧ t.w.sec.fw = leAt img 4 4) ∨ (s.otp.verify img ≠ 0 ∧ t.w.sec.fw = s.w.sec.fwPrev))) := by
  refine ⟨_, rfl, ?_⟩
  dsimp only [State.onOW_w]
  cases h : s.w.sec.loading with
  | none => exact .inl (.of_boot (by rw [World.firmwareDone_none h]))
  | some load =>
    obtain ⟨img, p⟩ := load
    obtain ⟨hfw, hload⟩ := Prod.mk.inj (World.firmwareDone_boot (o := s.otp) h)
    refine .inr ⟨img, p, rfl, hload, ?_⟩
    by_cases hv : s.otp.verify img = 0
    · exact .inl ⟨hv, by rw [hfw, if_pos hv]⟩
    · exact .inr ⟨hv, by rw [hfw, if_neg hv]⟩

/-- Settles O58: one relation on the security state, kept by every command but the end of a load, whose two ends are spelled out. -/
theorem firmwareVersionIsWhole : Obligations.FirmwareVersionIsWhole := by
  refine ⟨fun w o v rq => rfl, fun s t hstep hzero => ?_⟩
  unfold step at hstep
  cases hp : s.pending with
  | nil =>
    rw [hp] at hstep
    obtain rfl := Host.Outcome.next.inj hstep
    obtain ⟨hload, hfw⟩ := s.tick_version hzero
    exact ⟨hload, hfw.imp_right .inl⟩
  | cons c rest =>
    rw [hp] at hstep
    by_cases hc : c = .firmwareLoadDone
    · subst hc
      obtain ⟨t', ht', hv⟩ := firmwareLoadDone_version { s with pending := rest }
      obtain rfl := Host.Outcome.next.inj (ht'.symm.trans hstep)
      rcases hv with hv | ⟨img, p, hl, hnone, hfw⟩
      · obtain ⟨hload, hfw⟩ := hv hzero
        exact ⟨hload, hfw.imp_right .inl⟩
      · exact ⟨fun h => absurd h (by simp [hnone]), .inr (.inr ⟨img, p, hl, rfl, hnone, hfw⟩)⟩
    · obtain ⟨t', ht', hv⟩ := keepsVersion c { s with pending := rest } hc
      obtain rfl := Host.Outcome.next.inj (ht'.symm.trans hstep)
      obtain ⟨hload, hfw⟩ := hv hzero
      exact ⟨hload, hfw.imp_right .inl⟩

/-! What the power loop leaves as the engine takes note of its state (R264, R279). -/

/-- The groups of objects that the power loop leaves: the power state, the clocks, tasks, memory and the host port. -/
def World.still (w : World) : Power × Clock × Sched × Mem × HostPort := (w.power, w.clock, w.sched, w.mem, w.host)

@[simp] theorem World.still_mk (w : World) (live : Live) (pins : Pins) (pt : OpPoint) (meter : Meter) (log : Log) (adp : Adp) (stn : Stn) (msix : Msix)
    (num : Num) (train : Train) (link : Link) (job : Job) (sec : Sec) (tap : Tap) (out : List Out) :
    (World.mk live w.power pins pt meter w.clock log adp stn w.host msix w.sched num train w.mem link job sec tap out).still = w.still := rfl

@[simp] theorem World.foldl_still {β : Type} {f : World → β → World} (h : ∀ w b, (f w b).still = w.still) (l : List β) (w : World) :
    (l.foldl f w).still = w.still := foldl_keeps World.still h l w

@[simp] theorem World.send_still (w : World) (o : Out) : (w.send o).still = w.still := by simp [World.send]
@[simp] theorem World.forwardBlock_still (w : World) (except_ : Option Nat) (blk : Nat) : (w.forwardBlock except_ blk).still = w.still := by
  simp [World.forwardBlock, List.foldl_filter, apply_ite World.still]
@[simp] theorem World.flood_still (w : World) (kind content : Nat) : (w.flood kind content).still = w.still := by simp [World.flood]
@[simp] theorem World.floodCeiling_still (w : World) (p : Pt) : (w.floodCeiling p).still = w.still := by simp [World.floodCeiling]
@[simp] theorem World.rampDone_still (w : World) : w.rampDone.still = w.still := by unfold World.rampDone; split <;> simp
@[simp] theorem World.noteReasons_still (w : World) : w.noteReasons.still = w.still := by simp [World.noteReasons]
@[simp] theorem World.moveTo_still (w : World) (p : Pt) (force : Bool) : (w.moveTo p force).still = w.still := by
  simp [World.moveTo, apply_ite World.still]
@[simp] theorem World.takePoint_still (w : World) (own : Pt) (force : Bool) : (w.takePoint own force).still = w.still := by
  simp [World.takePoint, apply_ite World.still]
@[simp] theorem World.takeCeiling_still (w : World) (force : Bool) : (w.takeCeiling force).still = w.still := by simp [World.takeCeiling]
@[simp] theorem World.jobProfile_still (w : World) : w.jobProfile.still = w.still := by simp [World.jobProfile, apply_ite World.still]
@[simp] theorem World.follow_still (w : World) : w.follow.still = w.still := by simp [World.follow, apply_ite World.still]

/-! The passing of a microsecond (log entry 3). -/

theorem World.clocked_timed {w : World} (h : w.clocked = true) : w.timed = true := by simp [World.timed, h]

theorem World.clocked_of_still {w w' : World} (h : w'.still = w.still) : w'.clocked = w.clocked := by
  have hp : w'.power = w.power := congrArg (·.1) h
  simp only [World.clocked, hp]

theorem World.timed_of_still {w w' : World} (h : w'.still = w.still) : w'.timed = w.timed := by
  have hp : w'.power = w.power := congrArg (·.1) h
  simp only [World.timed, World.clocked_of_still h, hp]

/-- What a microsecond adds to the clocks (R8, R407), and what it leaves, from an engine to the one after it. -/
structure World.Ticked (w t : World) : Prop where
  ns : t.clock.ns = w.clock.ns + (if w.timed then 1000 else 0)
  compute : t.clock.compute = w.clock.compute + (if w.clocked then computeMHz t.pt.op else 0)
  fabric : t.clock.fabric = w.clock.fabric + (if w.clocked then fabricMHz t.pt.op else 0)
  mem : t.mem = w.mem
  sched : t.sched = w.sched
  queues : t.host.queues = w.host.queues

/-- While the timestamp stands, nothing is added. -/
theorem World.Ticked.of_stopped {w t : World} (h : w.timed = false) (hc : t.clock = w.clock) (hm : t.mem = w.mem) (hs : t.sched = w.sched)
    (hh : t.host = w.host) : w.Ticked t := by
  have hcl : w.clocked = false := by
    cases hw : w.clocked
    · rfl
    · rw [World.clocked_timed hw] at h; cases h
  constructor <;> simp [*]

/-- What leaves the clocks, tasks, memory and the queues, and whether the clocks run, may come before the microsecond. -/
theorem World.Ticked.after {w w' t : World} (ht : w'.Ticked t) (htm : w'.timed = w.timed) (hcl : w'.clocked = w.clocked) (hc : w'.clock = w.clock)
    (hs : w'.sched = w.sched) (hm : w'.mem = w.mem) (hh : w'.host = w.host) : w.Ticked t := by
  obtain ⟨hns, hcomp, hfab, hmem, hsched, hq⟩ := ht
  rw [htm, hc] at hns
  rw [hcl, hc] at hcomp hfab
  exact ⟨hns, hcomp, hfab, hmem.trans hm, hsched.trans hs, by rw [hq, hh]⟩

theorem World.Ticked.after_still {w w' t : World} (ht : w'.Ticked t) (h : w'.still = w.still) : w.Ticked t := by
  obtain ⟨-, hc, hs, hm, hh⟩ : w'.power = w.power ∧ w'.clock = w.clock ∧ w'.sched = w.sched ∧ w'.mem = w.mem ∧ w'.host = w.host := by
    simpa [World.still] using h
  exact ht.after (World.timed_of_still h) (World.clocked_of_still h) hc hs hm hh

/-- What leaves the point in force, the clocks, tasks, memory and the queues may come after it. -/
theorem World.Ticked.then {w t t' : World} (ht : w.Ticked t) (hp : t'.pt = t.pt) (hc : t'.clock = t.clock) (hs : t'.sched = t.sched)
    (hm : t'.mem = t.mem) (hq : t'.host.queues = t.host.queues) : w.Ticked t' := by
  obtain ⟨hns, hcomp, hfab, hmem, hsched, hqs⟩ := ht
  constructor <;> simp [*]

theorem World.addCycles_power (w : World) : w.addCycles.power = w.power := by unfold World.addCycles; split <;> rfl

/-- The clocks run for a microsecond at the point in force. -/
theorem World.addCycles_ticked {w : World} (h : w.timed = true) :
    w.Ticked ({ w with clock := { w.clock with ns := w.clock.ns + 1000 } } : World).addCycles := by
  unfold World.addCycles
  split
  · rename_i hc
    replace hc : w.clocked = true := hc
    constructor <;> simp [h, hc]
  · rename_i hc
    replace hc : ¬ w.clocked = true := hc
    constructor <;> simp [h, hc]

theorem World.Ticked.ite {w a b : World} (c : Prop) [Decidable c] (ha : w.Ticked a) (hb : w.Ticked b) : w.Ticked (if c then a else b) := by
  split
  · exact ha
  · exact hb

theorem World.accrue_ticked {w t : World} (ht : w.Ticked t) : w.Ticked t.accrue :=
  ht.then rfl rfl rfl rfl rfl

theorem World.ageCal_ticked {w t : World} (ht : w.Ticked t) : w.Ticked t.ageCal := by
  simp only [World.ageCal]
  split <;> exact ht.then rfl rfl rfl rfl rfl

theorem World.vector65_ticked {w t : World} (ht : w.Ticked t) : w.Ticked t.vector65 := ht.then (by simp) (by simp) (by simp) (by simp) (by simp)

theorem World.vector67_queues (w : World) : w.vector67.host.queues = w.host.queues := by
  unfold World.vector67
  (repeat' split) <;> simp

theorem World.vector67_ticked {w t : World} (ht : w.Ticked t) : w.Ticked t.vector67 :=
  ht.then (by simp) (by simp) (by simp) (by simp) t.vector67_queues

theorem World.owedVectors_ticked {w t : World} (ht : w.Ticked t) : w.Ticked t.owedVectors :=
  have h65 : w.Ticked (if t.stn.vecDue then t.vector65 else t) := .ite _ (World.vector65_ticked ht) ht
  .ite _ (World.vector67_ticked h65) h65

/-- In a wake a microsecond only counts, and moves the timestamp once it runs. -/
theorem World.tick_up {w : World} (h : w.power.st = .up) : w.tick =
    if w.timed then
      ({ w with power := { w.power with wakeUs := w.power.wakeUs + 1 }, clock := { w.clock with ns := w.clock.ns + 1000 } } : World).addCycles
    else { w with power := { w.power with wakeUs := w.power.wakeUs + 1 } } := by
  simp [World.tick, World.addCycles_power, World.timed, World.clocked, h]

theorem World.tick_not_up {w : World} (h : w.power.st ≠ .up) : w.tick =
    if w.timed then ({ w.follow with clock := { w.follow.clock with ns := w.follow.clock.ns + 1000 } } : World).addCycles.accrue.ageCal.owedVectors
    else w := by
  have hp : w.follow.power = w.power := congrArg (·.1) w.follow_still
  simp [World.tick, World.addCycles_power, h, hp]

theorem World.tick_ticked (w : World) : w.Ticked w.tick := by
  by_cases hu : w.power.st = .up
  · rw [World.tick_up hu]
    split
    · rename_i h
      exact (World.addCycles_ticked (w := { w with power := { w.power with wakeUs := w.power.wakeUs + 1 } }) h).after rfl rfl rfl rfl rfl rfl
    · rename_i h
      exact .of_stopped (by simpa using h) rfl rfl rfl rfl
  · rw [World.tick_not_up hu]
    split
    · rename_i h
      have hf := w.follow_still
      exact (World.owedVectors_ticked (World.ageCal_ticked (World.accrue_ticked
        (World.addCycles_ticked ((World.timed_of_still hf).trans h))))).after_still hf
    · rename_i h
      exact .of_stopped (by simpa using h) rfl rfl rfl rfl

/-- Settles O2: nothing waits for the management core, or its clock stands, and a microsecond passes; else the oldest request is answered first. -/
theorem emptyQueueTicks : Obligations.EmptyQueueTicks := by
  refine ⟨fun s hp hidle => ?_, fun s x rest hp hc hrx => ?_⟩
  · have hserve : (if s.serves then s.serveNext else s) = s := by
      rcases hidle with hrx | hc
      · simp [State.serveNext, hrx]
      · simp [State.serves, hc]
    obtain ⟨hns, hcomp, hfab, hmem, hsched, hq⟩ := s.w.tick_ticked
    refine ⟨s.onW World.tick, ?_, hp, rfl, rfl, hns, hcomp, hfab, hmem, hsched, hq⟩
    simp only [step, hp, State.tick, hserve]
  · simp only [step, hp, State.tick, State.serves, State.serveNext, hc, hrx, if_true]

/-! The wake (R242 to R246, R250). -/

@[simp] theorem World.setSt_power (w : World) (s : PState) : (w.setSt s).power = { w.power with st := s } := by simp only [World.setSt]; split <;> simp
@[simp] theorem World.setSt_pins (w : World) (s : PState) : (w.setSt s).pins = w.pins := by simp only [World.setSt]; split <;> simp
@[simp] theorem World.setSt_pt (w : World) (s : PState) : (w.setSt s).pt = w.pt := by simp only [World.setSt]; split <;> simp
@[simp] theorem World.setSt_mem (w : World) (s : PState) : (w.setSt s).mem = w.mem := by simp only [World.setSt]; split <;> simp
@[simp] theorem World.setSt_out (w : World) (s : PState) : (w.setSt s).out = w.out := by simp only [World.setSt]; split <;> simp

@[simp] theorem World.send_out (w : World) (o : Out) : (w.send o).out = w.out ++ [o] := rfl

@[simp] theorem World.dark_power (w : World) : w.dark.power = {} := rfl
@[simp] theorem World.dark_pins (w : World) : w.dark.pins =
    { wake := w.pins.wake, resetN := w.pins.resetN, perstN := w.pins.perstN, pwrAlertN := w.pins.pwrAlertN, coolOk := w.pins.coolOk } := rfl
@[simp] theorem World.dark_out (w : World) : w.dark.out = w.out := rfl

/-- Pins that are high raise no alert. -/
theorem World.readPins_high {w : World} (hp : w.pins.pwrAlertN = true) (hc : w.pins.coolOk = true) : w.readPins = w := by
  simp [World.readPins, hp, hc]

/-! What a stage that completes does. -/

theorem World.stageDone_plain {w : World} (o : Otp) (straps : Nat) (hu : w.power.st = .up) (hs : w.power.settling = false)
    (hg : w.power.stage = 1 ∨ w.power.stage = 3 ∨ w.power.stage = 5) : w.stageDone o straps = w.nextStage := by
  rcases hg with hg | hg | hg <;> simp [World.stageDone, hu, hs, hg]

theorem World.stageDone_two {w : World} (o : Otp) (straps : Nat) (hu : w.power.st = .up) (hs : w.power.settling = false) (hg : w.power.stage = 2) :
    w.stageDone o straps = ({ w with pins := { w.pins with vio := true, faultN := some true }, pt := { w.pt with coreMv := 600 } } : World).nextStage := by
  simp [World.stageDone, hu, hs, hg]

theorem World.stageDone_four {w : World} (o : Otp) (straps : Nat) (hu : w.power.st = .up) (hs : w.power.settling = false) (hg : w.power.stage = 4) :
    w.stageDone o straps = if factoryOk o.factory && decide (straps < 2 ^ 9) then (w.otpLoad o straps).trimmed.nextStage else w.stageFails := by
  simp only [World.stageDone, hu, hs, hg]
  rfl

theorem World.stageDone_six {w : World} (o : Otp) (straps : Nat) (hu : w.power.st = .up) (hs : w.power.settling = false) (hg : w.power.stage = 6) :
    w.stageDone o straps = w.readyUp := by
  simp [World.stageDone, hu, hs, hg]

theorem World.stageFails_again {w : World} (h : w.power.attempts.getD (w.power.stage - 1) 0 < 3) :
    w.stageFails = { w with power := { w.power with settling := true } } := if_pos h

theorem World.stageFails_last {w : World} (h : 3 ≤ w.power.attempts.getD (w.power.stage - 1) 0) :
    w.stageFails = ({ w with power := { w.power with failed := w.power.stage, toFail := true } } : World).setSt .unwind := if_neg (by omega)

/-- A command whose meaning is a change of the engine gives that engine. -/
theorem gives_of_eq {c : Instr} {s : State} {w w' : World} (h : exec c s = .next { s with w := w }) (hw : w = w') : Gives c s w' := hw ▸ h

theorem gives_stageDone {s : State} {straps : Nat} {w : World} (h : s.w.stageDone s.otp straps = w) : Gives (.wakeStageDone straps) s w :=
  gives_of_eq rfl h

theorem gives_stageTimeout {s : State} {w : World} (hu : s.w.power.st = .up) (hs : s.w.power.settling = false) (h : s.w.stageFails = w) :
    Gives .wakeStageTimeout s w :=
  gives_of_eq rfl (by simpa [hu, hs] using h)

/-- Settles O43, by the stage that the wake is in, and by where its unwind leads. -/
theorem wakeStages : Obligations.WakeStages := by
  refine ⟨fun s straps hu => ⟨fun hs => ⟨?_, ?_, ?_, ?_, ?_, ?_, ?_⟩, fun hs => ?_⟩, fun s => ⟨?_, ?_, ?_, ?_, ?_, ?_⟩⟩
  · exact fun hg => gives_stageDone (World.stageDone_plain _ _ hu hs hg)
  · exact fun hg => gives_stageDone (World.stageDone_two _ _ hu hs hg)
  · intro hg hstraps hn
    refine gives_stageDone ?_
    rw [World.stageDone_four _ _ hu hs hg, if_neg (by simp; omega), World.stageFails_again hn]
  · intro hg hstraps hok
    refine ⟨_, gives_stageDone (World.stageDone_four _ _ hu hs hg), ?_⟩
    rw [if_pos (by simp [hok]; omega)]
    simp [World.nextStage, World.trimmed, World.otpLoad, World.classDefaults, hg]
  · intro hg hp hc
    refine ⟨_, gives_stageDone (World.stageDone_six _ _ hu hs hg), ?_⟩
    rw [World.readyUp, World.readPins_high (by simpa using hp) (by simpa using hc)]
    simp
  · exact fun hn => gives_stageTimeout hu hs (World.stageFails_again hn)
  · intro hn
    exact ⟨_, gives_stageTimeout hu hs (World.stageFails_last hn), by simp⟩
  · exact gives_of_eq rfl (by simp [hu, hs])
  · intro hu hf
    refine ⟨_, gives_of_eq rfl rfl, ?_⟩
    simp [World.unwound, hu, hf]
  · intro hu hf hw
    refine ⟨_, gives_of_eq rfl rfl, ?_⟩
    simp [World.unwound, hu, hf, World.dormant, hw]
  · intro hu hf hw hr
    refine ⟨_, gives_of_eq rfl rfl, ?_⟩
    simp [World.unwound, hu, hf, World.dormant, hw, hr, World.beginWake]
  · exact fun hu => gives_of_eq rfl (by simp [hu, World.send])
  · intro hu hw
    refine ⟨_, gives_of_eq rfl rfl, ?_⟩
    simp [hu, hw]
  · exact fun hu hw => gives_of_eq rfl (by simp [hu, hw])

end Sys2Proof.Machine

namespace Sys2Proof.Machine

open Sys2Proof

/-! What messages and the end of a task leave of the engine's accounts. -/

/-- What a commit, a completion and a vote rest on: the clock, the host port, the training state, the open votes, the last checkpoint,
and the tasks that are here with their programs. -/
def World.accounts (w : World) : Clock × HostPort × Train × List Vote × Option Ckpt × List (TaskId × Nat) :=
  (w.clock, w.host, w.train, w.job.votes, w.job.ckpt, w.sched.tasks.map (fun t => (t.id, t.prog)))

theorem World.accounts_eq_iff {w w' : World} : w'.accounts = w.accounts ↔
    w'.clock = w.clock ∧ w'.host = w.host ∧ w'.train = w.train ∧ w'.job.votes = w.job.votes ∧ w'.job.ckpt = w.job.ckpt ∧
      w'.sched.tasks.map (fun t => (t.id, t.prog)) = w.sched.tasks.map (fun t => (t.id, t.prog)) := by
  simp [World.accounts]

/-- The scheduler and the accounts: a message leaves both. -/
def World.inner (w : World) : Sched × Clock × HostPort × Train × List Vote × Option Ckpt × List (TaskId × Nat) := (w.sched, w.accounts)

theorem World.inner_eq_iff {w w' : World} : w'.inner = w.inner ↔ w'.sched = w.sched ∧ w'.accounts = w.accounts := by
  simp [World.inner]

@[simp] theorem World.foldl_inner {β : Type} {f : World → β → World} (h : ∀ w b, (f w b).inner = w.inner) (l : List β) (w : World) :
    (l.foldl f w).inner = w.inner := foldl_keeps World.inner h l w

@[simp] theorem World.foldl_accounts {β : Type} {f : World → β → World} (h : ∀ w b, (f w b).accounts = w.accounts) (l : List β) (w : World) :
    (l.foldl f w).accounts = w.accounts := foldl_keeps World.accounts h l w

@[simp] theorem World.send_inner (w : World) (o : Out) : (w.send o).inner = w.inner := rfl
@[simp] theorem World.updPort_inner (w : World) (k : Nat) (f : Port → Port) : (w.updPort k f).inner = w.inner := rfl
@[simp] theorem World.updColl_inner (w : World) (seq : Nat) (f : Coll → Coll) : (w.updColl seq f).inner = w.inner := rfl
@[simp] theorem World.takeCredit_inner (w : World) (n : Nat) : (w.takeCredit n).inner = w.inner := rfl
@[simp] theorem World.giveCredit_inner (w : World) (n : Nat) : (w.giveCredit n).inner = w.inner := rfl

@[simp] theorem World.pumpOne_inner (w : World) (k : Nat) : (w.pumpOne k).inner = w.inner := by
  simp only [World.pumpOne]; split <;> simp
@[simp] theorem World.pump_inner (w : World) (k : Nat) : (w.pump k).inner = w.inner := by simp [World.pump]
@[simp] theorem World.control_inner (w : World) (k : Nat) (nak : Option Nat) : (w.control k nak).inner = w.inner := by simp [World.control]
@[simp] theorem World.launchFrom_inner (w : World) (src vc dst : Nat) (bytes : Bytes) (lvl : Option Nat) :
    (w.launchFrom src vc dst bytes lvl).inner = w.inner := by
  unfold World.launchFrom; split <;> simp
@[simp] theorem World.messageTo_inner (w : World) (typ vc logical tag addr : Nat) (data : Bytes) :
    (w.messageTo typ vc logical tag addr data).inner = w.inner := by
  unfold World.messageTo; split <;> simp [World.message, World.launch]
@[simp] theorem World.semMsg_inner (w : World) (l op sem q slot core rank : Nat) : (w.semMsg l op sem q slot core rank).inner = w.inner := by
  simp [World.semMsg]
@[simp] theorem World.voteDown_inner (w : World) (kind status value : Nat) : (w.voteDown kind status value).inner = w.inner := by
  simp [World.voteDown, World.sendVote]

/-! What a message that has come whole leaves (R206, R215). -/

@[simp] theorem World.sendWaiting_inner (w : World) (x : Waiting) : (w.sendWaiting x).inner = w.inner := by
  simp only [World.sendWaiting]; (repeat' split) <;> simp [World.launch]
@[simp] theorem World.creditBack_inner (w : World) : w.creditBack.inner = w.inner := by
  simp only [World.creditBack]
  split
  · simp
  · exact (World.sendWaiting_inner _ _).trans rfl
@[simp] theorem World.ackFlits_inner (w : World) (k ack : Nat) : (w.ackFlits k ack).inner = w.inner := by simp [World.ackFlits]
@[simp] theorem World.keepFlits_inner (w : World) (k : Nat) (h : RxHdr) (n : Nat) : (w.keepFlits k h n).inner = w.inner := by
  simp [World.keepFlits, apply_ite World.inner]
@[simp] theorem World.rxFlits_inner (w : World) (k : Nat) (h : RxHdr) (n : Nat) : (w.rxFlits k h n).1.inner = w.inner := by
  simp only [World.rxFlits]; (repeat' split) <;> simp [World.nakFlit]

/-- A message for this engine has changed only its ports and its collectives. -/
theorem World.receive_inner {w w' : World} {k : Nat} {h : RxHdr} {m : MsgHdr} {n : Nat} {wire : Bytes}
    (hr : w.receive k h m n wire = (w', true)) : w'.inner = w.inner := by
  have hw := w.rxFlits_inner k h n
  unfold World.receive at hr
  split at hr <;> rename_i e <;> rw [e] at hw
  · cases hr
  · repeat' split at hr
    all_goals cases hr
    exact hw

/-- What a message for this engine leaves of what a vote acts on. -/
theorem World.receive_same {w w' : World} {k : Nat} {h : RxHdr} {m : MsgHdr} {n : Nat} {wire : Bytes}
    (hr : w.receive k h m n wire = (w', true)) : w'.sched = w.sched ∧ w'.train = w.train ∧ w'.job.votes = w.job.votes ∧ w'.job.ckpt = w.job.ckpt := by
  obtain ⟨hs, ha⟩ := World.inner_eq_iff.mp (World.receive_inner hr)
  obtain ⟨-, -, ht, hv, hc, -⟩ := World.accounts_eq_iff.mp ha
  exact ⟨hs, ht, hv, hc⟩

theorem World.taking_came {w w' : World} {k : Nat} {h : RxHdr} {m : MsgHdr} {typ : Nat} {data : Bytes} (f : World → World)
    (hr : w.receive k h m (flitsIn m) (wireOf m typ data) = (w', true)) : w.taking k h m typ data f = f w' := by
  simp only [World.taking, hr]

/-! Tasks and their stages under a change of the tasks. -/

/-- A change of a task that keeps its ID and program leaves the accounts. -/
theorem World.updTask_accounts (w : World) (id : TaskId) {f : Task → Task} (hf : ∀ t, (f t).id = t.id ∧ (f t).prog = t.prog) :
    (w.updTask id f).accounts = w.accounts := by
  refine World.accounts_eq_iff.mpr ⟨rfl, rfl, rfl, rfl, rfl, ?_⟩
  simp only [World.updTask, List.map_map]
  refine List.map_congr_left fun t _ => ?_
  simp only [Function.comp_apply]
  split
  · rw [(hf t).1, (hf t).2]
  · rfl

@[simp] theorem World.updStage_accounts (w : World) (id : TaskId) (g : Nat) (f : Stage → Stage) : (w.updStage id g f).accounts = w.accounts :=
  w.updTask_accounts id (fun _ => ⟨rfl, rfl⟩)

@[simp] theorem World.relend_accounts (w : World) (id : TaskId) : (w.relend id).accounts = w.accounts :=
  w.updTask_accounts id (fun _ => ⟨rfl, rfl⟩)

/-- No task of an ID is here where no task in the list has it. -/
theorem World.task?_eq_none {w : World} {id : TaskId} : w.task? id = none ↔ id ∉ w.sched.tasks.map (·.id) := by
  simp [World.task?, List.find?_eq_none]

/-- The program of a task follows from the accounts. -/
theorem World.task?_prog_of_accounts {w w' : World} (h : w'.accounts = w.accounts) (id : TaskId) :
    (w'.task? id).map (·.prog) = (w.task? id).map (·.prog) := by
  have key : ∀ v : World, (v.task? id).map (·.prog) = ((v.sched.tasks.map (fun t => (t.id, t.prog))).find? (fun e => e.1 == id)).map (·.2) := by
    intro v
    simp [World.task?, List.find?_map, Function.comp_def]
  rw [key, key, (World.accounts_eq_iff.mp h).2.2.2.2.2]

/-! What the end of a task leaves (R139, R144, R199, R325). -/

theorem World.semMsg_accounts (w : World) (l op sem q slot core rank : Nat) : (w.semMsg l op sem q slot core rank).accounts = w.accounts :=
  (World.inner_eq_iff.mp (w.semMsg_inner l op sem q slot core rank)).2

@[simp] theorem World.orphan_accounts (glob : Bool) (queue : Nat) (w : World) (n : Nat) : (w.orphan glob queue n).accounts = w.accounts := by
  simp [World.accounts, World.orphan]

@[simp] theorem World.forgetChain_accounts (w : World) (c : Chain) : (w.forgetChain c).accounts = w.accounts :=
  (World.foldl_accounts (fun _ _ => by simp) _ _).trans rfl

@[simp] theorem World.farHeld_accounts (w : World) (n : Nat) : (w.farHeld n).accounts = w.accounts := by
  unfold World.farHeld
  split
  · exact (World.foldl_accounts (fun _ _ => World.semMsg_accounts ..) _ _).trans rfl
  · exact World.semMsg_accounts ..

@[simp] theorem World.dropChains_accounts (w : World) (p : Chain → Bool) : (w.dropChains p).accounts = w.accounts := by
  refine World.foldl_accounts (fun w c => ?_) _ _
  dsimp only
  split
  · simp
  · exact (World.updStage_accounts ..).trans (World.forgetChain_accounts ..)

/-! Steps in progress (R20, R199). -/

theorem World.step?_id {w : World} {id : TaskId} {x : Step} (h : w.step? id = some x) : x.task = id := by
  simpa using List.find?_some h

theorem World.step?_mem {w : World} {id : TaskId} {x : Step} (h : w.step? id = some x) : x ∈ w.train.steps := List.mem_of_find?_eq_some h

/-- The end of a task's step takes the task's steps out of those in progress. -/
theorem World.endStep_steps (w : World) (id : TaskId) (status : Nat) :
    (w.endStep id status).train.steps = w.train.steps.filter (fun x => !(x.task == id)) := by
  cases h : w.step? id with
  | none =>
    have hn : ∀ x ∈ w.train.steps, ¬ (x.task == id) = true := List.find?_eq_none.mp h
    simp only [World.endStep, h]
    exact (List.filter_eq_self.mpr fun x hx => by simpa using hn x hx).symm
  | some s =>
    simp only [World.endStep, h, World.undoStep, World.restoreSlots]
    (repeat' split) <;> rfl

@[simp] theorem World.endStep_stepCtr (w : World) (id : TaskId) (status : Nat) : (w.endStep id status).train.stepCtr = w.train.stepCtr := by
  simp only [World.endStep, World.undoStep, World.restoreSlots]
  (repeat' split) <;> rfl

theorem World.endStep_none {w : World} {id : TaskId} (status : Nat) (h : w.step? id = none) : w.endStep id status = w := by
  simp only [World.endStep, h]

/-- The end of a step that has not committed puts the cost histories back as they were before its admission, where nothing has changed
them since (R21). -/
theorem World.endStep_hist {w : World} {id : TaskId} {x : Step} (status : Nat) (hs : w.step? id = some x) (hc : x.committed = false)
    (ht : (w.task? id).isSome = true) (hh : w.train.hist = x.histNow) : (w.endStep id status).train.hist = x.histWas := by
  obtain ⟨t, ht⟩ := Option.isSome_iff_exists.mp ht
  have ht' : (w.restoreSlots x).task? x.task = some t := by rw [World.step?_id hs]; exact ht
  have hh' : (w.restoreSlots x).train.hist = x.histNow := hh
  simp [World.endStep, hs, hc, World.undoStep, ht', Step.histUndo, hh']

/-- A part of the engine that lies outside the scale slots and the training state is as it was when a step ends. -/
theorem World.endStep_keeps {α : Type} (p : World → α) (hp : ∀ (w : World) (n : Num) (c : Train), p { w with num := n, train := c } = p w) (w : World)
    (id : TaskId) (status : Nat) : p (w.endStep id status) = p w := by
  simp only [World.endStep, World.undoStep, World.restoreSlots]
  (repeat' split) <;> first | rfl | exact hp w _ _

@[simp] theorem World.endStep_clock (w : World) (id : TaskId) (status : Nat) : (w.endStep id status).clock = w.clock :=
  World.endStep_keeps _ (fun _ _ _ => rfl) w id status
@[simp] theorem World.endStep_host (w : World) (id : TaskId) (status : Nat) : (w.endStep id status).host = w.host :=
  World.endStep_keeps _ (fun _ _ _ => rfl) w id status
@[simp] theorem World.endStep_job (w : World) (id : TaskId) (status : Nat) : (w.endStep id status).job = w.job :=
  World.endStep_keeps _ (fun _ _ _ => rfl) w id status

/-! A task that leaves the engine (R325, Table 6.3). -/

/-- The engine as it ends the step of a task that it takes out: the task's semaphores are orphaned and its chains gone. -/
def World.orphaned (w : World) (t : Task) : World :=
  let w := (orphans w.link.logical t.id w.sched.sems).foldl (World.orphan false t.id.queue) w
  let w := (orphans w.link.logical t.id w.sched.gsems).foldl (World.orphan true t.id.queue) w
  let w := if w.multi then t.owns.foldl (fun w n => w.semMsg w.sched.semHome 8 n t.id.queue t.slot 0 0) w else w
  let w := w.dropChains (fun c => c.has t.id)
  (w.sched.chains.filter (fun c => c.waiter == t.id)).foldl World.forgetChain w

@[simp] theorem World.orphaned_accounts (w : World) (t : Task) : (w.orphaned t).accounts = w.accounts := by
  simp [World.orphaned, apply_ite World.accounts, World.foldl_accounts (fun _ _ => World.semMsg_accounts ..)]

theorem World.removeTask_eq (w : World) (t : Task) (status : Nat) : w.removeTask t status =
    let v := (w.orphaned t).endStep t.id status
    { v with
      sched := { v.sched with tasks := v.sched.tasks.filter (fun x => !(x.id == t.id)), ctx := v.sched.ctx.filter (fun x => !(x.task == t.id)) }
      job := { v.job with
        colls := v.job.colls.filter (fun c => !(c.task == t.id))
        votes := v.job.votes.filter (fun v => !(v.task == t.id && decide (v.kind < 5))) } } := by
  simp only [World.removeTask, World.orphaned]

theorem World.removeTask_train (w : World) (t : Task) (status : Nat) :
    (w.removeTask t status).train = ((w.orphaned t).endStep t.id status).train := by
  rw [World.removeTask_eq]

@[simp] theorem World.removeTask_clock (w : World) (t : Task) (status : Nat) : (w.removeTask t status).clock = w.clock := by
  simp only [World.removeTask_eq, World.endStep_clock]
  exact (World.accounts_eq_iff.mp (w.orphaned_accounts t)).1

@[simp] theorem World.removeTask_host (w : World) (t : Task) (status : Nat) : (w.removeTask t status).host = w.host := by
  simp only [World.removeTask_eq, World.endStep_host]
  exact (World.accounts_eq_iff.mp (w.orphaned_accounts t)).2.1

theorem World.removeTask_task? (w : World) (t : Task) (status : Nat) : (w.removeTask t status).task? t.id = none := by
  simp [World.removeTask_eq, World.task?, List.find?_eq_none]

theorem World.removeTask_job (w : World) (t : Task) (status : Nat) :
    (w.removeTask t status).job.ckpt = w.job.ckpt ∧
      (w.removeTask t status).job.votes = w.job.votes.filter (fun v => !(v.task == t.id && decide (v.kind < 5))) := by
  obtain ⟨-, -, -, hv, hc, -⟩ := World.accounts_eq_iff.mp (w.orphaned_accounts t)
  simp only [World.removeTask_eq, World.endStep_job, hv, hc, and_self]

/-- The steps in progress follow from the accounts. -/
theorem World.step?_orphaned (w : World) (t : Task) (id : TaskId) : (w.orphaned t).step? id = w.step? id := by
  obtain ⟨-, -, ht, -⟩ := World.accounts_eq_iff.mp (w.orphaned_accounts t)
  simp only [World.step?, ht]

/-! What a completion and the release of the cores leave (R134, R325, R328). -/

/-- What neither a queue nor an answer to a client touches is as it was when a queue's reset ends. -/
theorem World.settleReset_keeps {α : Type} (p : World → α) (hq : ∀ (w : World) (n : Nat) (f : Queue → Queue), p (w.updQueue n f) = p w)
    (hd : ∀ (w : World) (c : Pend), p (w.writeDone c 0) = p w) (w : World) (n : Nat) : p (w.settleReset n) = p w := by
  simp only [World.settleReset]
  split
  · exact (foldl_keeps p hd _ _).trans (hq w _ _)
  · rfl

@[simp] theorem World.settleReset_sched (w : World) (n : Nat) : (w.settleReset n).sched = w.sched :=
  World.settleReset_keeps _ (fun _ _ _ => rfl) (fun _ _ => by simp) w n
@[simp] theorem World.settleReset_train (w : World) (n : Nat) : (w.settleReset n).train = w.train :=
  World.settleReset_keeps _ (fun _ _ _ => rfl) (fun _ _ => by simp) w n
@[simp] theorem World.settleReset_job (w : World) (n : Nat) : (w.settleReset n).job = w.job :=
  World.settleReset_keeps _ (fun _ _ _ => rfl) (fun _ _ => by simp) w n

/-- A part of the engine that lies outside memory and the scheduler is as it was when tasks are put on their cores. -/
theorem World.switchIn_keeps {α : Type} (p : World → α) (hp : ∀ (w : World) (m : Mem) (c : Sched), p { w with mem := m, sched := c } = p w) (w : World) :
    p w.switchIn = p w := by
  unfold World.switchIn
  refine foldl_keeps p (fun w t => ?_) _ _
  dsimp only
  split
  · rfl
  · exact hp w _ _

@[simp] theorem World.switchIn_train (w : World) : w.switchIn.train = w.train := World.switchIn_keeps _ (fun _ _ _ => rfl) w
@[simp] theorem World.switchIn_job (w : World) : w.switchIn.job = w.job := World.switchIn_keeps _ (fun _ _ _ => rfl) w
@[simp] theorem World.switchIn_out (w : World) : w.switchIn.out = w.out := World.switchIn_keeps _ (fun _ _ _ => rfl) w

theorem Task.settle_id (t : Task) : t.settle.id = t.id := by
  unfold Task.settle
  (repeat' split) <;> rfl

/-- A change of a task that keeps its ID leaves the list of the IDs. -/
theorem World.updTask_ids (w : World) (id : TaskId) {f : Task → Task} (hf : ∀ t, (f t).id = t.id) :
    (w.updTask id f).sched.tasks.map (·.id) = w.sched.tasks.map (·.id) := by
  simp only [World.updTask, List.map_map]
  refine List.map_congr_left fun t _ => ?_
  simp only [Function.comp_apply]
  split
  · exact hf t
  · rfl

theorem World.switchIn_ids (w : World) : w.switchIn.sched.tasks.map (·.id) = w.sched.tasks.map (·.id) := by
  unfold World.switchIn
  refine foldl_keeps (fun w : World => w.sched.tasks.map (·.id)) (fun w t => ?_) _ _
  dsimp only
  split
  · rfl
  · exact World.updTask_ids _ _ (fun t => Task.settle_id _)

/-! What is sent stays sent. -/

theorem World.vector_mem_out {w : World} {o : Out} (v : Nat) (h : o ∈ w.out) : o ∈ (w.vector v).out := by
  unfold World.vector
  (repeat' split) <;> simp [h]

theorem World.vector65_mem_out {w : World} {o : Out} (h : o ∈ w.out) : o ∈ w.vector65.out := by
  unfold World.vector65
  split
  · split
    · exact h
    · exact World.vector_mem_out 65 h
  · exact World.vector_mem_out 65 h

theorem World.writeDone_mem_out {w : World} {o : Out} (p : Pend) (status : Nat) (h : o ∈ w.out) : o ∈ (w.writeDone p status).out := by
  unfold World.writeDone
  dsimp only
  split
  · simp only [World.noteWindow]
    split
    · exact h
    · exact World.vector65_mem_out h
  · simp only [World.noteNode, World.queueFrame]
    split <;> exact h

theorem World.settleReset_mem_out {w : World} {o : Out} (n : Nat) (h : o ∈ w.out) : o ∈ (w.settleReset n).out := by
  simp only [World.settleReset]
  split
  · exact List.foldlRecOn (motive := fun w : World => o ∈ w.out) _ _ h (fun w hw p _ => World.writeDone_mem_out p 0 hw)
  · exact h

/-! A task that finishes (R103, R199, R325). -/

theorem World.finish_train (w : World) (t : Task) (status : Nat) : (w.finish t status).train = ((w.orphaned t).endStep t.id status).train := by
  simp [World.finish, apply_ite World.train, World.removeTask_train]

theorem World.finish_loud {w : World} {t : Task} (status : Nat) (h : t.silent = false) :
    w.finish t status = (((w.removeTask t status).complete t status).settleReset t.id.queue).switchIn := by
  simp only [World.finish, h, Bool.false_eq_true, if_false]

theorem World.finish_job (w : World) (t : Task) (status : Nat) :
    (w.finish t status).job.ckpt = w.job.ckpt ∧
      (w.finish t status).job.votes = w.job.votes.filter (fun v => !(v.task == t.id && decide (v.kind < 5))) := by
  simpa [World.finish, apply_ite World.job] using w.removeTask_job t status

theorem World.finish_task? (w : World) (t : Task) (status : Nat) : (w.finish t status).task? t.id = none := by
  rw [World.task?_eq_none, World.finish, World.switchIn_ids, World.settleReset_sched, apply_ite World.sched, World.complete_sched, ite_self]
  exact World.task?_eq_none.mp (w.removeTask_task? t status)

/-- The steps in progress when a task has finished are those of the others. -/
theorem World.finish_steps (w : World) (t : Task) (status : Nat) :
    (w.finish t status).train.steps = w.train.steps.filter (fun x => !(x.task == t.id)) := by
  obtain ⟨-, -, ht, -⟩ := World.accounts_eq_iff.mp (w.orphaned_accounts t)
  rw [World.finish_train, World.endStep_steps, ht]

theorem World.finish_step? (w : World) (t : Task) (status : Nat) : (w.finish t status).step? t.id = none := by
  rw [World.step?, World.finish_steps, List.find?_eq_none]
  simp

@[simp] theorem World.finish_stepCtr (w : World) (t : Task) (status : Nat) : (w.finish t status).train.stepCtr = w.train.stepCtr := by
  obtain ⟨-, -, ht, -⟩ := World.accounts_eq_iff.mp (w.orphaned_accounts t)
  rw [World.finish_train, World.endStep_stepCtr, ht]

/-- A task without a step leaves the training state. -/
theorem World.finish_train_of_none {w : World} {t : Task} (status : Nat) (h : w.step? t.id = none) : (w.finish t status).train = w.train := by
  obtain ⟨-, -, ht, -⟩ := World.accounts_eq_iff.mp (w.orphaned_accounts t)
  rw [World.finish_train, World.endStep_none status ((w.step?_orphaned t t.id).trans h), ht]

/-- A task that finishes with its step uncommitted puts the cost histories back (R21). -/
theorem World.finish_hist {w : World} {t : Task} {x : Step} (status : Nat) (hs : w.step? t.id = some x) (hc : x.committed = false)
    (ht : w.task? t.id = some t) (hh : w.train.hist = x.histNow) : (w.finish t status).train.hist = x.histWas := by
  obtain ⟨-, -, htr, -⟩ := World.accounts_eq_iff.mp (w.orphaned_accounts t)
  have hprog := World.task?_prog_of_accounts (w.orphaned_accounts t) t.id
  have hsome : ((w.orphaned t).task? t.id).isSome = true := by
    rw [← Option.isSome_map (f := (·.prog)), hprog, ht]
    rfl
  rw [World.finish_train]
  exact World.endStep_hist status ((w.step?_orphaned t t.id).trans hs) hc hsome (by rw [htr, hh])

/-- A task that finishes has left with its status, and its completion is written at the slot that its queue's count gave (R103, R325). -/
theorem World.finish_completes (w : World) (t : Task) (status : Nat) : w.Completes t status (w.finish t status) := by
  refine ⟨w.finish_task? t status, fun hs => ?_⟩
  have hq : (w.removeTask t status).queue t.id.queue = w.queue t.id.queue := by simp only [World.queue, World.removeTask_host]
  have hn : (w.removeTask t status).now = w.now := by simp only [World.now, World.removeTask_clock]
  have hw := World.complete_writes (w.removeTask t status) t status
  dsimp only at hw
  rw [hq, hn] at hw
  rw [World.finish_loud status hs, World.switchIn_out]
  exact World.settleReset_mem_out _ hw

/-- A completion depends on the clock and the queues alone. -/
theorem World.Completes.of_same {v w w' : World} {t : Task} {status : Nat} (h : v.Completes t status w') (hc : v.clock = w.clock)
    (hh : v.host = w.host) : w.Completes t status w' := by
  simpa only [World.Completes, World.queue, World.now, hc, hh] using h

theorem World.finishAfter_acked {w : World} {t : Task} {status : Nat} (h : w.unacked t.id = false) : w.finishAfter t status = w.finish t status := by
  simp [World.finishAfter, h]

/-! The commits that a change of the engine makes (R20). -/

/-- Where no two steps are of one task, a step in progress is the one that its task gives. -/
theorem World.step?_of_mem {w : World} {x : Step} (hn : (w.train.steps.map (·.task)).Nodup) (hx : x ∈ w.train.steps) : w.step? x.task = some x := by
  unfold World.step?
  generalize w.train.steps = l at hn hx
  induction l with
  | nil => cases hx
  | cons y ys ih =>
    obtain ⟨hy, hys⟩ := List.nodup_cons.mp hn
    rcases List.mem_cons.mp hx with rfl | hx
    · simp
    · have hne : y.task ≠ x.task := fun h => hy (List.mem_map.mpr ⟨x, hx, h.symm⟩)
      rw [List.find?_cons_of_neg (by simpa using hne)]
      exact ih hys hx

/-- No step is committed over a state in which every committed step was there, no two of one task. -/
theorem World.newCommit_nil {old new : World} (hn : (old.train.steps.map (·.task)).Nodup)
    (h : ∀ x ∈ new.train.steps, x.committed = true → x ∈ old.train.steps) : old.newCommit new = [] := by
  refine List.filterMap_eq_nil_iff.mpr fun x hx => ?_
  cases hc : x.committed
  · simp
  · simp [World.step?_of_mem hn (h x hx hc), hc]

/-- Of a list without two entries of one key, the entry that alone gives a value gives the only one. -/
theorem filterMap_eq_singleton {α β κ : Type} {f : α → Option β} {key : α → κ} {l : List α} {a : α} {b : β} (hn : (l.map key).Nodup) (ha : a ∈ l)
    (hab : f a = some b) (hf : ∀ x ∈ l, key x ≠ key a → f x = none) : l.filterMap f = [b] := by
  induction l with
  | nil => cases ha
  | cons y ys ih =>
    obtain ⟨hy, hys⟩ := List.nodup_cons.mp hn
    rcases List.mem_cons.mp ha with rfl | ha
    · have hrest : ys.filterMap f = [] := List.filterMap_eq_nil_iff.mpr fun x hx =>
        hf x (List.mem_cons_of_mem _ hx) fun h => hy (h ▸ List.mem_map_of_mem hx)
      rw [List.filterMap_cons_some hab, hrest]
    · have hne : key y ≠ key a := fun h => hy (h ▸ List.mem_map_of_mem ha)
      rw [List.filterMap_cons_none (hf y List.mem_cons_self hne)]
      exact ih hys ha fun x hx => hf x (List.mem_cons_of_mem _ hx)

/-- Where one step of a task is committed, and no other changes, that is the new commit, with its tenant and the codes of its task. -/
theorem World.newCommit_one {old new : World} {id : TaskId} {x : Step} {t : Task} {f : Step → Step}
    (hn : (old.train.steps.map (·.task)).Nodup) (hx : old.step? id = some x) (hc : x.committed = false) (ht : old.task? id = some t)
    (hnew : new.train.steps = old.train.steps.map f) (htask : ∀ y, (f y).task = y.task) (htenant : ∀ y, (f y).tenant = y.tenant)
    (hf : ∀ y, (f y).committed = (y.task == id || y.committed)) : old.newCommit new = [(x.tenant, t.sigma, t.q)] := by
  have hid : x.task = id := World.step?_id hx
  unfold World.newCommit
  rw [hnew, List.filterMap_map]
  refine filterMap_eq_singleton hn (World.step?_mem hx) ?_ fun y hy hne => ?_
  · simp [hf, htask, htenant, hid, hx, hc, ht]
  · have hyid : (y.task == id) = false := by simpa [hid] using hne
    cases hcy : y.committed <;> simp [hf, htask, hyid, hcy, World.step?_of_mem hn hy]

theorem Vault.commit_get (v : Vault) (tenant sigma q id : Nat) : (v.commit tenant sigma q).tenants.get {} id =
    if id = tenant then
      let x := v.tenants.get {} tenant
      { x with
        live := 1 - x.live, spent := x.spent + spendOf sigma q, since := x.since + spendOf sigma q
        steps := sat32 x.steps 1, codes := 128 + 16 * (q % 8) + sigma % 16 }
    else v.tenants.get {} id :=
  Tab.get_set _ _ _ _ id

/-! A change of the engine that may complete a vote (R20, Table 15.12). -/

theorem Vault.ckpt_same (v : Vault) (c : Option Ckpt) : v.ckpt c c = v := if_pos rfl

/-- A change that leaves nothing to combine and no other checkpoint charges the tenant table with its commits. -/
theorem State.onJob_eq {s : State} {f : World → World} {w : World} (hf : f s.w = w) (hv : w.settleVotes = w) (hc : w.job.ckpt = s.w.job.ckpt) :
    s.onJob f = { s with w := w, vault := (s.w.newCommit w).foldl (fun v c => v.commit c.1 c.2.1 c.2.2) s.vault } := by
  simp only [State.onJob, State.committing, hf, hv, hc, Vault.ckpt_same]

/-- A change that commits nothing besides leaves the tenant table. -/
theorem State.onJob_still {s : State} {f : World → World} {w : World} (hf : f s.w = w) (hv : w.settleVotes = w) (hc : w.job.ckpt = s.w.job.ckpt)
    (hn : (s.w.train.steps.map (·.task)).Nodup) (hs : ∀ x ∈ w.train.steps, x.committed = true → x ∈ s.w.train.steps) :
    s.onJob f = { s with w := w } := by
  rw [State.onJob_eq hf hv hc, World.newCommit_nil hn hs]
  rfl

/-! Votes (R25, R26, R217). -/

theorem World.settleVotes_nil {w : World} (h : w.job.votes = []) : w.settleVotes = w := by simp [World.settleVotes, h]

theorem Vote.not_ready_of_own {v : Vote} (h : v.own = none) (n me : Nat) : v.ready n me = false := by simp [Vote.ready, h]

/-- A vote in which this engine's own is missing waits. -/
theorem World.settleVotes_waiting {w : World} {v : Vote} (h : w.job.votes = [v]) (ho : v.own = none) : w.settleVotes = w := by
  have hv : w.vote? v.kind v.value = some v := by simp [World.vote?, h]
  simp [World.settleVotes, h, World.settleVote, World.tally, hv, Vote.not_ready_of_own ho]

/-- The first vote of a child is a vote of its own kind and value, in which this engine's is missing. -/
theorem World.hearVote_votes {w : World} (h : w.job.votes = []) (kind value src status : Nat) :
    (w.hearVote kind value 0 src status).job.votes = [{ kind := kind, value := value, got := [(src, status)] }] := by
  by_cases hk : kind = 0 <;> simp [World.hearVote, World.updVote, World.vote?, h, hk]

@[simp] theorem World.hearVote_train (w : World) (kind value id src status : Nat) : (w.hearVote kind value id src status).train = w.train := by
  unfold World.hearVote
  split <;> rfl
@[simp] theorem World.hearVote_ckpt (w : World) (kind value id src status : Nat) : (w.hearVote kind value id src status).job.ckpt = w.job.ckpt := by
  unfold World.hearVote
  split <;> rfl

/-- The engine that has passed an answer on to its children, and has forgotten the vote. -/
def World.answering (w : World) (kind status value : Nat) : World := (w.voteDown kind status value).dropVote kind value

/-- The answer to this engine's own vote on an admission, a commit or a barrier acts here. -/
theorem World.voteCame_own {w : World} {v : Vote} (h : w.job.votes = [v]) (hk : v.kind ∈ [0, 1, 3]) (status : Nat) :
    w.voteCame v.kind status v.value = (w.answering v.kind status v.value).actVote v status := by
  have hv : w.vote? v.kind v.value = some v := by simp [World.vote?, h]
  have hk' : v.kind = 0 ∨ v.kind = 1 ∨ v.kind = 3 := by simpa using hk
  unfold World.voteCame
  rw [hv]
  rcases hk' with h0 | h1 | h3
  · rw [h0]; rfl
  · rw [h1]; rfl
  · rw [h3]; rfl

theorem World.voteDown_same (w : World) (kind status value : Nat) :
    (w.voteDown kind status value).sched = w.sched ∧ (w.voteDown kind status value).accounts = w.accounts :=
  World.inner_eq_iff.mp (w.voteDown_inner kind status value)

/-- An answer that is passed on leaves all that it may act on, and no vote where there was no other. -/
theorem World.answering_same {w : World} {v : Vote} (h : w.job.votes = [v]) (status : Nat) :
    let w' := w.answering v.kind status v.value
    w'.sched = w.sched ∧ w'.clock = w.clock ∧ w'.host = w.host ∧ w'.train = w.train ∧ w'.job.votes = [] ∧ w'.job.ckpt = w.job.ckpt := by
  obtain ⟨hs, ha⟩ := w.voteDown_same v.kind status v.value
  obtain ⟨hc, hh, ht, hv, hk, -⟩ := World.accounts_eq_iff.mp ha
  refine ⟨hs, hc, hh, ht, ?_, hk⟩
  simp [World.answering, World.dropVote, hv, h]

/-! The answer to an operation over the tree (R26, R218). -/

theorem World.task?_of_sched {w w' : World} (h : w'.sched = w.sched) (id : TaskId) : w'.task? id = w.task? id := by simp only [World.task?, h]
theorem World.step?_of_train {w w' : World} (h : w'.train = w.train) (id : TaskId) : w'.step? id = w.step? id := by simp only [World.step?, h]
theorem World.phase?_of_sched {w w' : World} (h : w'.sched = w.sched) (id : TaskId) (g : Nat) : w'.phase? id g = w.phase? id g := by
  simp only [World.phase?, World.task?_of_sched h]

theorem World.phase?_eq_some {w : World} {id : TaskId} {g : Nat} {p : Phase} :
    w.phase? id g = some p ↔ ∃ t st, w.task? id = some t ∧ t.stgs[g]? = some st ∧ st.phase = p := by
  simp only [World.phase?, Option.map_eq_some_iff, Option.bind_eq_some_iff]
  constructor
  · rintro ⟨st, ⟨t, ht, hs⟩, hp⟩
    exact ⟨t, st, ht, hs, hp⟩
  · rintro ⟨t, st, ht, hs, hp⟩
    exact ⟨st, ⟨t, ht, hs⟩, hp⟩

theorem World.phase?_updStage {w : World} {id : TaskId} {g : Nat} {t : Task} {st : Stage} (f : Stage → Stage) (ht : w.task? id = some t)
    (hs : t.stgs[g]? = some st) : (w.updStage id g f).phase? id g = some (f st).phase := by
  rw [World.phase?, World.stage_updStage w id g f ht hs]
  rfl

/-- An operation that is recorded as run stands so in its stage, with the status of its result. -/
theorem World.executed_phase? {w : World} {id : TaskId} {g : Nat} {p : Phase} (r : OpRes) (h : w.phase? id g = some p) :
    ∃ res, (w.executed id g r).phase? id g = some (.executed res) ∧ res.status = r.status := by
  obtain ⟨t, st, ht, hs, -⟩ := World.phase?_eq_some.mp h
  exact ⟨_, World.phase?_updStage (w := { w with sec := { w.sec with used := w.sec.used + 1 } }) _ ht hs, rfl⟩

/-- A stage that waits for the answer over the tree has run without error once it has come. -/
theorem World.answered_collective {w : World} {id : TaskId} {g : Nat} (h : w.phase? id g = some .collective) :
    ∃ r : OpRes, w.answered id g = w.executed id g r ∧ r.status = 0 := by
  obtain ⟨t, st, ht, hs, hp⟩ := World.phase?_eq_some.mp h
  exact ⟨(w.runOf t g st).ok, by simp [World.answered, ht, hs, hp], rfl⟩

/-! The act of a commit (R20, R198). -/

@[simp] theorem World.commit_stepCtr (w : World) (t : Task) (x : Step) : (w.commit t x).train.stepCtr = w.train.stepCtr + 1 := rfl

theorem World.commit_steps (w : World) (t : Task) (x : Step) : (w.commit t x).train.steps =
    w.train.steps.map (fun y => if y.task == t.id then { y with committed := true, abandon := none } else y) := rfl

/-- A change of a step is seen under its task. -/
theorem World.step?_of_map {w w' : World} {f : Step → Step} (h : w'.train.steps = w.train.steps.map f) (hf : ∀ x, (f x).task = x.task)
    (id : TaskId) : w'.step? id = (w.step? id).map f := by
  have hp : ((fun y : Step => y.task == id) ∘ f) = fun y => y.task == id := funext fun x => congrArg (· == id) (hf x)
  rw [World.step?, h, List.find?_map, hp]
  rfl

theorem World.commit_step? {w : World} {t : Task} {y : Step} (x : Step) (h : w.step? t.id = some y) :
    (w.commit t x).step? t.id = some { y with committed := true, abandon := none } := by
  rw [World.step?_of_map (w.commit_steps t x) (fun y => by split <;> rfl), h]
  simp [World.step?_id h]

/-- A commit opens the tenant's generations to its tasks, and changes no task besides (R17). -/
theorem World.commit_task? (w : World) (t : Task) (x : Step) (id : TaskId) :
    (w.commit t x).task? id = (w.task? id).map (fun u => if u.tenant = t.tenant then { u with shut := [] } else u) := by
  have hp : ((fun u : Task => u.id == id) ∘ fun u => if u.tenant = t.tenant then { u with shut := [] } else u) = fun u => u.id == id := by
    funext u
    rw [Function.comp_apply]
    split <;> rfl
  rw [World.task?, World.commit, World.updStep_sched, List.find?_map, hp]
  rfl

/-- A commit leaves the stages of every task. -/
theorem World.commit_phase? (w : World) (t : Task) (x : Step) (id : TaskId) (g : Nat) : (w.commit t x).phase? id g = w.phase? id g := by
  rw [World.phase?, World.commit_task?, World.phase?]
  cases w.task? id with
  | none => rfl
  | some u =>
    simp only [Option.map_some, Option.bind_some]
    split <;> rfl

/-- A commit over a state whose steps differ from before in nothing that a commit counts is the one new commit. -/
theorem World.newCommit_commit {old w new : World} {x y : Step} {t : Task} {m : Step → Step} (hn : (old.train.steps.map (·.task)).Nodup)
    (hx : old.step? t.id = some x) (hc : x.committed = false) (ht : old.task? t.id = some t) (hw : w.train.steps = old.train.steps.map m)
    (hm : ∀ z, (m z).task = z.task ∧ (m z).tenant = z.tenant ∧ (m z).committed = z.committed)
    (hnew : new.train.steps = (w.commit t y).train.steps) : old.newCommit new = [(x.tenant, t.sigma, t.q)] := by
  rw [World.commit_steps, hw, List.map_map] at hnew
  refine World.newCommit_one hn hx hc ht hnew (fun z => ?_) (fun z => ?_) (fun z => ?_) <;>
    obtain ⟨h1, h2, h3⟩ := hm z <;> by_cases hz : z.task = t.id <;> simp [h1, h2, h3, hz]

/-! Commands whose change may complete a vote, and what they give. -/

theorem gives_onJob {c : Instr} {s : State} {f : World → World} {w : World} (he : exec c s = .next (s.onJob f)) (hf : f s.w = w)
    (hv : w.settleVotes = w) (hc : w.job.ckpt = s.w.job.ckpt) (hn : (s.w.train.steps.map (·.task)).Nodup)
    (hs : ∀ x ∈ w.train.steps, x.committed = true → x ∈ s.w.train.steps) : Gives c s w := by
  rw [Gives, he, State.onJob_still hf hv hc hn hs]

/-- A vote message that is for this engine acts on the engine that its receipt leaves. -/
theorem exec_voteMsg_came {s : State} {k : Nat} {h : RxHdr} {m : MsgHdr} {kind : Nat} {down : Bool} {status value : Nat} {w : World}
    (hr : s.w.receive k h m (flitsIn m) (wireOf m mVote (voteBytes kind down status value)) = (w, true)) :
    ∃ f : World → World, exec (.voteMsg k h m kind down status value) s = .next (s.onJob f) ∧
      f s.w = if down then w.voteCame kind status value else w.voteUp m kind status value :=
  ⟨_, rfl, World.taking_came _ hr⟩

/-! Admission (R16 to R19, R25, R201). -/

theorem World.updTask_task? {w : World} {id : TaskId} {t : Task} {f : Task → Task} (h : w.task? id = some t) (hf : ∀ t, (f t).id = t.id) :
    (w.updTask id f).task? id = some (f t) := by
  rw [World.task?_updTask w id f hf, h]
  rfl

/-- A step that is accepted is not committed, and nothing else is in progress that was not. -/
theorem World.acceptStep_committed {w : World} {t : Task} {x : Step} (hx : x ∈ (w.acceptStep t).train.steps) (hc : x.committed = true) :
    x ∈ w.train.steps := by
  rcases List.mem_append.mp hx with hx | hx
  · exact hx
  · rw [List.mem_singleton.mp hx] at hc
    cases hc

@[simp] theorem World.acceptStep_job (w : World) (t : Task) : (w.acceptStep t).job = w.job := rfl

theorem World.acceptStep_task? {w : World} {t u : Task} (h : w.task? t.id = some u) :
    (w.acceptStep t).task? t.id = some { u with st := .ready } :=
  World.updTask_task? (w := { w with train := _ }) h (fun _ => rfl)

/-- A refusal is the end of the task, counted where it is for energy (R18). -/
theorem World.refuseStep_eq (w : World) (t : Task) (status : Nat) : w.refuseStep t status =
    ({ w with train := { w.train with deferred := if status = 0x0101 then sat32 w.train.deferred 1 else w.train.deferred } } : World).finish t status := by
  unfold World.refuseStep
  dsimp only
  split <;> rfl

/-- A refused step has left with its status. -/
theorem World.refuseStep_completes (w : World) (t : Task) (status : Nat) : w.Completes t status (w.refuseStep t status) := by
  rw [World.refuseStep_eq]
  exact (World.finish_completes _ t status).of_same rfl rfl

theorem World.refuseStep_job (w : World) (t : Task) (status : Nat) : (w.refuseStep t status).job.ckpt = w.job.ckpt ∧
    (w.refuseStep t status).job.votes = w.job.votes.filter (fun v => !(v.task == t.id && decide (v.kind < 5))) := by
  rw [World.refuseStep_eq]
  exact World.finish_job _ t status

theorem World.refuseStep_steps (w : World) (t : Task) (status : Nat) :
    (w.refuseStep t status).train.steps = w.train.steps.filter (fun x => !(x.task == t.id)) := by
  rw [World.refuseStep_eq]
  exact World.finish_steps _ t status

/-- The refusal of a task without a step changes only the count of those deferred for energy. -/
theorem World.refuseStep_train {w : World} {t : Task} (status : Nat) (h : w.step? t.id = none) : (w.refuseStep t status).train =
    { w.train with deferred := if status = 0x0101 then sat32 w.train.deferred 1 else w.train.deferred } := by
  rw [World.refuseStep_eq]
  exact World.finish_train_of_none status h

/-! Votes that come (R25, R26, R217, R218). -/

/-- A vote that comes up is heard, and waits where this engine's is missing. -/
theorem voteMsg_up {s : State} {k : Nat} {h : RxHdr} {m : MsgHdr} {kind status value : Nat} {w : World}
    (hn : (s.w.train.steps.map (·.task)).Nodup) (hv : s.w.job.votes = []) (hk : kind ∈ [0, 1, 4])
    (hr : s.w.receive k h m (flitsIn m) (wireOf m mVote (voteBytes kind false status value)) = (w, true)) :
    Gives (.voteMsg k h m kind false status value) s (w.hearVote kind value 0 m.srcLog status) := by
  obtain ⟨-, htr, hvotes, hck⟩ := World.receive_same hr
  obtain ⟨f, he, hf⟩ := exec_voteMsg_came hr
  have hup : w.voteUp m kind status value = w.hearVote kind value 0 m.srcLog status := by
    have hk' : kind = 0 ∨ kind = 1 ∨ kind = 4 := by simpa using hk
    rcases hk' with rfl | rfl | rfl <;> rfl
  have hheard := World.hearVote_votes (hvotes.trans hv) kind value m.srcLog status
  exact gives_onJob he (hf.trans hup) (World.settleVotes_waiting hheard rfl) (by rw [World.hearVote_ckpt, hck]) hn
    (fun x hx _ => by simpa [htr] using hx)

/-- The engine `u` on which the answer to a vote acts, which was received on `w` in the state `s`: only messages and the vote itself are
gone from it. -/
structure World.Answers (s : State) (w u : World) : Prop where
  sched : u.sched = s.w.sched
  train : u.train = s.w.train
  votes : u.job.votes = []
  ckpt : u.job.ckpt = s.w.job.ckpt
  clock : u.clock = w.clock
  host : u.host = w.host
  received : w.train = s.w.train

/-- An answer to the one open vote, of an admission, a commit or a barrier, acts here. -/
theorem voteMsg_down {s : State} {k : Nat} {h : RxHdr} {m : MsgHdr} {kind status value : Nat} {w : World} {v : Vote}
    (hv : s.w.job.votes = [v]) (hkind : v.kind = kind) (hvalue : v.value = value) (hk : kind ∈ [0, 1, 3])
    (hr : s.w.receive k h m (flitsIn m) (wireOf m mVote (voteBytes kind true status value)) = (w, true)) :
    ∃ (f : World → World) (u : World), exec (.voteMsg k h m kind true status value) s = .next (s.onJob f) ∧ f s.w = u.actVote v status ∧
      World.Answers s w u := by
  subst hkind hvalue
  obtain ⟨hs, ht, hvotes, hc⟩ := World.receive_same hr
  obtain ⟨f, he, hf⟩ := exec_voteMsg_came hr
  rw [hv] at hvotes
  obtain ⟨hs', hclock, hhost, ht', hv', hc'⟩ := World.answering_same hvotes status
  exact ⟨f, _, he, hf.trans (World.voteCame_own hvotes hk status), hs'.trans hs, ht'.trans ht, hv', hc'.trans hc, hclock, hhost, ht⟩

theorem World.actVote_admission {u : World} {v : Vote} {t : Task} (hk : v.kind = 0) (ht : u.task? v.task = some t) (hp : t.st = .posted)
    (status : Nat) : u.actVote v status = if status = 0 then u.acceptStep t else u.refuseStep t status := by
  simp [World.actVote, hk, ht, hp]

theorem World.actVote_barrier {u : World} {v : Vote} {t : Task} (hk : v.kind = 3) (ht : u.task? v.task = some t) (status : Nat) :
    u.actVote v status = u.answered v.task v.stage := by
  simp [World.actVote, hk, ht]

theorem World.actVote_commit {u : World} {v : Vote} {t : Task} {x : Step} (hk : v.kind = 1) (ht : u.task? v.task = some t)
    (hx : u.step? v.task = some x) (status : Nat) : u.actVote v status = (u.commit t x).answered v.task v.stage := by
  simp [World.actVote, hk, ht, hx]

section

variable {s : State} {k : Nat} {h : RxHdr} {m : MsgHdr} {status value : Nat} {w : World} {v : Vote} {t : Task}

/-- An agreed admission makes the task ready (R25). -/
theorem voteMsg_admitted (hn : (s.w.train.steps.map (·.task)).Nodup) (hv : s.w.job.votes = [v]) (hval : v.value = value)
    (ht : s.w.task? v.task = some t) (hk : v.kind = 0) (hp : t.st = .posted)
    (hr : s.w.receive k h m (flitsIn m) (wireOf m mVote (voteBytes 0 true 0 value)) = (w, true)) :
    ∃ w', Gives (.voteMsg k h m 0 true 0 value) s w' ∧ w'.task? v.task = some { t with st := .ready } := by
  obtain ⟨f, u, he, hf, hu⟩ := voteMsg_down hv hk hval (by decide) hr
  have hid := World.task?_id ht
  have ht' : u.task? v.task = some t := (World.task?_of_sched hu.sched _).trans ht
  rw [World.actVote_admission hk ht' hp, if_pos rfl] at hf
  refine ⟨_, gives_onJob he hf (World.settleVotes_nil hu.votes) hu.ckpt hn fun x hx hc => ?_, ?_⟩
  · exact hu.train ▸ World.acceptStep_committed hx hc
  · rw [← hid] at ht' ⊢
    exact World.acceptStep_task? ht'

/-- A refused admission ends the task with the refusal (R25). -/
theorem voteMsg_refused (hn : (s.w.train.steps.map (·.task)).Nodup) (hv : s.w.job.votes = [v]) (hval : v.value = value)
    (ht : s.w.task? v.task = some t) (hk : v.kind = 0) (hp : t.st = .posted) (hstatus : status ≠ 0)
    (hr : s.w.receive k h m (flitsIn m) (wireOf m mVote (voteBytes 0 true status value)) = (w, true)) :
    ∃ w', Gives (.voteMsg k h m 0 true status value) s w' ∧ w.Completes t status w' := by
  obtain ⟨f, u, he, hf, hu⟩ := voteMsg_down hv hk hval (by decide) hr
  have ht' : u.task? v.task = some t := (World.task?_of_sched hu.sched _).trans ht
  rw [World.actVote_admission hk ht' hp, if_neg hstatus] at hf
  obtain ⟨hck, hvotes⟩ := u.refuseStep_job t status
  refine ⟨_, gives_onJob he hf (World.settleVotes_nil ?_) (hck.trans hu.ckpt) hn fun x hx _ => ?_, ?_⟩
  · rw [hvotes, hu.votes]
    rfl
  · rw [World.refuseStep_steps, hu.train] at hx
    exact (List.mem_filter.mp hx).1
  · exact (u.refuseStep_completes t status).of_same hu.clock hu.host

/-- The answer to a barrier lets its operation go on (R218). -/
theorem voteMsg_barrier (hn : (s.w.train.steps.map (·.task)).Nodup) (hv : s.w.job.votes = [v]) (hval : v.value = value)
    (ht : s.w.task? v.task = some t) (hk : v.kind = 3) (hph : s.w.phase? v.task v.stage = some .collective)
    (hr : s.w.receive k h m (flitsIn m) (wireOf m mVote (voteBytes 3 true 0 value)) = (w, true)) :
    ∃ w' res, Gives (.voteMsg k h m 3 true 0 value) s w' ∧ w'.phase? v.task v.stage = some (.executed res) ∧ res.status = 0 ∧
      w'.job.votes = [] := by
  obtain ⟨f, u, he, hf, hu⟩ := voteMsg_down hv hk hval (by decide) hr
  have hph' : u.phase? v.task v.stage = some .collective := (World.phase?_of_sched hu.sched _ _).trans hph
  obtain ⟨r, hans, hr0⟩ := World.answered_collective hph'
  obtain ⟨res, hex, hres⟩ := World.executed_phase? r hph'
  rw [World.actVote_barrier hk ((World.task?_of_sched hu.sched _).trans ht), hans] at hf
  refine ⟨_, res, gives_onJob he hf (World.settleVotes_nil hu.votes) hu.ckpt hn fun x hx _ => ?_, hex, hres.trans hr0, hu.votes⟩
  rwa [World.executed_train, hu.train] at hx

/-- The answer to the commits of a step performs the act here (R26). -/
theorem voteMsg_commit {x : Step} (hn : (s.w.train.steps.map (·.task)).Nodup) (hv : s.w.job.votes = [v]) (hval : v.value = value)
    (ht : s.w.task? v.task = some t) (hk : v.kind = 1) (hx : s.w.step? v.task = some x) (hc : x.committed = false)
    (hph : s.w.phase? v.task v.stage = some .collective)
    (hr : s.w.receive k h m (flitsIn m) (wireOf m mVote (voteBytes 1 true 0 value)) = (w, true)) :
    ∃ w' res, exec (.voteMsg k h m 1 true 0 value) s = .next { s with w := w', vault := s.vault.commit x.tenant t.sigma t.q } ∧
      w'.phase? v.task v.stage = some (.executed res) ∧ res.status = 0 ∧ w'.train.stepCtr = w.train.stepCtr + 1 := by
  obtain ⟨f, u, he, hf, hu⟩ := voteMsg_down hv hk hval (by decide) hr
  have ht' : u.task? v.task = some t := (World.task?_of_sched hu.sched _).trans ht
  have hx' : u.step? v.task = some x := (World.step?_of_train hu.train _).trans hx
  have hph' : (u.commit t x).phase? v.task v.stage = some .collective := by
    rw [World.commit_phase?, World.phase?_of_sched hu.sched, hph]
  obtain ⟨r, hans, hr0⟩ := World.answered_collective hph'
  obtain ⟨res, hex, hres⟩ := World.executed_phase? r hph'
  rw [World.actVote_commit hk ht' hx', hans] at hf
  have hid := World.task?_id ht
  have hnew : s.w.newCommit ((u.commit t x).executed v.task v.stage r) = [(x.tenant, t.sigma, t.q)] :=
    World.newCommit_commit (w := u) (m := id) hn (hid ▸ hx) hc (hid ▸ ht) (by rw [hu.train, List.map_id]) (fun _ => ⟨rfl, rfl, rfl⟩) rfl
  refine ⟨(u.commit t x).executed v.task v.stage r, res, ?_, hex, hres.trans hr0, ?_⟩
  · rw [he, State.onJob_eq hf (World.settleVotes_nil hu.votes) hu.ckpt, hnew]
    rfl
  · rw [World.executed_train, World.commit_stepCtr, hu.train, hu.received]

end

/-- Settles O41: a vote from below waits for this engine's own; an answer from above acts on the engine that its receipt leaves, by the
kind of the vote. -/
theorem voteMessages : Obligations.VoteMessages := by
  refine fun s k h m kind status value w hn => ⟨fun hv hr hk => ?_, fun v t hv hval _ ht => ⟨fun hk hr hp => ?_, fun hk hr hs hp => ?_,
    fun hk hr hph => ?_, fun x hk hr hx hc hph => ?_⟩⟩
  · have hw : w.job.votes = [] := (World.receive_same hr).2.2.1.trans hv
    exact ⟨_, voteMsg_up hn hv hk hr, World.hearVote_votes hw kind value m.srcLog status⟩
  · exact voteMsg_admitted hn hv hval ht hk hp hr
  · exact voteMsg_refused hn hv hval ht hk hp hs hr
  · exact voteMsg_barrier hn hv hval ht hk hph hr
  · obtain ⟨w', res, he, hex, hres, hctr⟩ := voteMsg_commit hn hv hval ht hk hx hc hph hr
    refine ⟨_, res, he, hex, hres, hctr, ?_⟩
    simp [Vault.commit_get]

/-! The commands of a training step (R16 to R21, R28, R29, R177, R200, R201). -/

/-- The areas that a step of a tenant may write (R17): the shadow generation, the saved activations and the scratch. -/
theorem Vault.confine_step (v : Vault) {t : Task} (hk : t.kind = 1) : v.confine t =
    let ten := v.tenants.get {} (t.tenant.getD 0)
    { t with own := if t.tenant = none then t.own else
        [(ten.genBase ten.shadow, alignUp ten.genLen 4096), (ten.act, ten.actLen), (ten.scr, ten.scrLen)] } := by
  unfold Vault.confine
  split
  · rename_i h
    simp only [if_pos h]
  · rename_i n h
    simp [h, hk]

theorem Vault.confine_id (v : Vault) (t : Task) : (v.confine t).id = t.id := by
  unfold Vault.confine
  (repeat' split) <;> rfl

/-- The engine with a step task that has passed or failed its own admission checks: its estimate is recorded, and its areas are set. -/
def World.checked (v : Vault) (w : World) (t : Task) : World :=
  let w := if w.admissionStatus v t = 0x020A then w else { w with train := { w.train with lastEst := w.estimate t.prog } }
  w.updTask t.id v.confine

/-- A part of the engine that lies outside the scheduler and the training state is as it was before the checks. -/
theorem World.checked_keeps {α : Type} (p : World → α) (hp : ∀ (w : World) (c : Sched) (r : Train), p { w with sched := c, train := r } = p w) (v : Vault)
    (w : World) (t : Task) : p (w.checked v t) = p w := by
  unfold World.checked
  dsimp only
  split <;> exact hp w _ _

@[simp] theorem World.checked_job (v : Vault) (w : World) (t : Task) : (w.checked v t).job = w.job :=
  World.checked_keeps _ (fun _ _ _ => rfl) v w t
@[simp] theorem World.checked_clock (v : Vault) (w : World) (t : Task) : (w.checked v t).clock = w.clock :=
  World.checked_keeps _ (fun _ _ _ => rfl) v w t
@[simp] theorem World.checked_host (v : Vault) (w : World) (t : Task) : (w.checked v t).host = w.host :=
  World.checked_keeps _ (fun _ _ _ => rfl) v w t
@[simp] theorem World.checked_meter (v : Vault) (w : World) (t : Task) : (w.checked v t).meter = w.meter :=
  World.checked_keeps _ (fun _ _ _ => rfl) v w t
@[simp] theorem World.checked_link (v : Vault) (w : World) (t : Task) : (w.checked v t).link = w.link :=
  World.checked_keeps _ (fun _ _ _ => rfl) v w t

theorem World.checked_train (v : Vault) (w : World) (t : Task) : (w.checked v t).train =
    { w.train with lastEst := if w.admissionStatus v t = 0x020A then w.train.lastEst else w.estimate t.prog } := by
  unfold World.checked
  dsimp only
  split <;> rfl

theorem World.checked_task? {v : Vault} {w : World} {t : Task} (ht : w.task? t.id = some t) : (w.checked v t).task? t.id = some (v.confine t) := by
  unfold World.checked
  refine World.updTask_task? ?_ v.confine_id
  split <;> exact ht

/-- Admission on one engine of a step task whose tenant has no other step (R16, R18). -/
theorem World.admission_alone {v : Vault} {w : World} {t : Task} (ht : w.task? t.id = some t) (hk : t.kind = 1) (hp : t.st = .posted)
    (hstop : t.stop = none) (hv : w.job.votes = []) (hten : w.train.steps.any (fun x => x.tenant == t.tenant.getD 0) = false)
    (hrun : w.coresRun = true) (hleave : w.leaving = false) (hm : w.multi = false) : w.admission v t.id =
      if w.admissionStatus v t = 0 then (w.checked v t).acceptStep t else (w.checked v t).refuseStep t (w.admissionStatus v t) := by
  have hm' : (w.checked v t).multi = false := by rw [World.multi, World.checked_link]; exact hm
  have hcast : w.admissionCast t.id = false := by simp [World.admissionCast, hv]
  unfold World.checked at hm' ⊢
  simp only [World.admission, ht, hk, hp, hstop, hcast, hten, hv, hrun, hleave, hm', ne_eq, not_true_eq_false, decide_false, bne_self_eq_false,
    Option.isSome_none, Bool.or_self, Bool.false_eq_true, if_false, List.any_nil, Bool.not_true]

/-- A step that passes its checks is admitted: its program takes its place in the cost histories, and its metering starts (R19, R201). -/
theorem World.admitted_train (v : Vault) {w : World} {t : Task} (h : w.admissionStatus v t = 0) : ((w.checked v t).acceptStep t).train =
    let hist := ((t.prog, ((w.train.hist.find? (fun e => e.1 == t.prog)).map (·.2)).getD []) ::
      w.train.hist.filter (fun e => decide (e.1 ≠ t.prog))).take 16
    { w.train with
      lastEst := w.estimate t.prog
      hist := hist
      steps := w.train.steps ++ [{ task := t.id, tenant := t.tenant.getD 0, energy0 := w.meter.energy, histWas := w.train.hist, histNow := hist }] } := by
  have ht : (w.checked v t).train = { w.train with lastEst := w.estimate t.prog } := by
    rw [World.checked_train, if_neg (by rw [h]; decide)]
  simp only [World.acceptStep, World.updTask_train, World.checked_meter, ht]

theorem World.step?_eq_none {w : World} {id : TaskId} : w.step? id = none ↔ w.train.steps.any (fun x => x.task == id) = false := by
  rw [World.step?, List.find?_eq_none, List.any_eq_false]

/-- The operation held at the mark goes on when every other stage has ended (R177). -/
theorem World.markRelease_free {w : World} {t : Task} (ht : w.task? t.id = some t) (hph : w.phase? t.id (t.stages - 1) = some .markHeld)
    (ho : t.othersOver (t.stages - 1) = true) (hd : w.dueAbandon t = none) : w.markRelease t.id =
      (w.updStage t.id (t.stages - 1) (fun x => { x with phase := .ready })).updStep t.id (fun x => { x with marked := true }) := by
  obtain ⟨u, st, hu, hst, hp⟩ := World.phase?_eq_some.mp hph
  obtain rfl : t = u := Option.some.inj (ht.symm.trans hu)
  simp [World.markRelease, ht, hst, hp, ho, hd]

/-- The task held at the mark ends there with the status of an abandon that has met no boundary (R29, R200). -/
theorem World.markRelease_due {w : World} {t : Task} {status : Nat} (ht : w.task? t.id = some t)
    (hph : w.phase? t.id (t.stages - 1) = some .markHeld) (ho : t.othersOver (t.stages - 1) = true) (hd : w.dueAbandon t = some status) :
    w.markRelease t.id = w.finishAfter t status := by
  obtain ⟨u, st, hu, hst, hp⟩ := World.phase?_eq_some.mp hph
  obtain rfl : t = u := Option.some.inj (ht.symm.trans hu)
  simp [World.markRelease, ht, hst, hp, ho, hd]

/-- A step that is agreed to be abandoned ends at its boundaries (R28, R200). -/
theorem World.stepAbandon_agreed {w : World} {t : Task} {x : Step} {status : Nat} (ht : w.task? t.id = some t) (hx : w.step? t.id = some x)
    (ha : x.abandon = some status) (hg : x.agreed = true) (hc : x.committed = false)
    (hb : (t.cores.isEmpty || t.stgs.all (fun y => y.boundary || y.phase.past || y.phase == .markHeld)) = true) :
    w.stepAbandon t.id = w.finishAfter t status := by
  simp only [World.stepAbandon, ht, hx, ha, hg, hc, hb, Bool.not_false, Bool.and_self, if_true]

section

variable {s : State} {t : Task}

/-- What holds of a step task that its admission may decide alone (R16). -/
structure World.AdmitsAlone (w : World) (t : Task) : Prop where
  here : w.task? t.id = some t
  kind : t.kind = 1
  posted : t.st = .posted
  running : t.stop = none
  quiet : w.Quiet
  tenant : w.train.steps.any (fun x => x.tenant == t.tenant.getD 0) = false
  coresRun : w.coresRun = true
  stays : w.leaving = false
  single : w.multi = false

theorem stepAdmission_accepts (h : s.w.AdmitsAlone t) (hstatus : s.w.admissionStatus s.vault t = 0) :
    Gives (.stepAdmission t.id.queue t.id.seq) s ((s.w.checked s.vault t).acceptStep t) := by
  obtain ⟨hv, hn⟩ := h.quiet
  have hadm := World.admission_alone (v := s.vault) h.here h.kind h.posted h.running hv h.tenant h.coresRun h.stays h.single
  rw [if_pos hstatus] at hadm
  refine gives_onJob rfl hadm (World.settleVotes_nil (by simpa using hv)) (by simp) hn fun x hx hc => ?_
  simpa [World.checked_train] using World.acceptStep_committed hx hc

theorem stepAdmission_refuses (h : s.w.AdmitsAlone t) (hstatus : s.w.admissionStatus s.vault t ≠ 0) :
    Gives (.stepAdmission t.id.queue t.id.seq) s ((s.w.checked s.vault t).refuseStep t (s.w.admissionStatus s.vault t)) := by
  obtain ⟨hv, hn⟩ := h.quiet
  have hadm := World.admission_alone (v := s.vault) h.here h.kind h.posted h.running hv h.tenant h.coresRun h.stays h.single
  rw [if_neg hstatus] at hadm
  obtain ⟨hck, hvotes⟩ := (s.w.checked s.vault t).refuseStep_job t (s.w.admissionStatus s.vault t)
  refine gives_onJob rfl hadm (World.settleVotes_nil ?_) (by rw [hck, World.checked_job]) hn fun x hx _ => ?_
  · rw [hvotes, World.checked_job, hv]
    rfl
  · rw [World.refuseStep_steps, World.checked_train] at hx
    exact (List.mem_filter.mp hx).1

end

/-- Settles O23: the admission by the status of its checks, and the end of an abandoned step by what `World.finish` does. -/
theorem trainingSteps : Obligations.TrainingSteps := by
  refine ⟨fun s q n t => ?_, fun s q n t ht => ?_⟩
  · intro w tenant ten status ht hk hp hstop hq hten hnone hrun hleave hm
    obtain ⟨rfl, rfl⟩ : q = t.id.queue ∧ n = t.id.seq := by simp [World.task?_id ht]
    have halone : w.AdmitsAlone t := ⟨ht, hk, hp, hstop, hq, hten, hrun, hleave, hm⟩
    refine ⟨fun hs => ⟨_, stepAdmission_accepts halone hs, ?_, ?_⟩, fun hs => ⟨_, stepAdmission_refuses halone hs, ?_, ?_⟩⟩
    · exact (World.acceptStep_task? (World.checked_task? ht)).trans (by rw [Vault.confine_step _ hk])
    · rw [World.admitted_train s.vault hs]
      exact ⟨rfl, rfl, rfl⟩
    · exact (World.refuseStep_completes _ t _).of_same (World.checked_clock ..) (World.checked_host ..)
    · have hnone' : (w.checked s.vault t).step? t.id = none := by
        rw [World.step?_eq_none, World.checked_train]
        exact hnone
      rw [World.refuseStep_train _ hnone', World.checked_train]
      exact ⟨rfl, rfl⟩
  · obtain ⟨rfl, rfl⟩ : q = t.id.queue ∧ n = t.id.seq := by simp [World.task?_id ht]
    refine ⟨fun hph ho hd => ?_, fun status hph ho hd hack => ?_, fun x status hx ha hg hc hack hb => ?_⟩
    · exact gives_of_eq rfl (World.markRelease_free ht hph ho hd)
    · refine ⟨_, gives_of_eq rfl ((World.markRelease_due ht hph ho hd).trans (World.finishAfter_acked hack)), ?_⟩
      exact ⟨s.w.finish_completes t status, s.w.finish_step? t status, s.w.finish_stepCtr t status⟩
    · refine ⟨_, gives_of_eq rfl ((World.stepAbandon_agreed ht hx ha hg hc hb).trans (World.finishAfter_acked hack)), ?_⟩
      exact ⟨s.w.finish_completes t status, s.w.finish_step? t status, s.w.finish_stepCtr t status, World.finish_hist status hx hc ht⟩

/-! What the start of an operation leaves of the steps and the job (R114, R177). -/

/-- The same steps are in progress, each of the same tenant and committed or not as before. -/
def World.SameSteps (w w' : World) : Prop :=
  ∃ m : Step → Step, (∀ z, (m z).task = z.task ∧ (m z).tenant = z.tenant ∧ (m z).committed = z.committed) ∧
    w'.train.steps = w.train.steps.map m

theorem World.SameSteps.of_train {w w' : World} (h : w'.train = w.train) : w.SameSteps w' :=
  ⟨id, fun _ => ⟨rfl, rfl, rfl⟩, by rw [h, List.map_id]⟩

theorem World.SameSteps.then_train {w w' w'' : World} (h : w.SameSteps w') (ht : w''.train = w'.train) : w.SameSteps w'' := by
  obtain ⟨m, hm, hs⟩ := h
  exact ⟨m, hm, by rw [ht, hs]⟩

/-- A step keeps its tenant and whether it is committed. -/
theorem World.SameSteps.step? {w w' : World} {id : TaskId} {x : Step} (h : w.SameSteps w') (hx : w'.step? id = some x) :
    ∃ y, w.step? id = some y ∧ x.tenant = y.tenant ∧ x.committed = y.committed := by
  obtain ⟨m, hm, hs⟩ := h
  rw [World.step?_of_map hs fun z => (hm z).1, Option.map_eq_some_iff] at hx
  obtain ⟨y, hy, rfl⟩ := hx
  exact ⟨y, hy, (hm y).2⟩

@[simp] theorem World.begun_job (w : World) (t : Task) (g : Nat) : (w.begun t g).job = w.job := by simp [World.begun]
@[simp] theorem World.begun_train (w : World) (t : Task) (g : Nat) : (w.begun t g).train = w.train := by simp [World.begun]

/-- An operation that is gathered is of the task given, and changes neither the job nor the steps. -/
theorem World.gather_kept {w w' : World} {t : Task} {g : Nat} {st : Stage} {reads : World → Run → List (List Region)} {r : Run}
    (h : w.gather t g st reads = (w', some r)) : r.t = t ∧ w'.job = w.job ∧ w'.train = w.train := by
  refine ⟨by rw [World.gather_run h]; rfl, ?_⟩
  simp only [World.gather] at h
  split at h
  · cases h
  split at h
  · cases h
  split at h
  · cases h
  obtain ⟨rfl, -⟩ := Prod.mk.inj h
  simp

/-- A semaphore that is acquired at once changes neither the job nor the steps. -/
theorem World.waitSem_acquired {w w' : World} {t : Task} {g n : Nat} {glob : Bool} (h : w.waitSem t g glob n = (w', true)) :
    w'.job = w.job ∧ w'.train = w.train := by
  simp only [World.waitSem] at h
  repeat' split at h
  all_goals cases h
  all_goals exact ⟨rfl, rfl⟩

/-- An operation that enters execution leaves the job, and of the steps it marks at most the phase of its own. -/
theorem World.enterOp_kept (w : World) (t : Task) (g : Nat) (st : Stage) (d : Desc) :
    (w.enterOp t g st d).job = w.job ∧ w.SameSteps (w.enterOp t g st d) := by
  have key : (w.enterOp t g st d).job = w.job ∧
      (w.enterOp t g st d).train = (if w.atMark t g d.opc then w.updStep t.id (fun x => { x with marked := true }) else w).train := by
    unfold World.enterOp
    dsimp only
    constructor <;> (repeat' split) <;> rfl
  obtain ⟨hj, ht⟩ := key
  refine ⟨hj, .then_train ?_ ht⟩
  split
  · exact ⟨_, fun z => by split <;> exact ⟨rfl, rfl, rfl⟩, rfl⟩
  · exact .of_train rfl

/-- An operation that starts and is to run now is of the task given; it leaves the job, and the steps but for their marks. -/
theorem World.startOp_kept {w w' : World} {t : Task} {g : Nat} {st : Stage} {bs : Bytes} {extra : World → Run → List Fail}
    {reads : World → Run → List (List Region)} {r : Run} (h : w.startOp t g st bs extra reads = (w', some r)) :
    r.t = t ∧ w'.job = w.job ∧ w.SameSteps w' := by
  simp only [World.startOp] at h
  obtain ⟨hj, hs⟩ := w.enterOp_kept t g (w.latch t g st bs) (Desc.ofBytes bs)
  split at h -- poison
  · cases h
  split at h -- held at the mark
  · cases h
  split at h -- abandoned at the mark
  · cases h
  split at h -- bytes that its checks read are missing
  · cases h
  split at h -- refused
  · cases h
  split at h -- its job stops
  · cases h
  split at h
  · split at h
    · rename_i hw
      obtain ⟨hj', ht'⟩ := World.waitSem_acquired hw
      obtain ⟨hr, hj'', ht''⟩ := World.gather_kept h
      exact ⟨hr, hj''.trans (hj'.trans hj), hs.then_train (ht''.trans ht')⟩
    · cases h
  · obtain ⟨hr, hj'', ht''⟩ := World.gather_kept h
    exact ⟨hr, hj''.trans hj, hs.then_train ht''⟩

/-- An operation that is ready is of the task of the command; its preparation leaves the job, and the steps but for their marks. -/
theorem World.prepare_kept {w w' : World} {q s g opc : Nat} {pts : List Nat} {mods : Nat → Bool} {extra : World → Run → List Fail}
    {reads : World → Run → List (List Region)} {r : Run} (h : w.prepare q s g pts opc mods extra reads = (w', some r)) :
    w.task? ⟨q, s⟩ = some r.t ∧ w'.job = w.job ∧ w.SameSteps w' := by
  obtain ⟨r', hr, rfl⟩ := World.prepare_reach h
  simp only [World.reach] at hr
  split at hr
  · cases hr
  rename_i t ht
  suffices hk : r'.t = t ∧ w'.job = w.job ∧ w.SameSteps w' from ⟨by rw [ht, hk.1], hk.2⟩
  split at hr
  · cases hr
  rename_i st hst
  have hgather : ∀ {v : World}, v.gather t g st reads = (w', some r') → v.job = w.job → v.train = w.train →
      r'.t = t ∧ w'.job = w.job ∧ w.SameSteps w' := fun hg hj hs =>
    have ⟨hr, hj', hs'⟩ := World.gather_kept hg
    ⟨hr, hj'.trans hj, .of_train (hs'.trans hs)⟩
  split at hr
  · cases hr
  cases hph : st.phase <;> simp only [hph] at hr
  case granted | holders | part =>
    split at hr
    · exact hgather hr rfl rfl
    · cases hr
  case retry =>
    split at hr
    · split at hr
      · rename_i hw
        obtain ⟨hj, hs⟩ := World.waitSem_acquired hw
        exact hgather hr hj hs
      · cases hr
    · cases hr
  case ready =>
    split at hr
    · cases hr
    · split at hr
      · exact World.startOp_kept hr
      · cases hr
  all_goals cases hr

/-- COMMIT on one engine performs the act where no serving task holds the shadow generation (R20, R23). -/
theorem runCommit_act {v : Vault} {w : World} {r : Run} {x : Step} (hx : w.step? r.t.id = some x)
    (hg : w.genHeld x.tenant (v.tenantOf r.t).shadow = false) (hm : w.multi = false) : runCommit v w r = (w.commit r.t x, some r.ok) := by
  simp [runCommit, hx, hg, hm]

/-- Settles O18: the operation that runs is the commit of one step over the steps in progress before, so it is the one new commit. -/
theorem commitAct : Obligations.CommitAct := by
  rintro s q n g w r x ⟨hprep, hpart⟩ hx hc hg hm ⟨hvotes, hn⟩
  obtain ⟨ht, hjob, hsteps⟩ := World.prepare_kept hprep
  rw [← World.task?_id ht] at ht
  obtain ⟨y, hy, hten, hcom⟩ := hsteps.step? hx
  obtain ⟨m, hmark, hsteps⟩ := hsteps
  have hop : s.w.operate q n g [] 0x55 anyMod (commitExtra s.vault) wholeReads (runCommit s.vault) = (w.commit r.t x).executed r.t.id r.g r.ok :=
    (World.operate_ready hprep).trans (World.execute_some (.inl (by rw [hpart]; rfl)) (runCommit_act hx hg hm))
  have hnew : s.w.newCommit ((w.commit r.t x).executed r.t.id r.g r.ok) = [(x.tenant, r.t.sigma, r.t.q)] := by
    rw [hten]
    exact World.newCommit_commit hn hy (hcom.symm.trans hc) ht hsteps hmark rfl
  have hj : ((w.commit r.t x).executed r.t.id r.g r.ok).job = s.w.job := (World.executed_job ..).trans hjob
  have hact := State.onJob_eq (f := fun w => w.operate q n g [] 0x55 anyMod (commitExtra s.vault) wholeReads (runCommit s.vault)) hop
    (World.settleVotes_nil (by rw [hj, hvotes])) (by rw [hj])
  rw [hnew] at hact
  refine ⟨_, congrArg Host.Outcome.next hact, rfl, rfl, rfl, rfl, ?_, ?_, fun id hne => ?_⟩
  · exact (congrArg _ (World.commit_step? x hx)).trans rfl
  · exact (Vault.commit_get ..).trans (if_pos rfl)
  · exact (Vault.commit_get ..).trans (if_neg hne)

end Sys2Proof.Machine

namespace Sys2Proof.Machine

/-! The vector operations (R41, R116, R117): each rule names the rows of its result, and these go through one conversion to D. -/

/-- A command whose operation is ready and whole leaves what the rule of its row makes of the engine, with the rule's result recorded. -/
theorem gives_ready {c : Instr} {s : State} {q n g opc : Nat} {mods : Nat → Bool} {extra : World → Run → List Fail}
    {reads : World → Run → List (List Region)} {run : World → Run → World × Done} {w w' : World} {r : Run} {res : OpRes}
    (h : World.ready s q n g opc mods extra reads w r) (he : exec c s = s.operate q n g [] opc mods extra reads run)
    (hrun : run w r = (w', some res)) : Gives c s (w'.executed r.t.id r.g res) := by
  obtain ⟨hprep, hpart⟩ := h
  have hwhole : r.part.isNone = true := by rw [hpart]; rfl
  exact gives_of_eq he ((World.operate_ready hprep).trans (World.execute_some (.inl hwhole) hrun))

/-- Rows that a whole operation finishes become the bytes of D, with the counts of their conversions and of the operands' flushes. -/
theorem World.finishRows_whole (w : World) {r : Run} (hpart : r.part = none) (flushed : Nat) (rows : List (List XV)) :
    w.finishRows r flushed rows = (w.putD r (r.converted rows),
      some (r.counted { r.conversions rows with flush := (r.conversions rows).flush + flushed })) := by
  have hconv : w.writeConv r (r.o 3) rows = (w.putD r (r.converted rows), r.conversions rows) := by
    rw [World.writeConv, hpart]; rfl
  rw [World.finishRows, hconv]

/-- A whole operation whose rule finishes rows writes them to D, each value converted once. -/
theorem gives_rows {c : Instr} {s : State} {q n g opc : Nat} {mods : Nat → Bool} {extra : World → Run → List Fail}
    {reads : World → Run → List (List Region)} {w : World} {r : Run} {flushed : Nat} {rows : List (List XV)}
    (run : World → Run → World × Done) (hrun : run w r = w.finishRows r flushed rows)
    (he : exec c s = s.operate q n g [] opc mods extra reads run) (h : World.ready s q n g opc mods extra reads w r) :
    Gives c s ((w.putD r (r.converted rows)).executed r.t.id r.g
      (r.counted { r.conversions rows with flush := (r.conversions rows).flush + flushed })) :=
  gives_ready h he (hrun.trans (w.finishRows_whole h.2 flushed rows))

/-- Settles O13: by their definitions each command runs the rule named here, and the rule finishes the rows of the statement; what is left
is the whole operation's write of those rows (`gives_rows`). -/
theorem vectorResults : Obligations.VectorResults := by
  refine ⟨fun s q n g w r => ?elementwise, fun s q n g w r => ?functions, fun s q n g w r => ?rowwise⟩
  case elementwise =>
    exact ⟨gives_rows (runMap2 XV.add) rfl rfl, gives_rows (runMap2 XV.mul) rfl rfl,
      gives_rows (runMap3 fun a b c => (a.mul b).add c) rfl rfl, gives_rows (runMap2 XV.max) rfl rfl, gives_rows (runMap2 XV.min) rfl rfl,
      gives_rows runVscale rfl rfl, gives_rows (runMap3 selectX) rfl rfl⟩
  case functions =>
    exact ⟨gives_rows (runMap reluF32) rfl rfl, gives_rows (runMap geluF32) rfl rfl, gives_rows (runMap siluF32) rfl rfl,
      gives_rows (runMap tanhF32) rfl rfl, gives_rows (runMap sigmoidF32) rfl rfl, gives_rows (runMap expF32) rfl rfl,
      gives_rows (runMap recipF32) rfl rfl, gives_rows (runMap rsqrtF32) rfl rfl, gives_rows (runMap sqrtF32) rfl rfl,
      gives_rows (runMap XV.abs) rfl rfl, gives_rows (runMap XV.negate) rfl rfl⟩
  case rowwise =>
    exact ⟨gives_rows runSoftmax rfl rfl, gives_rows runLayerNorm rfl rfl, gives_rows runRmsNorm rfl rfl⟩

end Sys2Proof.Machine

namespace Sys2Proof.Machine

/-! The course of a tile (R61 to R63). -/

/-- The attempts that a tile may still start: one more for its promotion, and three replays (R62, R63). -/
def TileSt.attempts (cfg : DotCfg) (t : TileSt) : Nat := if cfg.inInt t.promoted then 4 else 3 - t.r

/-- The place of a tile in its attempt, in group steps. -/
def TileSt.place (ls : List (List Lane)) (t : TileSt) : Nat := t.grp * ls.length + t.unit

/-- The group steps that may still lie before a tile: those of the attempts left, and those left of this one. -/
def TileSt.rank (cfg : DotCfg) (ng : Nat) (ls : List (List Lane)) (t : TileSt) : Nat :=
  t.attempts cfg * (ng * ls.length) + (ng * ls.length - t.place ls)

/-- Before its last group has run, a tile stands inside its attempt. -/
theorem TileSt.place_lt {ng : Nat} {ls : List (List Lane)} {t : TileSt} (hu : t.unit < ls.length) (ho : t.over ng = false) :
    t.place ls < ng * ls.length := by
  have hg : t.grp + 1 ≤ ng := Nat.lt_of_not_le (of_decide_eq_false ho)
  calc t.place ls < (t.grp + 1) * ls.length := by rw [TileSt.place, Nat.succ_mul]; omega
    _ ≤ ng * ls.length := Nat.mul_le_mul_right _ hg

/-- A group step starts one of the attempts left, or goes on by one place in its own (R62, R63). -/
theorem TileSt.step_cases (cfg : DotCfg) (ng : Nat) {ls : List (List Lane)} {t : TileSt} (hu : t.unit < ls.length) :
    (∃ r p reps proms, (t.step cfg ng ls).1 = TileSt.start cfg ls r p reps proms ∧ (t.step cfg ng ls).1.attempts cfg < t.attempts cfg) ∨
    ((t.step cfg ng ls).1.attempts cfg = t.attempts cfg ∧ (t.step cfg ng ls).1.place ls = t.place ls + 1 ∧
      (t.step cfg ng ls).1.unit < ls.length) := by
  simp only [TileSt.step]
  split
  case isTrue h => -- promoted
    rw [Bool.and_eq_true] at h
    refine .inl ⟨_, _, _, _, rfl, ?_⟩
    simp only [TileSt.attempts, TileSt.start, h.2, if_true]
    simp [DotCfg.inInt]
  case isFalse h1 =>
    split
    case isTrue h => -- replayed
      rw [Bool.and_eq_true] at h
      obtain ⟨hovf, hr⟩ := h
      have hi : cfg.inInt t.promoted = false := by simpa only [hovf, Bool.true_and, Bool.not_eq_true] using h1
      have hr : t.r < 3 := of_decide_eq_true hr
      refine .inl ⟨_, _, _, _, rfl, ?_⟩
      simp only [TileSt.attempts, TileSt.start, hi, Bool.false_eq_true, if_false]
      omega
    case isFalse => -- the next unit, or the next group
      refine .inr ?_
      split
      case isTrue h => exact ⟨rfl, rfl, h⟩
      case isFalse h => exact ⟨rfl, by simp only [TileSt.place, Nat.succ_mul]; omega, by simp only; omega⟩

/-- A group step stays within the units of the tile and lowers its rank. -/
theorem TileSt.step_rank (cfg : DotCfg) {ng : Nat} {ls : List (List Lane)} {t : TileSt} (hu : t.unit < ls.length) (ho : t.over ng = false) :
    (t.step cfg ng ls).1.unit < ls.length ∧ (t.step cfg ng ls).1.rank cfg ng ls < t.rank cfg ng ls := by
  have hp := TileSt.place_lt hu ho
  rcases TileSt.step_cases cfg ng hu with ⟨r, p, reps, proms, hs, ha⟩ | ⟨ha, hplace, hu'⟩
  · refine ⟨by rw [hs]; simp only [TileSt.start]; omega, ?_⟩
    have := Nat.mul_le_mul_right (ng * ls.length) ha
    rw [Nat.succ_mul] at this
    simp only [TileSt.rank]
    omega
  · exact ⟨hu', by simp only [TileSt.rank, ha, hplace]; omega⟩

/-- A tile of rank 0 is over. -/
theorem TileSt.over_of_rank {cfg : DotCfg} {ng : Nat} {ls : List (List Lane)} {t : TileSt} (hu : t.unit < ls.length)
    (hr : t.rank cfg ng ls = 0) : t.over ng = true := by
  cases ho : t.over ng with
  | true => rfl
  | false =>
    have hp := TileSt.place_lt hu ho
    simp only [TileSt.rank] at hr
    omega

@[simp] theorem TileSt.run_of_over {cfg : DotCfg} {ng : Nat} {ls : List (List Lane)} {t : TileSt} (ho : t.over ng = true) (n : Nat) :
    t.run cfg ng ls n = t := by
  cases n <;> simp [TileSt.run, ho]

/-- Any fuel that covers the rank takes a tile to the same end. -/
theorem TileSt.run_fuel (cfg : DotCfg) {ng : Nat} {ls : List (List Lane)} {t : TileSt} {n m : Nat} (hu : t.unit < ls.length)
    (hn : t.rank cfg ng ls ≤ n) (hm : t.rank cfg ng ls ≤ m) : t.run cfg ng ls n = t.run cfg ng ls m := by
  induction n generalizing t m with
  | zero =>
    have ho := TileSt.over_of_rank hu (Nat.le_zero.mp hn)
    rw [run_of_over ho, run_of_over ho]
  | succ n ih =>
    cases ho : t.over ng with
    | true => rw [run_of_over ho, run_of_over ho]
    | false =>
      obtain ⟨hu', hr⟩ := TileSt.step_rank cfg hu ho
      obtain ⟨k, rfl⟩ : ∃ k, m = k + 1 := ⟨m - 1, by omega⟩
      simp only [TileSt.run, ho, Bool.false_eq_true, if_false]
      exact ih hu' (by omega) (by omega)

/-- What a tile in progress ends with. -/
def TileSt.outcome (cfg : DotCfg) (ng : Nat) (ls : List (List Lane)) (t : TileSt) : TileRes :=
  (t.run cfg ng ls (t.rank cfg ng ls)).res cfg ng

theorem TileSt.outcome_of_over {cfg : DotCfg} {ng : Nat} {ls : List (List Lane)} {t : TileSt} (ho : t.over ng = true) :
    t.outcome cfg ng ls = t.res cfg ng := by
  rw [outcome, run_of_over ho]

theorem TileSt.outcome_step {cfg : DotCfg} {ng : Nat} {ls : List (List Lane)} {t : TileSt} (hu : t.unit < ls.length) (ho : t.over ng = false) :
    (t.step cfg ng ls).1.outcome cfg ng ls = t.outcome cfg ng ls := by
  obtain ⟨hu', hr⟩ := TileSt.step_rank cfg hu ho
  rw [outcome, TileSt.run_fuel cfg hu' (Nat.le_refl _) (Nat.le_sub_one_of_lt hr), outcome]
  obtain ⟨k, hk⟩ : ∃ k, t.rank cfg ng ls = k + 1 := ⟨t.rank cfg ng ls - 1, by omega⟩
  simp [hk, TileSt.run, ho]

/-- A tile has at most five attempts before it (R63). -/
theorem TileSt.rank_start (cfg : DotCfg) (ng : Nat) (ls : List (List Lane)) :
    (TileSt.start cfg ls 0 false 0 0).rank cfg ng ls ≤ tileFuel ng ls := by
  have ha : (TileSt.start cfg ls 0 false 0 0).attempts cfg ≤ 4 := by unfold TileSt.attempts; split <;> omega
  have := Nat.mul_le_mul_right (ng * ls.length) ha
  simp only [TileSt.rank, tileFuel]
  omega

theorem TileSt.outcome_start (cfg : DotCfg) (ng : Nat) {ls : List (List Lane)} (hl : ls ≠ []) :
    (TileSt.start cfg ls 0 false 0 0).outcome cfg ng ls = runTile cfg ng ls :=
  congrArg (TileSt.res cfg ng) (TileSt.run_fuel cfg (List.length_pos_iff.mpr hl) (Nat.le_refl _) (TileSt.rank_start cfg ng ls))

/-! The course of a core's share (R68, R69). -/

/-- The results that a core's share ends with: of the tiles that are over, of the one in progress and of those to come. -/
def CoreTiles.outcome (cfg : DotCfg) (ng : Nat) (tiles : List (List (List Lane))) (c : CoreTiles) : List TileRes :=
  c.done ++ match tiles.drop c.done.length with
    | [] => []
    | ls :: rest => (match c.cur with | none => runTile cfg ng ls | some t => t.outcome cfg ng ls) :: rest.map (runTile cfg ng)

/-- The steps that may still lie before a share: before each group step at most one end of a segment, and the start and the end of each tile. -/
def CoreTiles.rank (cfg : DotCfg) (ng : Nat) (tiles : List (List (List Lane))) (c : CoreTiles) : Nat :=
  match tiles.drop c.done.length with
  | [] => 0
  | ls :: rest => (match c.cur with
    | none => 2 * tileFuel ng ls + 3
    | some t => 2 * t.rank cfg ng ls + (if 0 < c.seg then 1 else 0) + 1) + coreFuel ng rest

/-- The tile in progress stands at one of its units. -/
def CoreTiles.Fits (tiles : List (List (List Lane))) (c : CoreTiles) : Prop :=
  ∀ t ls, c.cur = some t → tiles[c.done.length]? = some ls → t.unit < ls.length

/-- A share has gone on: it stands where it may, ends with the same results, and is nearer to its end. -/
def CoreTiles.GoesOn (cfg : DotCfg) (ng : Nat) (tiles : List (List (List Lane))) (c c' : CoreTiles) : Prop :=
  c'.Fits tiles ∧ c'.outcome cfg ng tiles = c.outcome cfg ng tiles ∧ c'.rank cfg ng tiles < c.rank cfg ng tiles

/-- A share is over where no tile is left. -/
theorem CoreTiles.over_iff {tiles : List (List (List Lane))} {c : CoreTiles} : c.over tiles = true ↔ tiles.drop c.done.length = [] := by
  simp [CoreTiles.over]

section
variable {cfg : DotCfg} {ng : Nat} {tiles rest : List (List (List Lane))} {ls : List (List Lane)} {c : CoreTiles} {t : TileSt}
  (hdrop : tiles.drop c.done.length = ls :: rest) (hc : c.cur = some t)
include hdrop hc

theorem CoreTiles.outcome_cur : c.outcome cfg ng tiles = c.done ++ t.outcome cfg ng ls :: rest.map (runTile cfg ng) := by
  simp only [CoreTiles.outcome, hdrop, hc]

theorem CoreTiles.rank_cur : c.rank cfg ng tiles = 2 * t.rank cfg ng ls + (if 0 < c.seg then 1 else 0) + 1 + coreFuel ng rest := by
  simp only [CoreTiles.rank, hdrop, hc]

theorem CoreTiles.rank_cur_le : c.rank cfg ng tiles ≤ 2 * t.rank cfg ng ls + 2 + coreFuel ng rest := by
  rw [CoreTiles.rank_cur hdrop hc]
  split <;> omega

theorem CoreTiles.lt_rank_cur : 2 * t.rank cfg ng ls + coreFuel ng rest < c.rank cfg ng tiles := by
  rw [CoreTiles.rank_cur hdrop hc]
  omega

theorem CoreTiles.fits_cur (hu : t.unit < ls.length) : c.Fits tiles := fun t' ls' ht hl => by
  have hls : some ls' = some ls := by rw [← hl, ← List.head?_drop, hdrop, List.head?_cons]
  obtain rfl := Option.some.inj hls
  obtain rfl := Option.some.inj (hc.symm.trans ht)
  exact hu

/-- A segment ends (R68). -/
theorem CoreTiles.goesOn_endSeg (hu : t.unit < ls.length) (hseg : 0 < c.seg) : c.GoesOn cfg ng tiles c.endSeg := by
  refine ⟨CoreTiles.fits_cur (c := c.endSeg) hdrop hc hu, ?_, ?_⟩
  · exact (CoreTiles.outcome_cur (c := c.endSeg) hdrop hc).trans (CoreTiles.outcome_cur hdrop hc).symm
  · rw [CoreTiles.rank_cur (c := c.endSeg) hdrop hc, CoreTiles.rank_cur hdrop hc]
    simp [CoreTiles.endSeg, hseg]

/-- A group of a unit runs. -/
theorem CoreTiles.goesOn_step {c' : CoreTiles} (hu : t.unit < ls.length) (ho : t.over ng = false) (hd : c'.done = c.done)
    (hc' : c'.cur = some (t.step cfg ng ls).1) : c.GoesOn cfg ng tiles c' := by
  obtain ⟨hu', hr⟩ := TileSt.step_rank cfg hu ho
  have hdrop' : tiles.drop c'.done.length = ls :: rest := by rw [hd, hdrop]
  refine ⟨CoreTiles.fits_cur hdrop' hc' hu', ?_, ?_⟩
  · rw [CoreTiles.outcome_cur hdrop' hc', TileSt.outcome_step hu ho, CoreTiles.outcome_cur hdrop hc, hd]
  · have := CoreTiles.rank_cur_le (cfg := cfg) (ng := ng) hdrop' hc'
    have := CoreTiles.lt_rank_cur (cfg := cfg) (ng := ng) hdrop hc
    omega

/-- A tile ends. -/
theorem CoreTiles.goesOn_res {c' : CoreTiles} (ho : t.over ng = true) (hd : c'.done = c.done ++ [t.res cfg ng]) (hc' : c'.cur = none) :
    c.GoesOn cfg ng tiles c' := by
  have hdrop' : tiles.drop c'.done.length = rest := by
    rw [hd, List.length_append, List.length_singleton, ← List.drop_drop, hdrop, List.drop_one, List.tail_cons]
  refine ⟨fun t _ ht => by simp [hc'] at ht, ?_, ?_⟩
  · rw [CoreTiles.outcome_cur hdrop hc, TileSt.outcome_of_over ho, CoreTiles.outcome, hdrop', hc', hd, List.append_assoc, List.singleton_append]
    cases rest <;> rfl
  · refine Nat.lt_of_le_of_lt (Nat.le_of_eq ?_) (Nat.lt_of_le_of_lt (Nat.le_add_left _ _) (CoreTiles.lt_rank_cur hdrop hc))
    rw [CoreTiles.rank, hdrop', hc']
    cases rest <;> rfl

end

/-- A tile starts. -/
theorem CoreTiles.goesOn_start {cfg : DotCfg} {ng : Nat} {tiles rest : List (List (List Lane))} {ls : List (List Lane)} {c : CoreTiles}
    (hdrop : tiles.drop c.done.length = ls :: rest) (hc : c.cur = none) (hls : ls ≠ []) :
    c.GoesOn cfg ng tiles { c with cur := some (TileSt.start cfg ls 0 false 0 0) } := by
  refine ⟨CoreTiles.fits_cur hdrop rfl (List.length_pos_iff.mpr hls), ?_, ?_⟩
  · refine (CoreTiles.outcome_cur (c := { c with cur := some (TileSt.start cfg ls 0 false 0 0) }) hdrop rfl).trans ?_
    simp only [TileSt.outcome_start cfg _ hls, CoreTiles.outcome, hdrop, hc]
  · refine Nat.lt_of_le_of_lt (CoreTiles.rank_cur_le hdrop rfl) ?_
    have := TileSt.rank_start cfg ng ls
    simp only [CoreTiles.rank, hdrop, hc]
    omega

/-- Each step of a share takes it on: a tile starts or ends, a segment ends, or a group runs. -/
theorem CoreTiles.adv_goesOn (cfg : DotCfg) {sc : SegCfg} {tiles : List (List (List Lane))} {c : CoreTiles}
    (hne : ∀ ls ∈ tiles, ls ≠ []) (hf : c.Fits tiles) (ho : c.over tiles = false) :
    c.GoesOn cfg sc.cost.length tiles (c.adv cfg sc tiles) := by
  have hlen : c.done.length < tiles.length := Nat.lt_of_not_le (of_decide_eq_false ho)
  have hget : tiles[c.done.length]? = some tiles[c.done.length] := List.getElem?_eq_getElem hlen
  have hdrop : tiles.drop c.done.length = tiles[c.done.length] :: tiles.drop (c.done.length + 1) := List.drop_eq_getElem_cons hlen
  have hls : tiles[c.done.length] ≠ [] := hne _ (List.getElem_mem hlen)
  generalize tiles[c.done.length] = ls at *
  simp only [CoreTiles.adv, hget]
  cases hc : c.cur with
  | none => exact CoreTiles.goesOn_start hdrop hc hls
  | some t =>
    have hu : t.unit < ls.length := hf t ls hc hget
    dsimp only
    split
    case isTrue hover =>
      split
      · exact CoreTiles.goesOn_res hdrop hc hover rfl rfl
      · exact CoreTiles.goesOn_res hdrop hc hover rfl rfl
    case isFalse hover =>
      have hover := Bool.eq_false_iff.mpr hover
      split
      case isTrue hseg => exact CoreTiles.goesOn_endSeg hdrop hc hu hseg.2.1
      case isFalse =>
        split
        · exact CoreTiles.goesOn_step hdrop hc hu hover rfl rfl
        · exact CoreTiles.goesOn_step hdrop hc hu hover rfl rfl

/-- A share with fuel for its rank ends with its outcome. -/
theorem CoreTiles.run_outcome (cfg : DotCfg) {sc : SegCfg} {tiles : List (List (List Lane))} {c : CoreTiles} {n : Nat}
    (hne : ∀ ls ∈ tiles, ls ≠ []) (hf : c.Fits tiles) (hn : c.rank cfg sc.cost.length tiles ≤ n) :
    (c.run cfg sc tiles none n).over tiles = true ∧ (c.run cfg sc tiles none n).done = c.outcome cfg sc.cost.length tiles := by
  have hdone : ∀ {c : CoreTiles}, c.over tiles = true → c.done = c.outcome cfg sc.cost.length tiles := fun h => by
    simp [CoreTiles.outcome, CoreTiles.over_iff.mp h]
  induction n generalizing c with
  | zero =>
    have ho : c.over tiles = true := by
      rw [CoreTiles.over_iff]
      simp only [CoreTiles.rank] at hn
      split at hn
      · assumption
      · split at hn <;> omega
    exact ⟨ho, hdone ho⟩
  | succ n ih =>
    cases ho : c.over tiles with
    | true => simpa [CoreTiles.run, ho] using hdone ho
    | false =>
      obtain ⟨hf', hout, hr⟩ := CoreTiles.adv_goesOn cfg (sc := sc) hne hf ho
      simp only [CoreTiles.run, ho, Option.any_none, Bool.or_self, Bool.false_eq_true, if_false]
      rw [← hout]
      exact ih hf' (by omega)

/-- A whole share leaves the results of its tiles (R62, R63, R68). -/
theorem CoreTiles.run_whole (cfg : DotCfg) (sc : SegCfg) {tiles : List (List (List Lane))} (hne : ∀ ls ∈ tiles, ls ≠ []) :
    (CoreTiles.run cfg sc tiles none (coreFuel sc.cost.length tiles) {}).over tiles = true ∧
      (CoreTiles.run cfg sc tiles none (coreFuel sc.cost.length tiles) {}).done = tiles.map (runTile cfg sc.cost.length) := by
  have hout : ({} : CoreTiles).outcome cfg sc.cost.length tiles = tiles.map (runTile cfg sc.cost.length) := by
    cases tiles <;> rfl
  rw [← hout]
  refine CoreTiles.run_outcome cfg hne (fun t ls h => by cases h) ?_
  cases tiles <;> simp [CoreTiles.rank, coreFuel]

/-! How tiles are dealt to the cores and their results gathered (R131). -/

/-- What holds of no elements, and of one more after any that it holds of, holds of every list. -/
theorem list_append_induction {α : Type} {p : List α → Prop} (nil : p []) (append : ∀ l a, p l → p (l ++ [a])) (l : List α) : p l := by
  rw [← l.reverse_reverse]
  induction l.reverse with
  | nil => exact nil
  | cons a l ih =>
    rw [List.reverse_cons]
    exact append _ _ ih

theorem filterMap_eq_map_of_some {α β : Type} {f : α → Option β} {g : α → β} {l : List α} (h : ∀ a ∈ l, f a = some (g a)) :
    l.filterMap f = l.map g := by
  induction l with
  | nil => rfl
  | cons a l ih =>
    rw [List.filterMap_cons_some (h a List.mem_cons_self), ih fun b hb => h b (List.mem_cons_of_mem a hb), List.map_cons]

/-- The next number has the next remainder, or begins a new round. -/
theorem succ_div_mod {n : Nat} (hn : 0 < n) (k : Nat) :
    ((k + 1) % n = k % n + 1 ∧ (k + 1) / n = k / n) ∨ (k % n + 1 = n ∧ (k + 1) % n = 0 ∧ (k + 1) / n = k / n + 1) := by
  have hk : k + 1 = k % n + 1 + n * (k / n) := by rw [Nat.add_right_comm, Nat.mod_add_div]
  rw [hk, Nat.add_mul_mod_self_left, Nat.add_mul_div_left _ _ hn]
  rcases Nat.lt_or_eq_of_le (Nat.succ_le_of_lt (Nat.mod_lt k hn)) with h | h
  · exact .inl ⟨Nat.mod_eq_of_lt h, by rw [Nat.div_eq_of_lt h, Nat.zero_add]⟩
  · refine .inr ⟨h, ?_, ?_⟩
    · exact (congrArg (· % n) h).trans (Nat.mod_self n)
    · rw [(congrArg (· / n) h).trans (Nat.div_self hn), Nat.add_comm]

theorem dealt_append_singleton {α : Type} (n c : Nat) (l : List α) (a : α) :
    dealt n c (l ++ [a]) = dealt n c l ++ if l.length % max 1 n = c then [a] else [] := by
  simp only [dealt, List.zipIdx_append, List.filter_append, List.map_append, List.zipIdx_singleton, Nat.zero_add, List.filter_cons, List.filter_nil,
    beq_iff_eq]
  split <;> rfl

/-- Each core number is dealt one of each round, and those below the remainder one more. -/
theorem length_dealt {α : Type} (n : Nat) {c : Nat} (hc : c < max 1 n) (l : List α) :
    (dealt n c l).length = l.length / max 1 n + if c < l.length % max 1 n then 1 else 0 := by
  have hn : 0 < max 1 n := Nat.lt_of_lt_of_le Nat.one_pos (Nat.le_max_left 1 n)
  induction l using list_append_induction with
  | nil => simp [dealt]
  | append l a ih =>
    rw [dealt_append_singleton, List.length_append, ih, List.length_append, List.length_singleton]
    generalize max 1 n = k at *
    rcases succ_div_mod hn l.length with ⟨hm, hd⟩ | ⟨hr, hm, hd⟩
    · rw [hm, hd]
      rcases Nat.lt_trichotomy c (l.length % k) with h | h | h
      · rw [if_pos h, if_neg (by omega), if_pos (by omega), List.length_nil, Nat.add_zero]
      · rw [if_neg (by omega), if_pos h.symm, if_pos (by omega), List.length_singleton]
      · rw [if_neg (by omega), if_neg (by omega), if_neg (by omega), List.length_nil]
    · rw [hm, hd, if_neg (Nat.not_lt_zero c)]
      by_cases h : l.length % k = c
      · rw [if_neg (by omega), if_pos h, List.length_singleton]
      · rw [if_pos (by omega), if_neg h, List.length_nil]

/-- The place of an element among those dealt to its core number. -/
theorem getElem?_dealt {α : Type} (n : Nat) (l : List α) {i : Nat} (hi : i < l.length) :
    (dealt n (i % max 1 n) l)[i / max 1 n]? = l[i]? := by
  have hn : 0 < max 1 n := Nat.lt_of_lt_of_le Nat.one_pos (Nat.le_max_left 1 n)
  have hlen : ∀ l : List α, (dealt n (l.length % max 1 n) l).length = l.length / max 1 n := fun l => by
    rw [length_dealt n (Nat.mod_lt _ hn), if_neg (Nat.lt_irrefl _), Nat.add_zero]
  induction l using list_append_induction with
  | nil => cases hi
  | append l a ih =>
    rw [dealt_append_singleton]
    rcases Nat.lt_or_ge i l.length with h | h
    · have hget : (dealt n (i % max 1 n) l)[i / max 1 n]? = some l[i] := (ih h).trans (List.getElem?_eq_getElem h)
      rw [List.getElem?_append_left (List.getElem?_eq_some_iff.mp hget).1, hget, List.getElem?_append_left h, List.getElem?_eq_getElem h]
    · obtain rfl : i = l.length := by simp only [List.length_append, List.length_singleton] at hi; omega
      rw [if_pos rfl, ← hlen l, List.getElem?_concat_length, List.getElem?_concat_length]

/-- Where each core's results are those of the tiles dealt to it, what is gathered is the result of each tile in turn. -/
theorem gatherTiles_dealt (f : List (List Lane) → TileRes) (tiles : List (List (List Lane))) {shares : List CoreTiles} (hne : shares ≠ [])
    (h : ∀ c, c < shares.length → (shares.getD c {}).done = (dealt shares.length c tiles).map f) :
    gatherTiles tiles.length shares = tiles.map f := by
  have hpos : 0 < shares.length := List.length_pos_iff.mpr hne
  have hget : ∀ i ∈ List.range tiles.length,
      ((shares.getD (i % max 1 shares.length) {}).done)[i / max 1 shares.length]? = some (f (tiles.getD i [])) := fun i hi => by
    have hi := List.mem_range.mp hi
    have hc : i % max 1 shares.length < shares.length := by rw [Nat.max_eq_right hpos]; exact Nat.mod_lt _ hpos
    rw [h _ hc, List.getElem?_map, getElem?_dealt _ _ hi, List.getD_eq_getElem?_getD, List.getElem?_eq_getElem hi]
    rfl
  rw [gatherTiles, filterMap_eq_map_of_some hget]
  exact List.ext_getElem (by simp) fun i h _ => by simp at h; simp [h]

/-! The course of a dot product, with SPL set or not (R65, R131). -/

/-- The engine but for what staging SRAM holds. -/
def World.unstaged (w : World) : World := { w with mem := { w.mem with staging := [] } }

theorem World.eq_of_unstaged {w w' : World} (h : w'.unstaged = w.unstaged) : w' = { w with mem := { w.mem with staging := w'.mem.staging } } :=
  congrArg (fun v : World => { v with mem := { v.mem with staging := w'.mem.staging } }) h

@[simp] theorem World.storeStaging_unstaged (w : World) (core off : Nat) (bs : Bytes) : (w.storeStaging core off bs).unstaged = w.unstaged := rfl

@[simp] theorem World.putSpill_unstaged (w : World) (r : Run) (core k : Nat) (accs : List (List EAcc)) :
    (w.putSpill r core k accs).unstaged = w.unstaged := foldl_keeps World.unstaged (fun _ _ => World.storeStaging_unstaged ..) _ _

/-- Spill entries go to staging SRAM (R65). -/
@[simp] theorem World.spillTiles_unstaged (w : World) (r : Run) (core : Nat) (old new : CoreTiles) :
    (w.spillTiles r core old new).unstaged = w.unstaged := by
  have hdone := fun l : List (TileRes × Nat) => foldl_keeps World.unstaged
    (fun (w : World) (x : TileRes × Nat) => w.putSpill_unstaged r core (old.done.length + x.2) x.1.accs) l w
  unfold World.spillTiles
  split
  · rfl
  · split
    · exact (World.putSpill_unstaged ..).trans (hdone _)
    · exact hdone _

theorem Run.length_groupCosts (r : Run) (listed : List Nat) : (r.groupCosts listed).length = cdiv r.d.k r.group := by
  simp [Run.groupCosts]

theorem mem_dealt {α : Type} {n c : Nat} {l : List α} {a : α} (h : a ∈ dealt n c l) : a ∈ l := by
  obtain ⟨x, hx, rfl⟩ := List.mem_map.mp h
  exact List.fst_mem_of_mem_zipIdx (List.mem_filter.mp hx).1

/-- A share that has not begun has no spill entries to read back. -/
@[simp] theorem World.resumeTiles_empty (w : World) (r : Run) (core : Nat) : w.resumeTiles r core {} = {} := by
  unfold World.resumeTiles; split <;> rfl

/-- The shares of the cores as a dot product leaves them. -/
def World.endShares (w : World) (r : Run) (k : DotWork) : List CoreTiles := (w.runShares r k).map fun s => s.2

@[simp] theorem World.length_endShares (w : World) (r : Run) (k : DotWork) : (w.endShares r k).length = r.cores.length := by
  simp [World.endShares, World.runShares]

/-- The engine with the spill entries of a dot product's tiles in staging SRAM (R65). -/
def World.spilled (w : World) (r : Run) (k : DotWork) : World :=
  (r.cores.zip (w.runShares r k)).foldl (fun w x => w.spillTiles r x.1 x.2.1 x.2.2) w

@[simp] theorem World.spilled_unstaged (w : World) (r : Run) (k : DotWork) : (w.spilled r k).unstaged = w.unstaged :=
  foldl_keeps World.unstaged (fun _ _ => World.spillTiles_unstaged ..) _ _

/-- A dot product that runs whole from its start runs each core's share to its end. -/
theorem World.runShares_whole {w : World} {r : Run} {k : DotWork} (hpart : r.part = none) (htiles : r.tiles = []) (hne : ∀ t ∈ k.tiles, t ≠ [])
    {c : Nat} (hc : c < r.cores.length) :
    ((w.endShares r k).getD c {}).over (dealt r.cores.length c k.tiles) = true ∧
      ((w.endShares r k).getD c {}).done = (dealt r.cores.length c k.tiles).map (runTile r.dotCfg (cdiv r.d.k r.group)) := by
  have h := CoreTiles.run_whole r.dotCfg { cost := r.groupCosts k.listed, limit := w.pt.issue }
    (tiles := dealt r.cores.length c k.tiles) (fun t ht => hne t (mem_dealt ht))
  simp only [Run.length_groupCosts] at h
  simpa [World.endShares, World.runShares, hpart, htiles, hc, Run.length_groupCosts] using h

/-- A whole dot product finishes with the results of its tiles; with SPL set the spill entries are in staging SRAM besides (R65). -/
theorem World.runDot_whole {w : World} {r : Run} {k : DotWork} (finish : World → List TileRes → World × Done) (hpart : r.part = none)
    (hcores : r.cores ≠ []) (hne : ∀ t ∈ k.tiles, t ≠ []) :
    let dots := k.tiles.map (runTile r.dotCfg (cdiv r.d.k r.group))
    (r.d.spl = 0 → w.runDot r k finish = finish w dots) ∧
    (r.d.spl ≠ 0 → r.tiles = [] → ∃ staging, w.runDot r k finish = finish { w with mem := { w.mem with staging := staging } } dots) := by
  refine ⟨fun hspl => ?_, fun hspl htiles => ?_⟩
  · simp [World.runDot, hpart, hspl]
  · have hall : (List.range (w.endShares r k).length).all
        (fun c => ((w.endShares r k).getD c {}).over (dealt r.cores.length c k.tiles)) = true :=
      List.all_eq_true.mpr fun c hc => (World.runShares_whole hpart htiles hne (by simpa using hc)).1
    have hgather := gatherTiles_dealt (runTile r.dotCfg (cdiv r.d.k r.group)) k.tiles (shares := w.endShares r k)
      (by simpa [← List.length_pos_iff] using hcores)
      (fun c hc => by rw [World.length_endShares] at hc ⊢; exact (World.runShares_whole hpart htiles hne hc).2)
    refine ⟨(w.spilled r k).mem.staging, ?_⟩
    rw [← World.eq_of_unstaged (World.spilled_unstaged w r k), ← hgather, World.runDot, if_neg (by simp [hspl])]
    exact if_pos hall

/-! Matrix operations and reductions (R56, R70). -/

/-- A place below the number of blocks is the start of a block that is not empty. -/
theorem mul_lt_of_lt_cdiv {m b i : Nat} (hb : 0 < b) (h : i < cdiv m b) : i * b < m := by
  have := (Nat.le_div_iff_mul_le hb).mp (Nat.succ_le_of_lt h)
  rw [Nat.succ_mul] at this
  omega

theorem tileShape_pos (shp : Nat) : 0 < (tileShape shp).1 ∧ 0 < (tileShape shp).2 := by
  unfold tileShape; split <;> exact ⟨by decide, by decide⟩

/-- Every tile of a result has an element. -/
theorem tileBoxes_pos {shp m n : Nat} {b : TileBox} (h : b ∈ tileBoxes shp m n) : 0 < b.h ∧ 0 < b.w := by
  obtain ⟨hth, htw⟩ := tileShape_pos shp
  obtain ⟨i, hi, h⟩ := List.mem_flatMap.mp h
  obtain ⟨j, hj, rfl⟩ := List.mem_map.mp h
  exact ⟨Nat.lt_min.mpr ⟨hth, Nat.sub_pos_of_lt (mul_lt_of_lt_cdiv hth (List.mem_range.mp hi))⟩,
    Nat.lt_min.mpr ⟨htw, Nat.sub_pos_of_lt (mul_lt_of_lt_cdiv htw (List.mem_range.mp hj))⟩⟩

theorem TileBox.lanes_ne_nil {b : TileBox} (hh : 0 < b.h) (hw : 0 < b.w) (lane : Nat → Nat → Lane) : b.lanes lane ≠ [] := by
  have hpos : ∀ n, 0 < n → 0 < cdiv n 16 := fun n hn => Nat.div_pos (by omega) (by decide)
  exact List.ne_nil_of_mem (List.mem_flatMap.mpr ⟨0, List.mem_range.mpr (hpos _ hh), List.mem_map.mpr ⟨0, List.mem_range.mpr (hpos _ hw), rfl⟩⟩)

theorem chunks_ne_nil {α : Type} (n : Nat) {l : List α} (h : l ≠ []) : chunks n l ≠ [] := by
  cases l with
  | nil => exact absurd rfl h
  | cons a l => exact List.cons_ne_nil _ _

theorem ne_nil_of_mem_chunksAux {α : Type} {n f : Nat} (hn : 0 < n) {l x : List α} (h : x ∈ chunksAux n f l) : x ≠ [] := by
  induction f generalizing l with
  | zero => cases h
  | succ f ih =>
    cases l with
    | nil => cases h
    | cons a l =>
      rcases List.mem_cons.mp h with rfl | h
      · obtain ⟨k, rfl⟩ : ∃ k, n = k + 1 := ⟨n - 1, by omega⟩
        exact List.cons_ne_nil _ _
      · exact ih h

theorem runLanes_ne_nil {shp m : Nat} {lane : Nat → Lane} {t : List (List Lane)} (h : t ∈ runLanes shp m lane) : t ≠ [] := by
  obtain ⟨x, hx, rfl⟩ := List.mem_map.mp h
  exact chunks_ne_nil _ (ne_nil_of_mem_chunksAux (by omega) hx)

/-- On a stage with cores each element goes through the output stage as the core that runs it has it set (R72, R108). -/
theorem World.ostRows_eq (w : World) {r : Run} (int : Bool) {core : Nat → Nat → Nat} (hcores : r.cores ≠ [])
    (hc : ∀ i j, core i j < r.cores.length) (rows : List (List AccVal)) :
    w.ostRows r int core rows = rows.zipIdx.map (fun (row, i) => row.zipIdx.map (fun (x, j) =>
      ostEl (w.ostCfg r (r.cores.getD (core i j) 0) int) j x)) := by
  simp [World.ostRows, List.isEmpty_eq_false_iff.mpr hcores, hc]

/-- A number modulo the number of cores is a core number. -/
theorem Run.mod_cores_lt {r : Run} (hcores : r.cores ≠ []) (n : Nat) : n % max 1 r.cores.length < r.cores.length := by
  have := List.length_pos_iff.mpr hcores
  rw [Nat.max_eq_right this]
  exact Nat.mod_lt _ this

/-- The engine with the result of a rule recorded, where the rule answers one. -/
def Run.recorded (r : Run) (x : World × Done) : World := x.2.elim x.1 (fun res => x.1.executed r.t.id r.g res)

section
variable {c : Instr} {s : State} {q n g opc : Nat} {mods : Nat → Bool} {extra : World → Run → List Fail}
  {reads : World → Run → List (List Region)} {run : World → Run → World × Done} {w : World} {r : Run}

/-- A command whose operation is ready and whole leaves what its rule gives. -/
theorem gives_recorded {x : World × Done} (h : World.ready s q n g opc mods extra reads w r)
    (he : exec c s = s.operate q n g [] opc mods extra reads run) (hrun : run w r = x) : Gives c s (r.recorded x) := by
  obtain ⟨v, _ | res⟩ := x
  · have hwhole : r.part.isNone = true := by rw [h.2]; rfl
    exact gives_of_eq he ((World.operate_ready h.1).trans (World.execute_none (.inl hwhole) hrun))
  · exact gives_ready h he hrun

/-- A command of a dot product leaves what the rule makes of the results of its tiles, with SPL set on the engine whose staging SRAM holds
the spill entries besides (R65). -/
theorem gives_dot {k : DotWork} {finish : World → List TileRes → World × Done} {result : World → World}
    (h : World.ready s q n g opc mods extra reads w r) (he : exec c s = s.operate q n g [] opc mods extra reads run)
    (hrun : run w r = w.runDot r k finish) (hcores : r.cores ≠ []) (hne : ∀ t ∈ k.tiles, t ≠ [])
    (hres : ∀ v, r.recorded (finish v (k.tiles.map (runTile r.dotCfg (cdiv r.d.k r.group)))) = result v) :
    (r.d.spl = 0 → Gives c s (result w)) ∧
    (r.d.spl ≠ 0 → r.tiles = [] → ∃ staging, Gives c s (result { w with mem := { w.mem with staging := staging } })) := by
  obtain ⟨hplain, hspill⟩ := World.runDot_whole finish h.2 hcores hne
  refine ⟨fun hs => ?_, fun hs ht => ?_⟩
  · rw [← hres]
    exact gives_recorded h he (hrun.trans (hplain hs))
  · obtain ⟨staging, hstaging⟩ := hspill hs ht
    refine ⟨staging, ?_⟩
    rw [← hres]
    exact gives_recorded h he (hrun.trans hstaging)

end

/-- The inputs of element (i, j) of a matrix operation: its pairs, as the core that runs it reads them, and its element of C (R56, R57). -/
def World.matLane (w : World) (r : Run) (pairs : List (List El) → List (List El) → Nat → Nat → List (El × El)) (i j : Nat) : Lane :=
  { gs := chunks r.group (pairs (coreCopy (w.tensors r 0 r.ftz) (tileCore r i j)) (coreCopy (w.tensors r 1 r.ftz) (tileCore r i j)) i j)
    c0 := if r.d.cin then some ((((coreCopy (w.tensors r 2 false) (tileCore r i j)).getD i []).map (·.x)).getD j (.zero false)) else none }

/-- The tiles of a matrix operation; where CIN is clear it does not matter that they have no C. -/
theorem World.matWork_tiles (w : World) (r : Run) : (w.matWork r).tiles =
    (tileBoxes r.d.shp (r.o 3).rows (r.o 3).els).map (fun b => b.lanes (w.matLane r fun a b i j => lanePairs r.d.opc r.d.k i j a b)) := by
  unfold World.matWork World.matLane
  cases r.d.cin <;> rfl

/-- The inputs of element `i` of a REDUCE of kind SUM or SUMSQ (R70). -/
def World.reduceLane (w : World) (r : Run) (one : El → El) (i : Nat) : Lane :=
  { gs := chunks r.group (((w.rowsFor r (reduceCore r)).getD i []).map (fun e => (e, one e)))
    c0 := if r.d.cin then some ((((coreCopy (w.tensors r 2 false) (reduceCore r i)).headD []).map (·.x)).getD i (.zero false)) else none }

theorem World.reduceWork_tiles (w : World) (r : Run) (squares : Bool) :
    (w.reduceWork r squares).tiles = runLanes r.d.shp r.d.m (w.reduceLane r fun e => if squares then e else elOne) := by
  unfold World.reduceWork World.reduceLane
  cases r.d.cin <;> rfl

theorem tileCore_lt {r : Run} (hcores : r.cores ≠ []) (i j : Nat) : tileCore r i j < r.cores.length := Run.mod_cores_lt hcores _
theorem reduceCore_lt {r : Run} (hcores : r.cores ≠ []) (i : Nat) : reduceCore r i < r.cores.length := Run.mod_cores_lt hcores _

/-- What a matrix operation makes of the results of its tiles (R72, R77). -/
def finishMat (r : Run) (flushed : Nat) (v : World) (ts : List TileRes) : World × Done :=
  v.writeOutput r (v.ostRows r (r.d.acc == cI32) (tileCore r) (tileRows r.d.shp (r.o 3).rows (r.o 3).els ts)) flushed (dotTotal ts) (tileOwner r)

theorem runMat_eq (w : World) (r : Run) : runMat w r = w.runDot r (w.matWork r) (finishMat r (w.matWork r).flushed) := rfl

/-- What a REDUCE of kind SUM or SUMSQ makes of the results of its tiles (R70). -/
def finishReduce (r : Run) (flushed : Nat) (v : World) (ts : List TileRes) : World × Done :=
  v.writeOutput r (v.ostRows r (r.d.acc == cI32) (fun _ j => reduceCore r j) [ts.flatMap (fun t => t.vals.flatten)]) flushed (dotTotal ts)
    (reduceOwner r (reduceCore r))

theorem runReduceDot_eq (squares : Bool) (w : World) (r : Run) :
    runReduceDot squares w r = w.runDot r (w.reduceWork r squares) (finishReduce r (w.reduceWork r squares).flushed) := rfl

/-- Settles O12: each command runs the rule of its row, on tiles whose elements have the pairs of the statement. A dot product finishes with
the results of these tiles also where it runs by the shares of the cores (`World.runDot_whole`), and its output stage is set as the
core of each element has it. -/
theorem matrixAndReduceResults : Obligations.MatrixAndReduceResults := by
  refine ⟨fun s q n g w r => ?matrix, fun s q n g w r => ?reduce⟩
  case matrix =>
    intro as bs cs z at_ boxes done result gives hcores
    have key : ∀ {c : Instr} {opc : Nat}, exec c s = s.operate q n g [] opc anyMod noExtra wholeReads runMat →
        World.ready s q n g opc anyMod noExtra wholeReads w r → gives c (fun a b i j => lanePairs opc r.d.k i j a b) := fun {_ opc} he h => by
      obtain ⟨rfl, -⟩ := World.prepare_row h.1
      refine gives_dot (result := result fun a b i j => lanePairs r.d.opc r.d.k i j a b) h he (runMat_eq w r) hcores (fun t ht => ?_) fun v => ?_
      · rw [World.matWork_tiles] at ht
        obtain ⟨b, hb, rfl⟩ := List.mem_map.mp ht
        exact TileBox.lanes_ne_nil (tileBoxes_pos hb).1 (tileBoxes_pos hb).2 _
      · rw [finishMat, World.ostRows_eq v _ hcores (tileCore_lt hcores), World.matWork_tiles, List.map_map]
        rfl
    exact ⟨key rfl, key rfl, key rfl⟩
  case reduce =>
    intro done exact_ ix ready
    refine ⟨fun h => gives_recorded h rfl rfl, fun h => gives_recorded h rfl rfl, fun h => gives_recorded h rfl rfl,
      fun h => gives_recorded h rfl rfl, fun h => gives_recorded h rfl rfl, ?_⟩
    intro core rows cs dot gives hcores
    have key : ∀ {c : Instr} {m : Nat} (squares : Bool), exec c s = s.operate q n g [] 0x23 (modIs 7 m) noExtra wholeReads (runReduceDot squares) →
        ready m → gives c (fun e => if squares then e else elOne) := fun squares he h => by
      refine gives_dot (result := dot fun e => if squares then e else elOne) h he (runReduceDot_eq squares w r) hcores (fun t ht => ?_) fun v => ?_
      · exact runLanes_ne_nil (w.reduceWork_tiles r squares ▸ ht)
      · rw [finishReduce, World.ostRows_eq v _ hcores (fun _ => reduceCore_lt hcores), World.reduceWork_tiles]
        rfl
    exact ⟨key false rfl, key true rfl⟩

/-! What a CKPT copies, and what it writes (R225, R388; Table 15.12). -/

/-- What a CKPT rests on besides memory: the scale slots, the step counter and the checkpoint that is staged (R225). -/
def World.ckptSource (w : World) : Num × Nat × Option Ckpt := (w.num, w.train.stepCtr, w.job.ckNext)

@[simp] theorem World.foldl_ckptSource {β : Type} {f : World → β → World} (h : ∀ w b, (f w b).ckptSource = w.ckptSource) (l : List β)
    (w : World) :
    (l.foldl f w).ckptSource = w.ckptSource := foldl_keeps World.ckptSource h l w

@[simp] theorem World.send_ckptSource (w : World) (o : Out) : (w.send o).ckptSource = w.ckptSource := rfl
@[simp] theorem World.updPort_ckptSource (w : World) (k : Nat) (f : Port → Port) : (w.updPort k f).ckptSource = w.ckptSource := rfl
@[simp] theorem World.updColl_ckptSource (w : World) (seq : Nat) (f : Coll → Coll) : (w.updColl seq f).ckptSource = w.ckptSource := rfl
@[simp] theorem World.takeCredit_ckptSource (w : World) (n : Nat) : (w.takeCredit n).ckptSource = w.ckptSource := rfl
@[simp] theorem World.store_ckptSource (w : World) (a : Nat) (bs : Bytes) : (w.store a bs).ckptSource = w.ckptSource := rfl
@[simp] theorem World.storeStaging_ckptSource (w : World) (core a : Nat) (bs : Bytes) : (w.storeStaging core a bs).ckptSource = w.ckptSource := rfl
@[simp] theorem World.updTask_ckptSource (w : World) (id : TaskId) (f : Task → Task) : (w.updTask id f).ckptSource = w.ckptSource := rfl
@[simp] theorem World.unnoise_ckptSource (w : World) (id : TaskId) (a n : Nat) : (w.unnoise id a n).ckptSource = w.ckptSource := rfl

@[simp] theorem World.pump_ckptSource (w : World) (k : Nat) : (w.pump k).ckptSource = w.ckptSource := by
  refine World.foldl_ckptSource (fun w b => ?_) _ _
  simp only [World.pumpOne]; split <;> simp
@[simp] theorem World.launchFrom_ckptSource (w : World) (src vc dst : Nat) (bytes : Bytes) (lvl : Option Nat) :
    (w.launchFrom src vc dst bytes lvl).ckptSource = w.ckptSource := by
  unfold World.launchFrom; split <;> simp
@[simp] theorem World.sendWaiting_ckptSource (w : World) (x : Waiting) : (w.sendWaiting x).ckptSource = w.ckptSource := by
  simp only [World.sendWaiting]; (repeat' split) <;> simp [World.launch]
@[simp] theorem World.request_ckptSource (w : World) (dst : Nat) (m : Bytes) : (w.request dst m).ckptSource = w.ckptSource := by
  unfold World.request World.credited
  split
  · simp
  · rfl
@[simp] theorem World.messageBytes_ckptSource (w : World) (typ dst tag addr : Nat) (data : Bytes) (sealIt : Bool) :
    (w.messageBytes typ dst tag addr data sealIt).1.ckptSource = w.ckptSource := by
  unfold World.messageBytes; split <;> rfl
@[simp] theorem World.storeFar_ckptSource (w : World) (id : TaskId) (l a : Nat) (bs : Bytes) (sealIt : Bool) :
    (w.storeFar id l a bs sealIt).ckptSource = w.ckptSource := by
  unfold World.storeFar
  split
  · rfl
  · refine World.foldl_ckptSource (fun w p => ?_) _ _
    simp
    rfl

/-- A write of an operation leaves the scale slots, the step counter and the staged checkpoint. -/
@[simp] theorem World.put_ckptSource (w : World) (r : Run) (l : Loc) (a : Nat) (bs : Bytes) (owner : Nat → Nat) :
    (w.put r l a bs owner).ckptSource = w.ckptSource := by
  unfold World.put
  split
  case h_1 => simp
  case h_2 => simp
  case h_3 =>
    split
    · simp
    · exact (World.foldl_ckptSource (fun _ _ => World.storeStaging_ckptSource ..) _ _).trans (World.unnoise_ckptSource ..)

/-- The staged checkpoint that a CKPT of a task enters its tenant in: the task's own, or a new one (R225). -/
def World.ckptOf (w : World) (id : TaskId) : Ckpt :=
  match w.job.ckNext with
  | some c => if c.task == id then c else { task := id, slots := w.num.slots, stepCtr := w.train.stepCtr }
  | none => { task := id, slots := w.num.slots, stepCtr := w.train.stepCtr }

theorem World.ckptOf_task (w : World) (id : TaskId) : (w.ckptOf id).task = id := by
  unfold World.ckptOf
  split
  · split
    · exact eq_of_beq (by assumption)
    · rfl
  · rfl

/-- A first CKPT copies the scale slots and the step counter, as they stood before it wrote. -/
theorem World.ckptOf_first {w w' : World} (id : TaskId) (hs : w'.ckptSource = w.ckptSource) (h : w.job.ckNext = none) :
    (w'.ckptOf id).slots = w.num.slots ∧ (w'.ckptOf id).stepCtr = w.train.stepCtr := by
  simp only [World.ckptSource, Prod.mk.injEq] at hs
  obtain ⟨hn, hc, hj⟩ := hs
  simp only [World.ckptOf, hj, h, hn, hc, and_self]

theorem runCkpt_placed {v : Vault} {w : World} {r : Run} {l : Loc} {a : Nat} (h : (r.o 3).place = some (l, a)) :
    runCkpt v w r =
      let w' := w.put r l a (w.ckptBytes (r.t.tenant.getD 0) (v.tenantOf r.t)) (fun _ => 0)
      let c := w'.ckptOf r.t.id
      (if r.t.kind = 2 then
        { w' with job := { w'.job with ckNext := some { c with tenants := c.tenants ++ [(r.t.tenant.getD 0, a, (v.tenantOf r.t).since)] } } }
      else w', some r.ok) := by
  simp only [runCkpt, h]
  rfl

theorem leVal_leBytes (n v : Nat) : leVal (leBytes n v) = v % 2 ^ (8 * n) := by
  induction n generalizing v with
  | zero => simp [leBytes, leVal, Nat.mod_one]
  | succ n ih =>
    have hpow : 2 ^ (8 * (n + 1)) = 256 * 2 ^ (8 * n) := by rw [Nat.mul_succ, Nat.pow_add, Nat.mul_comm]
    simp only [leBytes, leVal, ih, byteOf, BitVec.toNat_ofNat]
    rw [hpow, Nat.mod_mul]
    omega

/-- A checkpoint is its header of 128 bytes, which begins with the tenant's number, and the live generation (Table 15.12). -/
theorem World.length_ckptBytes (w : World) (id : Nat) (t : Tenant) : (w.ckptBytes id t).length = 128 + t.genLen := by
  simp only [World.ckptBytes, World.load, zeros, List.length_append, List.length_replicate, List.length_singleton, Laws.Blob.slice_length,
    Laws.Blob.leBytes_length, Tab.length_getRun]

theorem World.leVal_take_ckptBytes (w : World) (id : Nat) (t : Tenant) : leVal ((w.ckptBytes id t).take 2) = id % 2 ^ 16 := by
  have h : (w.ckptBytes id t).take 2 = leBytes 2 id := by
    simp only [World.ckptBytes, List.append_assoc]
    exact List.take_left' (Laws.Blob.leBytes_length 2 id)
  rw [h, leVal_leBytes]

/-! Updates of scale slots (R80). -/

/-- One slot takes its update (R80, R184). -/
def World.updateSlot (w : World) (id : TaskId) (x : Nat) (p : Option Int) : World :=
  let w := w.touchSlot id x
  let u := (w.num.slots.get {} x).update w.num.defD w.num.defH p
  { w with num := { w.num with
      slots := w.num.slots.set {} x u.1
      confScale := if u.2 then sat32 w.num.confScale 1 else w.num.confScale } }

theorem World.updateSlots_append (w : World) (id : TaskId) (m : Nat) (l : List (Option Int)) (p : Option Int) :
    w.updateSlots id m (l ++ [p]) = (w.updateSlots id m l).updateSlot id (m + l.length) p := by
  simp only [World.updateSlots, List.zipIdx_append, List.foldl_append, List.zipIdx_singleton, List.foldl_cons, List.foldl_nil, Nat.zero_add]
  rfl

theorem World.updateSlot_get (w : World) (id : TaskId) (x y : Nat) (p : Option Int) : (w.updateSlot id x p).num.slots.get {} y =
    if y = x then ((w.num.slots.get {} x).update w.num.defD w.num.defH p).1 else w.num.slots.get {} y := Tab.get_set ..

/-- Each slot that an update names is updated with its pending exponent, and no other; the defaults are as they were (R80). -/
theorem World.updateSlots_num (w : World) (id : TaskId) (m : Nat) (pend : List (Option Int)) :
    (w.updateSlots id m pend).num.defD = w.num.defD ∧ (w.updateSlots id m pend).num.defH = w.num.defH ∧
    ∀ x, (w.updateSlots id m pend).num.slots.get {} x = if m ≤ x ∧ x < m + pend.length then
      ((w.num.slots.get {} x).update w.num.defD w.num.defH (pend.getD (x - m) none)).1 else w.num.slots.get {} x := by
  induction pend using list_append_induction with
  | nil => exact ⟨rfl, rfl, fun x => (if_neg (by simp)).symm⟩
  | append l p ih =>
    obtain ⟨hd, hh, hget⟩ := ih
    rw [World.updateSlots_append]
    refine ⟨hd, hh, fun x => ?_⟩
    rw [World.updateSlot_get, hd, hh, hget, hget, List.length_append, List.length_singleton]
    rcases Nat.lt_trichotomy x (m + l.length) with hx | rfl | hx
    · by_cases hm : m ≤ x
      · rw [if_neg (by omega), if_pos ⟨hm, hx⟩, if_pos (by omega), List.getD_eq_getElem?_getD, List.getD_eq_getElem?_getD,
          List.getElem?_append_left (by omega)]
      · rw [if_neg (by omega), if_neg (by omega), if_neg (by omega)]
    · rw [if_pos rfl, if_neg (by omega), if_pos (by omega)]
      simp
    · rw [if_neg (by omega), if_neg (by omega), if_neg (by omega)]

@[simp] theorem World.updateSlots_mem (w : World) (id : TaskId) (m : Nat) (pend : List (Option Int)) : (w.updateSlots id m pend).mem = w.mem :=
  foldl_keeps World.mem (by exact fun _ _ => rfl) _ _

/-! Conversion, scales, saved streams, random numbers and the operations of a step (R72, R79, R180 to R191). -/

theorem rowCore_lt {n : Nat} (hn : 0 < n) (i : Nat) : rowCore n i < n := by
  rw [rowCore, Nat.max_eq_right hn]
  exact Nat.mod_lt _ hn

/-- The conditions that CLIPNOISE refuses do not hold under its task's codes and its step's one clip norm (R186, R190). -/
theorem clipnoise_admitted {w : World} {r : Run} {x : Step} (hcodes : (r.d.par 44 1, r.d.par 45 1) = (r.t.sigma, r.t.q))
    (hctr : w.train.stepCtr ≠ 0xFFFFFFFF) (hclip : ∀ f, x.frozen = some f → f.clip = r.d.par 48 4) :
    ¬(r.d.par 44 1 ≠ r.t.sigma ∨ r.d.par 45 1 ≠ r.t.q ∨ w.train.stepCtr = 0xFFFFFFFF ∨
      x.frozen.any (fun f => decide (f.clip ≠ r.d.par 48 4)) = true) := by
  obtain ⟨hs, hq⟩ := Prod.mk.inj hcodes
  cases hf : x.frozen with
  | none => simp [hs, hq, hctr]
  | some f => simp [hs, hq, hctr, hclip f hf]

section
variable {c : Instr} {s : State} {q n g opc : Nat} {mods : Nat → Bool} {extra : World → Run → List Fail}
  {reads : World → Run → List (List Region)} {w : World} {r : Run}

/-- A whole operation that draws words and finishes rows writes them to D and counts the words (R188). -/
theorem gives_drawn {words flushed : Nat} {rows : List (List XV)} (run : World → Run → World × Done)
    (hrun : run w r = (w.drew words).finishRows r flushed rows) (he : exec c s = s.operate q n g [] opc mods extra reads run)
    (h : World.ready s q n g opc mods extra reads w r) :
    Gives c s (((w.drew words).putD r (r.converted rows)).executed r.t.id r.g
      (r.counted { r.conversions rows with flush := (r.conversions rows).flush + flushed })) :=
  gives_ready h he (hrun.trans (World.finishRows_whole _ h.2 flushed rows))

end

/-- Settles O16, a command at a time: the operation runs the rule of its row (`gives_ready`), and each case gives what that rule answers.
CONVERT turns on the core of each row, SCALEUPD on `World.updateSlots_num`, a first CKPT on what its write leaves
(`World.put_ckptSource`). -/
theorem scaleSaveAndTrainResults : Obligations.ScaleSaveAndTrainResults := by
  refine ⟨fun s q n g w r => ?convert, fun s q n g w r => ?saved, fun s q n g w r => ?random, fun s q n g w r x hx => ?steps,
    fun s q n g w r l a => ?ckpt⟩
  case convert =>
    intro rows int t3 out
    refine ⟨fun hcores h => ?_, fun h => gives_ready h rfl rfl, fun h hm => ?_⟩
    · have hrun : runConvert w r = out := by
        rw [runConvert, World.ostRows_eq w _ hcores (fun i _ => rowCore_lt (List.length_pos_iff.mpr hcores) i)]
        simp only [List.zipIdx_map, List.map_map, Function.comp_def, Prod.map_fst, Prod.map_snd]
        rfl
      exact ⟨_, rfl, gives_ready h rfl (hrun.trans rfl)⟩
    · have hrun : runScaleupd w r = (w.updateSlots r.t.id r.d.m
          (((List.range r.d.n).map (· + r.d.m)).map (fun i => (w.num.slots.get {} i).pending)), some r.ok) := by
        rw [runScaleupd, hm]
        rfl
      obtain ⟨-, -, hget⟩ := w.updateSlots_num r.t.id r.d.m (((List.range r.d.n).map (· + r.d.m)).map (fun i => (w.num.slots.get {} i).pending))
      refine ⟨_, gives_ready h rfl hrun, World.updateSlots_mem .., fun i hi => ?_, fun y hy => ?_⟩
      · rw [hget, if_pos (by simpa using hi)]
        simp [hi, Nat.add_comm]
      · rw [hget, if_neg (by simp; omega)]
  case saved =>
    intro a codes stream
    refine ⟨fun l ad hd h => gives_ready h rfl ?_, fun rows hrows h => gives_ready h rfl ?_⟩
    · simp only [runActsave, hd]
      rfl
    · simp only [runActload, hrows]
  case random =>
    intro id word x out v1 v2 a
    refine ⟨fun l ad hd h => gives_ready (run := runRngbits s.vault) h rfl ?_, gives_drawn (runRnguni s.vault) rfl rfl,
      gives_drawn (runRnggauss s.vault) rfl rfl, gives_drawn (runDropout s.vault) rfl rfl⟩
    simp only [runRngbits, hd]
    rfl
  case steps =>
    refine ⟨fun h => gives_ready h rfl rfl, fun h hcodes hctr hclip => ?_⟩
    refine gives_ready (run := runClipnoise s.vault) h rfl ?_
    simp only [runClipnoise, hx]
    rw [if_neg (clipnoise_admitted hcodes hctr hclip), World.finishRows_whole _ h.2]
    rfl
  case ckpt =>
    intro id t bs h hd
    refine ⟨fun hk => ?_, fun hk => ?_, World.length_ckptBytes .., World.leVal_take_ckptBytes ..⟩
    · refine gives_ready (run := runCkpt s.vault) h rfl ?_
      rw [runCkpt_placed hd]
      exact congrArg (·, some r.ok) (if_neg hk)
    · have hrun := (runCkpt_placed (v := s.vault) (w := w) hd).trans (congrArg (·, some r.ok) (if_pos hk))
      refine ⟨_, gives_ready h rfl hrun, rfl, rfl, _, rfl, ?_, ?_, ?_⟩
      · exact World.ckptOf_task ..
      · exact List.getLast?_concat
      · exact World.ckptOf_first _ (World.put_ckptSource ..)

end Sys2Proof.Machine

namespace Sys2Proof.Machine

/-! What an update of a scale slot gives, by what the depth holds and the pin (R80). -/

/-- The slot with an entry put at the front of its history, before its scale moves (R80). -/
def Slot.entered (sl : Slot) (p : Option Int) : Slot :=
  { sl with hist := (p :: sl.hist).take 16, pending := none, updates := sat32 sl.updates 1 }

/-- The greatest exponent in the slot's depth, `none` where the depth holds none (R80). -/
def Slot.depthMax (sl : Slot) (defD : Nat) : Option Int := (sl.hist.take (sl.d.getD defD)).foldl maxExp none

/-- The scale that an exponent asks for, within the format's range and before the band (R80). -/
def Slot.asked (sl : Slot) (defH : Nat) (em : Int) : Int := clampI (em + (sl.h.getD defH : Nat) - 15) (-128) 127

section
variable {sl : Slot} {d h : Nat} {p : Option Int} {em : Int}

theorem Slot.update_of_empty (he : (sl.entered p).depthMax d = none) : sl.update d h p = (sl.entered p, false) := by
  simp only [Slot.depthMax, Slot.entered] at he
  simp only [Slot.update, he, Slot.entered]

theorem Slot.update_of_pinned (he : (sl.entered p).depthMax d = some em) (hp : sl.pinned = true) :
    sl.update d h p = (sl.entered p, clampI (sl.asked h em) sl.lo sl.hi != sl.s) := by
  simp only [Slot.depthMax, Slot.entered] at he
  simp only [Slot.update, he, hp, if_true, Slot.entered, Slot.asked]

theorem Slot.update_of_following (he : (sl.entered p).depthMax d = some em) (hp : sl.pinned = false) :
    sl.update d h p = ({ sl.entered p with s := clampI (sl.asked h em) sl.lo sl.hi }, clampI (sl.asked h em) sl.lo sl.hi != sl.asked h em) := by
  simp only [Slot.depthMax, Slot.entered] at he
  simp only [Slot.update, he, hp, Bool.false_eq_true, if_false, Slot.entered, Slot.asked]

/-- An update moves nothing of the slot but its scale beyond the entry in its history. -/
theorem Slot.update_eq_entered : ∃ v, (sl.update d h p).1 = { sl.entered p with s := v } := by
  cases he : (sl.entered p).depthMax d with
  | none => exact ⟨sl.s, congrArg Prod.fst (Slot.update_of_empty he)⟩
  | some em =>
    cases hp : sl.pinned with
    | true => exact ⟨sl.s, congrArg Prod.fst (Slot.update_of_pinned he hp)⟩
    | false => exact ⟨_, congrArg Prod.fst (Slot.update_of_following he hp)⟩

end

/-- Settles O14: the fields but the scale are those of the entered slot (`Slot.update_eq_entered`); the scale and the conflict are
given by one equation each for an empty depth, a following slot and a pinned one. -/
theorem scaleSlotUpdate : Obligations.ScaleSlotUpdate := by
  intro sl d h x hit depth e c
  obtain ⟨v, hx⟩ : ∃ v, x = { sl.entered sl.pending with s := v } := Slot.update_eq_entered
  refine ⟨congrArg Slot.hist hx, congrArg Slot.pending hx, congrArg Slot.updates hx, ?kept, fun he => ?empty, fun m he hp => ?following,
    fun m he hp => ?pinned⟩
  case kept => rw [hx]; rfl
  case empty =>
    have hup : sl.update d h sl.pending = _ := Slot.update_of_empty he
    exact ⟨congrArg (·.1.s) hup, congrArg (·.2) hup⟩
  case following =>
    have hup : sl.update d h sl.pending = _ := Slot.update_of_following he hp
    exact ⟨congrArg (·.1.s) hup, congrArg (·.2) hup⟩
  case pinned =>
    have hup : sl.update d h sl.pending = _ := Slot.update_of_pinned he hp
    exact ⟨congrArg (·.1.s) hup, congrArg (·.2) hup⟩

end Sys2Proof.Machine

namespace Sys2Proof.Machine

open Sys2Proof

/-! What an operation writes (R114 stage 6, R149). -/

/-- A write to local memory is a store of its bytes. -/
theorem World.put_wrote (w : World) (r : Run) (a : Nat) (bs : Bytes) (owner : Nat → Nat) : Wrote w (w.put r .here a bs owner) a bs :=
  (w.unnoise r.t.id (locKey .here a) bs.length).store_wrote a bs

/-- A stage of one core writes staging as a run of bytes in that core's SRAM. -/
theorem World.put_stg_mem (w : World) {r : Run} (hr : r.cores.length = 1) (a : Nat) (bs : Bytes) (owner : Nat → Nat) :
    (w.put r .stg a bs owner).mem = { w.mem with staging := w.mem.staging.setRun 0 (r.cores.headD 0 * 524288 + a) bs } := by
  simp only [World.put, hr, Nat.le_refl, if_true]
  rfl

/-- Settles O10: local memory by what a store leaves (`World.store_wrote`), staging by the read of a run that was written. -/
theorem operationWritesItsBytes : Obligations.OperationWritesItsBytes := by
  intro w r a bs owner
  refine ⟨w.put_wrote r a bs owner, fun hr => ⟨fun x => ?_, fun x => ?_⟩⟩
  · rw [World.put_stg_mem w hr]
  · rw [World.put_stg_mem w hr]
    exact Tab.get_setRun ..

/-! The operands of a run (R39, R102, R108, Table 5.11). -/

/-- An operand with the exponent of its slot, where its format has one. -/
def Opd.latched (o : Opd) (v : Int) : Opd := if o.fmt.code = cF16S then { o with fmt := { o.fmt with s := v } } else o

@[simp] theorem Opd.latched_shape (o : Opd) (v : Int) : (o.latched v).shape = o.shape := by unfold Opd.latched; split <;> rfl
@[simp] theorem Opd.latched_ext (o : Opd) (v : Int) : (o.latched v).ext = o.ext := by unfold Opd.latched; split <;> rfl
@[simp] theorem Opd.latched_code (o : Opd) (v : Int) : (o.latched v).fmt.code = o.fmt.code := by unfold Opd.latched; split <;> rfl
@[simp] theorem Opd.latched_slot (o : Opd) (v : Int) : (o.latched v).fmt.slot = o.fmt.slot := by unfold Opd.latched; split <;> rfl

theorem Opd.latched_s {o : Opd} (h : o.fmt.code = cF16S) (v : Int) : (o.latched v).fmt.s = v := by rw [Opd.latched, if_pos h]

/-- An operand of a run is that of its descriptor, with the exponent of its slot as it was latched, or as it stands (R39). -/
theorem World.runOf_o (w : World) (t : Task) (g : Nat) (st : Stage) {i : Nat} (hi : i < 4) :
    let r := w.runOf t g st
    let o := opdOf r.e r.d r.recs i
    r.o i = o.latched (st.slots.getD i (w.num.slots.get {} o.fmt.slot).s) := by
  intro r o
  have hget : r.os[i]? = some (o.latched (st.slots.getD o.ix (w.num.slots.get {} o.fmt.slot).s)) := by
    simp only [r, o, World.runOf, opdsOf, List.map_map, List.getElem?_map, List.getElem?_range hi, Option.map_some, Function.comp_apply, Opd.latched]
  rw [Run.o, List.getD_eq_getElem?_getD, hget]
  rfl

theorem World.runOf_shape (w : World) (t : Task) (g : Nat) (st : Stage) {i : Nat} (hi : i < 4) :
    let r := w.runOf t g st
    (r.o i).shape = shapeOf r.e r.d i ∧ (r.o i).ext = extOf (opdOf r.e r.d r.recs i).fmt (shapeOf r.e r.d i) := by
  intro r
  rw [w.runOf_o t g st hi, Opd.latched_shape, Opd.latched_ext]
  exact ⟨rfl, rfl⟩

end Sys2Proof.Machine

namespace Sys2Proof.Machine

open Sys2Proof

/-! How an operation starts, from the state in which its command finds it to the state in which it runs (R114 stages 1 to 5). -/

/-- The parts of the engine that stay as they are while an operation starts: the clock, the power state, the operating point, the host port, the scale
slots and the coherent values of memory. -/
def World.setting (w : World) : Clock × Power × OpPoint × HostPort × Num × Tab (BitVec 8) :=
  (w.clock, w.power, w.pt, w.host, w.num, w.mem.mem)

theorem World.setting_eq_iff {w w' : World} : w'.setting = w.setting ↔ w'.clock = w.clock ∧ w'.power = w.power ∧ w'.pt = w.pt ∧
    w'.host = w.host ∧ w'.num = w.num ∧ w'.mem.mem = w.mem.mem := by
  simp [World.setting]

/-- A task as an operation of its stage `g` changes it when it starts. -/
def Task.Begun (t t' : Task) (g : Nat) : Prop :=
  ∃ (f : Stage → Stage) (job : Bool) (fresh : List Nat) (asked : Option Nat),
    t' = { t with job := job, fresh := fresh, asked := asked, stgs := modAt t.stgs g f }

theorem Task.Begun.refl (t : Task) (g : Nat) : t.Begun t g :=
  ⟨fun s => s, t.job, t.fresh, t.asked, (congrArg (fun l => { t with stgs := l }) (List.modify_id g t.stgs)).symm⟩

/-- A start leaves of its task all but what it records there and the stage. -/
theorem Task.Begun.same {t t' : Task} {g : Nat} (h : t.Begun t' g) {α : Type} (p : Task → α)
    (hp : ∀ (t : Task) job fresh asked stgs, p { t with job := job, fresh := fresh, asked := asked, stgs := stgs } = p t) : p t' = p t := by
  obtain ⟨f, job, fresh, asked, rfl⟩ := h
  exact hp ..

theorem Task.Begun.stgs {t t' : Task} {g : Nat} (h : t.Begun t' g) : ∃ f, t'.stgs = modAt t.stgs g f := by
  obtain ⟨f, job, fresh, asked, rfl⟩ := h
  exact ⟨f, rfl⟩

theorem Task.Begun.modStage {t t' : Task} {g : Nat} (h : t.Begun t' g) (f : Stage → Stage) : t.Begun { t' with stgs := modAt t'.stgs g f } g := by
  obtain ⟨e, job, fresh, asked, rfl⟩ := h
  exact ⟨f ∘ e, job, fresh, asked, by simp [modAt, List.modify_modify_eq]⟩

theorem Task.Begun.mark {t t' : Task} {g : Nat} (h : t.Begun t' g) (job : Bool) (fresh : List Nat) (asked : Option Nat) :
    t.Begun { t' with job := job, fresh := fresh, asked := asked } g := by
  obtain ⟨e, -, -, -, rfl⟩ := h
  exact ⟨e, job, fresh, asked, rfl⟩

/-- Engine `v` is engine `w` with an operation of stage `g` of task `t` started: the stage stands with the descriptor and the points of
`st`. -/
structure World.Starts (w v : World) (t : Task) (g : Nat) (st : Stage) : Prop where
  setting : v.setting = w.setting
  stage : ∃ t' st', v.task? t.id = some t' ∧ t.Begun t' g ∧ t'.stgs[g]? = some st' ∧ st'.desc = st.desc ∧ st'.pts = st.pts

section
variable {w v v' : World} {t : Task} {g : Nat} {st st' : Stage}

theorem World.Starts.refl (ht : w.task? t.id = some t) (hst : t.stgs[g]? = some st) : w.Starts w t g st :=
  ⟨rfl, t, st, ht, .refl t g, hst, rfl, rfl⟩

theorem World.Starts.of_same (h : w.Starts v t g st) (hset : v'.setting = v.setting) (htask : v'.sched.tasks = v.sched.tasks) :
    w.Starts v' t g st := by
  obtain ⟨hs, u, su, hu, hrest⟩ := h
  exact ⟨hset.trans hs, u, su, by simpa only [World.task?, htask] using hu, hrest⟩

theorem World.Starts.updTask (h : w.Starts v t g st) (f : Task → Task) (job : Task → Bool) (fresh : Task → List Nat) (asked : Task → Option Nat)
    (hf : ∀ u, f u = { u with job := job u, fresh := fresh u, asked := asked u }) : w.Starts (v.updTask t.id f) t g st := by
  obtain ⟨hs, u, su, hu, hb, hsu, hd⟩ := h
  refine ⟨hs, f u, su, World.updTask_task? hu (fun x => by rw [hf]), ?_, ?_, hd⟩
  · rw [hf]; exact hb.mark ..
  · rw [hf]; exact hsu

theorem World.Starts.updStage (h : w.Starts v t g st) (f : Stage → Stage)
    (hf : ∀ x, x.desc = st.desc → x.pts = st.pts → (f x).desc = st'.desc ∧ (f x).pts = st'.pts) : w.Starts (v.updStage t.id g f) t g st' := by
  obtain ⟨hs, u, su, hu, hb, hsu, hd, hp⟩ := h
  refine ⟨hs, _, f su, World.updTask_task? hu (fun _ => rfl), hb.modStage f, ?_, hf su hd hp⟩
  simp [modAt, hsu]

/-- An operation that enters execution has started, with the stage as it was latched. -/
theorem World.Starts.enterOp (h : w.Starts w t g st') (d : Desc) : w.Starts (w.enterOp t g st d) t g st := by
  have hmark : w.Starts (if w.atMark t g d.opc then w.updStep t.id (fun x => { x with marked := true }) else w) t g st' := by
    split
    · exact h.of_same rfl rfl
    · exact h
  have hlatch := hmark.updStage (st' := st) (fun _ => st) (fun _ _ _ => ⟨rfl, rfl⟩)
  unfold World.enterOp
  dsimp only
  refine World.Starts.updStage (st := st) ?_ _ (fun x hd hp => ⟨hd, hp⟩)
  split <;> exact hlatch.of_same rfl rfl

/-- A semaphore that is acquired at once leaves the stage. -/
theorem World.Starts.waitSem {glob : Bool} {n : Nat} (h : w.Starts v t g st) (hw : v.waitSem t g glob n = (v', true)) : w.Starts v' t g st := by
  have hglob : w.Starts (if glob then v.updTask t.id (fun t => { t with job := true }) else v) t g st := by
    split
    · exact h.updTask _ (fun _ => true) (·.fresh) (·.asked) (fun _ => rfl)
    · exact h
  simp only [World.waitSem] at hw
  generalize (if glob then v.updTask t.id (fun t => { t with job := true }) else v) = u at hglob hw
  have htake : w.Starts (u.takeSem glob n t g) t g st := by
    unfold World.takeSem World.updSem
    split
    · exact hglob.of_same rfl rfl
    · exact hglob.of_same rfl rfl
  split at hw
  · split at hw <;> cases hw
  · split at hw
    · obtain ⟨rfl, -⟩ := Prod.mk.inj hw
      exact htake
    · repeat' split at hw
      all_goals cases hw

/-- The engine with an operation of a stage readied: its slot exponents are latched, and its task moves on. -/
def World.readied (w : World) (t : Task) (g : Nat) (slots : List Int) (far : Bool) : World :=
  ((w.updTask t.id (fun t => { t with job := t.job || far })).updStage t.id g (fun s => { s with slots := slots })).begun t g

theorem World.Starts.readied (h : w.Starts v t g st) (slots : List Int) (far : Bool) : w.Starts (v.readied t g slots far) t g st := by
  have hjob := h.updTask (fun t => { t with job := t.job || far }) (fun t => t.job || far) (·.fresh) (·.asked) (fun _ => rfl)
  have hslots := hjob.updStage (st' := st) (fun s => { s with slots := slots }) (fun _ hd hp => ⟨hd, hp⟩)
  exact (hslots.updTask (fun u => { u with fresh := u.fresh.filter (fun c => !(u.stageCores g).contains c), asked := none }) (·.job)
    (fun u => u.fresh.filter (fun c => !(u.stageCores g).contains c)) (fun _ => none) (fun _ => rfl)).of_same rfl rfl

end

/-- Whether a range lies on another engine. -/
def Region.isFar (x : Region) : Bool := match x.loc with | .far _ => true | _ => false

section
variable {w w' : World} {t : Task} {g : Nat} {st : Stage} {reads : World → Run → List (List Region)}

theorem World.latchSlots_since (w : World) (t : Task) (g : Nat) (st : Stage) : (w.latchSlots t g st).since = st.since := by
  unfold World.latchSlots; split <;> rfl

/-- Gathering readies the run of the stage where all that it reads is here and good, and no sealed data would leave without a link secret
(R114 stage 5, R163, R215). -/
theorem World.gather_ready (hmiss : w.firstMissing st.since (reads w (w.runOf t g (w.latchSlots t g st))) = [])
    (hpois : w.poisoned (reads w (w.runOf t g (w.latchSlots t g st))).flatten = none)
    (hseal : ((w.runOf t g (w.latchSlots t g st)).writesFar && w.readsSealed (w.runOf t g (w.latchSlots t g st)) && !w.hasLinkSecret) = false) :
    ∃ slots far, w.gather t g st reads = (w.readied t g slots far, some (w.runOf t g (w.latchSlots t g st))) := by
  have hmem : ∀ rs f h, ((w.updTask t.id f).updStage t.id g h).poisoned rs = w.poisoned rs := fun _ _ _ => rfl
  have hlink : ∀ r f h, (r.writesFar && ((w.updTask t.id f).updStage t.id g h).readsSealed r &&
      !((w.updTask t.id f).updStage t.id g h).hasLinkSecret) = (r.writesFar && w.readsSealed r && !w.hasLinkSecret) := fun _ _ _ => rfl
  refine ⟨(w.latchSlots t g st).slots, (reads w (w.runOf t g (w.latchSlots t g st))).flatten.any Region.isFar, ?_⟩
  simp only [World.gather, World.latchSlots_since, hmiss, hmem, hpois, hlink, hseal, List.isEmpty_nil, Bool.not_true, Bool.false_eq_true, if_false]
  rfl

/-- What gathering readies is the engine with the operation readied. -/
theorem World.gather_world {r : Run} (h : w.gather t g st reads = (w', some r)) : ∃ slots far, w' = w.readied t g slots far := by
  simp only [World.gather] at h
  split at h
  · cases h
  split at h
  · cases h
  split at h
  · cases h
  obtain ⟨rfl, -⟩ := Prod.mk.inj h
  exact ⟨_, _, rfl⟩

theorem World.Starts.gather {v : World} {r : Run} (h : w.Starts v t g st) (hg : v.gather t g st reads = (w', some r)) : w.Starts w' t g st := by
  obtain ⟨slots, far, rfl⟩ := World.gather_world hg
  exact h.readied slots far

end

section
variable {w w' : World} {q n g opc : Nat} {mods : Nat → Bool} {extra : World → Run → List Fail} {reads : World → Run → List (List Region)} {r : Run}

/-- An operation that starts and is to run now is gathered with its descriptor latched (R114 stages 1 to 5). -/
theorem World.startOp_gathers {t : Task} {st : Stage} {bs : Bytes} (h : w.startOp t g st bs extra reads = (w', some r))
    (hw : w.Starts w t g st) : ∃ st' v, w.Starts v t g st' ∧ v.gather t g st' reads = (w', some r) := by
  simp only [World.startOp] at h
  split at h -- poison
  · cases h
  split at h -- held at the mark
  · cases h
  split at h -- abandoned at the mark
  · cases h
  split at h -- bytes that its checks read are missing
  · cases h
  split at h -- refused
  · cases h
  split at h -- its job stops
  · cases h
  have hent : w.Starts (w.enterOp t g (w.latch t g st bs) (Desc.ofBytes bs)) t g
      { w.latch t g st bs with since := (w.enterOp t g (w.latch t g st bs) (Desc.ofBytes bs)).mem.farSeq } :=
    have ⟨hs, hst⟩ := hw.enterOp (st := w.latch t g st bs) (Desc.ofBytes bs)
    ⟨hs, hst⟩
  split at h
  · split at h
    · rename_i hs
      exact ⟨_, _, hent.waitSem hs, h⟩
    · cases h
  · exact ⟨_, _, hent, h⟩

/-- An operation that is reached is one of a stage that can run, gathered as the stage stands then. -/
theorem World.reach_gathers (h : w.reach q n g opc mods extra reads = (w', some r)) :
    ∃ t st st' v, w.task? ⟨q, n⟩ = some t ∧ t.stgs[g]? = some st ∧ w.canRun t g st = true ∧ w.Starts v t g st' ∧
      v.gather t g st' reads = (w', some r) := by
  simp only [World.reach] at h
  split at h
  · cases h
  rename_i t ht
  split at h
  · cases h
  rename_i st hst
  split at h
  · cases h
  rename_i hrun
  have hw : w.Starts w t g st := .refl (by rw [World.task?_id ht]; exact ht) hst
  suffices hs : ∃ st' v, w.Starts v t g st' ∧ v.gather t g st' reads = (w', some r) by
    obtain ⟨st', v, hv⟩ := hs
    exact ⟨t, st, st', v, ht, hst, by simpa using hrun, hv⟩
  cases hph : st.phase <;> simp only [hph] at h
  case granted | holders | part =>
    split at h
    · exact ⟨_, _, hw, h⟩
    · cases h
  case retry =>
    split at h
    · split at h
      · rename_i hs
        exact ⟨_, _, hw.waitSem hs, h⟩
      · cases h
    · cases h
  case ready =>
    split at h
    · cases h
    · split at h
      · exact World.startOp_gathers h hw
      · cases h
  all_goals cases h

/-- An operation that is ready is a run of the task of the command, at a stage that could run, on the engine with its start made. -/
theorem World.prepare_starts {pts : List Nat} (h : w.prepare q n g pts opc mods extra reads = (w', some r)) :
    ∃ (st st' : Stage) (v : World), w.task? ⟨q, n⟩ = some r.t ∧ r.t.stgs[g]? = some st ∧ w.canRun r.t g st = true ∧ w.Starts w' r.t g st' ∧
      r = { v.runOf r.t g (v.latchSlots r.t g st') with part := r.part } := by
  obtain ⟨r', hr, rfl⟩ := World.prepare_reach h
  obtain ⟨t, st, st', v, ht, hst, hrun, hv, hg⟩ := World.reach_gathers hr
  obtain rfl : r'.t = t := by rw [World.gather_run hg]; rfl
  refine ⟨st, st', v, ht, hst, hrun, hv.gather hg, ?_⟩
  dsimp only
  rw [← World.gather_run hg]

/-- The operands of an operation that is ready have the shapes that its descriptor gives them. -/
theorem World.prepare_shape {pts : List Nat} (h : w.prepare q n g pts opc mods extra reads = (w', some r)) {i : Nat} (hi : i < 4) :
    (r.o i).shape = shapeOf r.e r.d i ∧ (r.o i).ext = extOf (opdOf r.e r.d r.recs i).fmt (shapeOf r.e r.d i) := by
  obtain ⟨_, st', v, -, -, -, -, hr⟩ := World.prepare_starts h
  rw [hr]
  exact v.runOf_shape r.t g (v.latchSlots r.t g st') hi

end

end Sys2Proof.Machine

namespace Sys2Proof.Machine

open Sys2Proof

/-! Data movement (R100, R106, R115, R118). -/

section
variable {r : Run}

theorem Run.rowIn_whole (h : r.part = none) (len i : Nat) : r.rowIn len i = true := by
  simp only [Run.rowIn, Run.inPart, h]

theorem Run.bytesIn_whole (h : r.part = none) (n : Nat) : r.bytesIn n = (0, n) := by
  simp only [Run.bytesIn, h]

/-- All rows are in the part of an operation that runs whole. -/
theorem Run.filter_rowIn_whole (h : r.part = none) (len : Nat) (l : List Nat) : l.filter (r.rowIn len) = l :=
  List.filter_eq_self.mpr fun i _ => Run.rowIn_whole h len i

/-- Rows that an operation converts whole become the bytes of D (R48, R109). -/
theorem World.writeConv_whole {w : World} (h : r.part = none) (rows : List (List XV)) :
    w.writeConv r (r.o 3) rows = (w.putD r (r.converted rows), r.conversions rows) := by
  rw [World.writeConv, h]
  rfl

theorem shapeOf_byteOp (e : Env) {d : Desc} (h : isByteOp d.opc = true) : shapeOf e d 0 = .bytes d.k 4 := by
  have ho : d.opc = 0x10 ∨ d.opc = 0x12 ∨ d.opc = 0x13 ∨ d.opc = 0x17 ∨ d.opc = 0x65 := by simpa [isByteOp] using h
  rcases ho with ho | ho | ho | ho | ho <;> simp only [shapeOf, ho]

@[simp] theorem World.length_readAt (w : World) (core : Nat) (l : Loc) (a n : Nat) : (w.readAt core l a n).length = n := by
  cases l <;> simp [World.readAt, World.load, World.loadStaging]

theorem slice_all {b : Bytes} {n : Nat} (h : b.length = n) : slice b 0 n = b := by
  rw [Laws.Blob.slice_within _ _ _ (by omega), List.drop_zero, List.take_of_length_le (by omega)]

/-- The bytes of A go to D unchanged (R118). -/
theorem runBytes_whole {w : World} {l l' : Loc} {a a' k : Nat} (hpart : r.part = none) (hD : (r.o 3).place = some (l, a))
    (hA : (r.o 0).place = some (l', a')) (hk : (r.o 0).ext = k) :
    runBytes w r = (w.put r l a (w.readAt (r.cores.headD 0) l' a' k) (fun _ => 0), some r.ok) := by
  subst hk
  simp only [runBytes, Run.bytesIn_whole hpart, hD, World.opdBytes, hA, Nat.add_zero, Nat.sub_zero, slice_all (World.length_readAt ..)]

theorem runTstamp_placed {w : World} {l : Loc} {a : Nat} (hD : (r.o 3).place = some (l, a)) :
    runTstamp w r = (w.put r l a (leBytes 8 w.now) (fun _ => 0), some r.ok) := by
  simp only [runTstamp, hD]

theorem runPrefetch_here {w : World} {a : Nat} (hpart : r.part = none) (hA : (r.o 0).place = some (.here, a)) :
    let n := (r.o 0).ext
    runPrefetch w r = ({ w with mem := (linesOf a n).foldl (fun m la => m.touch la (touchMask la a n) 0) w.mem }, some r.ok) := by
  simp only [runPrefetch, hA, Run.bytesIn_whole hpart, Nat.add_zero, Nat.sub_zero]

theorem runPrefetch_far {w : World} {x a : Nat} (hA : (r.o 0).place = some (.far x, a)) : runPrefetch w r = (w, some r.ok) := by
  simp only [runPrefetch, hA]

end

section
variable {s : State} {q n g opc : Nat} {mods : Nat → Bool} {extra : World → Run → List Fail} {reads : World → Run → List (List Region)}
  {w : World} {r : Run}

/-- A byte-count operation that is ready has K bytes in A. -/
theorem World.ready.byteOp_ext (h : World.ready s q n g opc mods extra reads w r) (ho : isByteOp opc = true) : (r.o 0).ext = r.d.k := by
  rw [(World.prepare_shape h.1 (by decide)).2, shapeOf_byteOp r.e (by rwa [(World.prepare_row h.1).1])]
  rfl

/-- A TRANSPOSE that is ready has M rows in A and K in D. -/
theorem World.ready.transpose_rows (h : World.ready s q n g 0x16 mods extra reads w r) : (r.o 0).rows = r.d.m ∧ (r.o 3).rows = r.d.k := by
  have ho : r.d.opc = 0x16 := (World.prepare_row h.1).1
  constructor <;> rw [Opd.rows, (World.prepare_shape h.1 (by decide)).1] <;> simp only [shapeOf, ho]

/-- A start leaves the clock. -/
theorem World.ready.now (h : World.ready s q n g opc mods extra reads w r) : w.now = s.w.clock.ns := by
  obtain ⟨_, _, _, -, -, -, hstart, -⟩ := World.prepare_starts h.1
  rw [World.now, (World.setting_eq_iff.mp hstart.setting).1]

end

/-- Settles O11: each command runs the rule of its row (`gives_ready`), and the rule's result is that of the whole operation, with the shapes
that Table 5.11 gives its operands. -/
theorem controlAndMoveResults : Obligations.ControlAndMoveResults := by
  refine ⟨fun s q n g w r => ?control, fun s q n g w r l l' a a' => ?bytes, fun s q n g w r => ?rows⟩
  case control =>
    refine ⟨fun h => gives_ready h rfl rfl, fun h => gives_ready h rfl rfl, fun h => gives_ready h rfl rfl, fun l a h hD => ?_, fun h => ?_⟩
    · rw [← h.now]
      exact gives_ready h rfl (runTstamp_placed hD)
    · exact gives_ready h rfl (by rw [runFill, World.writeConv_whole h.2])
  case bytes =>
    intro moved
    have move : ∀ {c : Instr} {opc : Nat}, (r.o 3).place = some (l, a) → (r.o 0).place = some (l', a') → isByteOp opc = true →
        exec c s = s.operate q n g [] opc anyMod noExtra wholeReads runBytes →
        World.ready s q n g opc anyMod noExtra wholeReads w r → Gives c s moved := fun hD hA ho he h =>
      gives_ready h he (runBytes_whole h.2 hD hA (h.byteOp_ext ho))
    refine ⟨fun hD hA => ⟨move hD hA rfl rfl, move hD hA rfl rfl, move hD hA rfl rfl, move hD hA rfl rfl⟩, fun hA h => ?_, fun x hA h => ?_⟩
    · rw [← h.byteOp_ext rfl]
      exact gives_ready h rfl (runPrefetch_here h.2 hA)
    · exact gives_ready h rfl (runPrefetch_far hA)
  case rows =>
    intro core row named missed
    refine ⟨fun h => gives_ready h rfl ?_, fun h => gives_ready h rfl ?_, fun h => ?_⟩
    · simp only [runGather, Run.filter_rowIn_whole h.2, List.foldl_map, List.countP_map]
      rfl
    · simp only [runScatter, Run.filter_rowIn_whole h.2, List.foldl_map, List.countP_map]
      rfl
    · intro code
      obtain ⟨hA, hD⟩ := h.transpose_rows
      refine gives_ready h rfl ?_
      simp only [runTranspose, Run.filter_rowIn_whole h.2, hA, hD]
      rfl

end Sys2Proof.Machine

namespace Sys2Proof.Machine

open Sys2Proof

/-! The checks of an operation, and its way into execution (R13, R114 stages 1 to 5, R137, R177). -/

/-- Nothing keeps an operation that has been fetched from its checks: what they read is good and here, and its step's phase allows it (R114
stages 1 and 2, R163, R177, R200). -/
structure World.Checkable (w : World) (t : Task) (g : Nat) (st : Stage) (bs : Bytes) : Prop where
  good : w.poisoned (⟨.here, st.pc, bs.length⟩ ::
    (w.checkReads t g (w.envOf t g w.defaults st.pc (Desc.ofBytes bs)) (Desc.ofBytes bs)).flatten) = none
  unheld : (w.atMark t g (Desc.ofBytes bs).opc && !t.othersOver g) = false
  kept : (w.atMark t g (Desc.ofBytes bs).opc && (w.dueAbandon t).isSome) = false
  here : w.firstMissing st.since (w.checkReads t g (w.envOf t g w.defaults st.pc (Desc.ofBytes bs)) (Desc.ofBytes bs)) = []

section
variable {w : World} {q n g opc : Nat} {t : Task} {st : Stage} {bs : Bytes} {mods : Nat → Bool} {extra : World → Run → List Fail}
  {reads : World → Run → List (List Region)}

/-- The command of its row starts the operation at the address of a stage that can run. -/
theorem World.reach_fetched (ht : w.task? ⟨q, n⟩ = some t) (hst : t.stgs[g]? = some st) (hrun : w.canRun t g st = true) (hph : st.phase = .ready)
    (hf : w.fetchDesc st.pc = some bs) (hmod : mods (Desc.ofBytes bs).mod = true)
    (hon : (Desc.ofBytes bs).preClass ≠ .whole ∨ t.stageOn g = true) :
    w.reach q n g (Desc.ofBytes bs).opc mods extra reads = w.startOp t g st bs extra reads := by
  have hmine : ((Desc.ofBytes bs).preClass != .whole || t.stageOn g) = true := by simpa using hon
  simp [World.reach, ht, hst, hrun, hph, hf, hmod, hmine]

theorem World.Checkable.refuses (h : w.Checkable t g st bs) {status : Nat} (hc : w.checkOp t g (w.latch t g st bs) extra = some status) :
    w.startOp t g st bs extra reads = (w.refuseOp t g (w.latch t g st bs) status, none) := by
  simp only [World.startOp, h.good, h.unheld, h.kept, h.here, hc, List.isEmpty_nil, Bool.not_true, Bool.false_eq_true, if_false]

/-- An operation that passes its checks, of a job that runs, and that waits for no semaphore, enters execution and is gathered. -/
theorem World.Checkable.enters (h : w.Checkable t g st bs) (hc : w.checkOp t g (w.latch t g st bs) extra = none) :
    let w1 := w.enterOp t g (w.latch t g st bs) (Desc.ofBytes bs)
    w1.jobStop (w.runOf t g (w.latch t g st bs)) = none → (Desc.ofBytes bs).wen = false →
    w.startOp t g st bs extra reads = w1.gather t g { w.latch t g st bs with since := w1.mem.farSeq } reads := by
  intro w1 hj hw
  simp only [World.startOp, h.good, h.unheld, h.kept, h.here, hc, hj, hw, w1, List.isEmpty_nil, Bool.not_true, Bool.false_eq_true, if_false]

/-- An operation with no points named for it runs whole where its cores run it, nothing asks them to leave, and it stands at no point
inside (R115, R137, R143). -/
theorem World.spanOf_whole {r : Run} (hon : r.t.stageOn r.g = true) (hpre : r.t.preempt = false) (hmust : w.mustLeave r.t = false)
    (hpts : st.pts = []) : w.spanOf r st [] = none := by
  have hall : r.cores.all r.t.on = true := hon
  simp [World.spanOf, hall, hpre, hmust, hpts]

/-- Latching gives each operand in scaled F16 the exponent of its slot, where none has been latched before (R33, R39). -/
theorem World.runOf_latchSlots (w : World) (t : Task) (g : Nat) {st : Stage} (hs : st.slots = []) {i : Nat} (hi : i < 4) :
    let r := w.runOf t g (w.latchSlots t g st)
    (r.o i).fmt.code = cF16S → (r.o i).fmt.s = (w.num.slots.get {} (r.o i).fmt.slot).s := by
  have hlatch : w.latchSlots t g st = { st with slots := (w.runOf t g st).os.map (·.fmt.s) } := by simp [World.latchSlots, hs]
  have hslots : ∀ v, ((w.runOf t g st).os.map (·.fmt.s)).getD i v = ((w.runOf t g st).o i).fmt.s := fun v => by
    simp [Run.o, World.runOf, opdsOf, hi]
  rw [hlatch]
  dsimp only
  rw [w.runOf_o t g _ hi, hslots, w.runOf_o t g st hi, hs]
  intro hc
  rw [Opd.latched_code] at hc
  rw [Opd.latched_s hc, Opd.latched_slot]
  exact Opd.latched_s hc _

end

/-- Settles O9: an operation that its checks pass enters execution (`World.Checkable.enters`) and is readied (`World.gather_ready`), and
what its start leaves is that of `World.Starts`; one that they fail is refused. -/
theorem operationsExecuteOrReport : Obligations.OperationsExecuteOrReport := by
  refine ⟨fun s q n g t st bs mods extra reads => ?executes, fun w q n g t st bs status pts mods extra reads run => ?reports⟩
  case executes =>
    intro d w cr st' w1 r ht hst hrun hon hpre hmust hpts hph hf hmod hgood hmark hdue hhere hcheck hjob hwen hmiss hpois hseal
    have hid : w.task? t.id = some t := by rw [World.task?_id ht]; exact ht
    have hreach := (World.reach_fetched (extra := extra) (reads := reads) ht hst hrun hph hf hmod (.inr hon)).trans
      (World.Checkable.enters ⟨hgood, hmark, hdue, hhere⟩ hcheck hjob hwen)
    obtain ⟨slots, far, hgather⟩ := World.gather_ready hmiss hpois hseal
    have henter : w.Starts w1 t g st' := World.Starts.enterOp (.refl hid hst) d
    have hstart : w.Starts (w1.readied t g slots far) t g st' := henter.readied slots far
    obtain ⟨hclock, -, -, -, hnum, hmem⟩ := World.setting_eq_iff.mp hstart.setting
    refine ⟨⟨w1.readied t g slots far, ⟨?_, rfl⟩, hmem, hclock, hnum⟩, fun hs i hi hc => ?_⟩
    · obtain ⟨t', u, ht', -, hu, -, hup⟩ := hstart.stage
      have hspan : w.spanOf r u [] = none := World.spanOf_whole hon hpre hmust (hup.trans hpts)
      have hprep : w.prepare q n g [] d.opc mods extra reads = (w1.readied t g slots far,
          some { r with part := w.spanOf r ((((w1.readied t g slots far).task? t.id).bind (fun t => t.stgs[g]?)).getD {}) [] }) := by
        rw [World.prepare, hreach, hgather]
        rfl
      rw [hprep, ht', Option.bind_some, hu, Option.getD_some, hspan]
      rfl
    · obtain ⟨-, -, -, -, hnum1, -⟩ := World.setting_eq_iff.mp henter.setting
      rw [← hnum1]
      exact w1.runOf_latchSlots t g (st := { st' with since := w1.mem.farSeq }) hs hi hc
  case reports =>
    intro d cr st' ht hst hrun hph hf hmod hon hgood hmark hdue hhere hcheck
    have hreach := (World.reach_fetched (extra := extra) (reads := reads) ht hst hrun hph hf hmod hon).trans
      (World.Checkable.refuses ⟨hgood, hmark, hdue, hhere⟩ hcheck)
    refine World.operate_unready ?_
    rw [World.prepare, hreach]
    rfl

end Sys2Proof.Machine

namespace Sys2Proof.Machine

open Sys2Proof

/-! What a write to memory leaves besides the cache and the values (R149). -/

@[simp] theorem Mem.evict_rwrites (m : Mem) (l : Line) : (m.evict l).rwrites = m.rwrites := by
  unfold Mem.evict
  split
  · rfl
  · exact foldl_keeps Mem.rwrites (by exact fun _ _ => rfl) _ _

@[simp] theorem Mem.place_rwrites (m : Mem) (l : Line) : (m.place l).rwrites = m.rwrites := by
  simp only [Mem.place]
  split
  · rfl
  · exact foldl_keeps Mem.rwrites Mem.evict_rwrites _ _

@[simp] theorem Mem.resettle_rwrites (m : Mem) (key : Nat) (c : CSet) (i : Nat) (l : Line) (rest : List Line) :
    (m.resettle key c i l rest).rwrites = m.rwrites := by
  unfold Mem.resettle
  split
  · exact foldl_keeps Mem.rwrites Mem.place_rwrites _ _
  · split <;> rfl

@[simp] theorem Mem.touch_rwrites (m : Mem) (la v d : Nat) : (m.touch la v d).rwrites = m.rwrites := by
  have hrecode : ∀ m : Mem, (m.recode la false).rwrites = m.rwrites := fun m => by
    unfold Mem.recode
    dsimp only
    split
    · rw [Mem.resettle_rwrites]
      unfold Mem.countEnc
      split <;> rfl
    · rfl
  simp only [Mem.touch, hrecode]
  split
  · rfl
  · exact Mem.place_rwrites ..

@[simp] theorem Mem.store_rwrites (m : Mem) (a : Nat) (bs : Bytes) : (m.store a bs).rwrites = m.rwrites :=
  foldl_keeps Mem.rwrites (fun m la => Mem.touch_rwrites m la _ _) _ _

/-! The report of an operation (R121). -/

section
variable {w : World} {t : Task} {g index : Nat} {rpt : Bool} {res : OpRes}

theorem World.writeReport_unasked (h : (rpt || res.status != 0) = false) : w.writeReport t g index rpt res = w := by
  simp only [Bool.or_eq_false_iff, bne_eq_false_iff_eq] at h
  simp [World.writeReport, h]

theorem World.writeReport_slot (h : (rpt || res.status != 0) = true) (hi : index < t.repLen / max 1 t.stages) :
    w.writeReport t g index rpt res = w.store (t.repAddr % 2 ^ 40 + 32 * (g * (t.repLen / max 1 t.stages) + index)) res.bytes := by
  have hask : (!rpt && res.status == 0) = false := by cases rpt <;> simp_all
  simp only [World.writeReport, hask, hi, Bool.false_eq_true, if_false, if_true]

theorem World.writeReport_counted (h : (rpt || res.status != 0) = true) (hi : t.repLen / max 1 t.stages ≤ index) :
    w.writeReport t g index rpt res = { w with sched := { w.sched with noReport := sat32 w.sched.noReport 1 } } := by
  have hask : (!rpt && res.status == 0) = false := by cases rpt <;> simp_all
  simp only [World.writeReport, hask, Nat.not_lt.mpr hi, Bool.false_eq_true, if_false]

/-- A report is written to its slot or counted, and a completion that needs none leaves memory and the count (R121). -/
theorem World.writeReport_reports :
    let w' := w.writeReport t g index rpt res
    let part := t.repLen / max 1 t.stages
    (if (rpt || res.status != 0) && decide (index < part) then Wrote w w' (t.repAddr % 2 ^ 40 + 32 * (g * part + index)) res.bytes
      else SameMemory w w') ∧
    w'.sched.noReport = (if (rpt || res.status != 0) && decide (part ≤ index) then sat32 w.sched.noReport 1 else w.sched.noReport) := by
  intro w' part
  cases hask : rpt || res.status != 0 with
  | false =>
    have hw : w' = w := World.writeReport_unasked hask
    rw [hw]
    exact ⟨fun _ => rfl, rfl⟩
  | true =>
    rcases Nat.lt_or_ge index part with hi | hi
    · have hw : w' = w.store _ res.bytes := World.writeReport_slot hask hi
      rw [hw]
      simp only [hi, Nat.not_le.mpr hi, decide_true, decide_false, Bool.and_self, Bool.and_false, if_true, Bool.false_eq_true, if_false]
      exact ⟨w.store_wrote _ _, rfl⟩
    · have hw : w' = _ := World.writeReport_counted hask hi
      rw [hw]
      simp only [hi, Nat.not_lt.mpr hi, decide_true, decide_false, Bool.and_self, Bool.and_false, if_true, Bool.false_eq_true, if_false]
      exact ⟨fun _ => rfl, trivial⟩

/-- A report changes memory's values, its slices and the count of reports without a slot. -/
theorem World.writeReport_keeps {α : Type} (p : World → α) (hp : ∀ (w : World) (m : Mem) (n : Nat), m.rwrites = w.mem.rwrites →
    p { w with mem := m, sched := { w.sched with noReport := n } } = p w) : p (w.writeReport t g index rpt res) = p w := by
  unfold World.writeReport
  split
  · rfl
  · dsimp only
    split
    · exact hp w _ w.sched.noReport (Mem.store_rwrites ..)
    · exact hp w w.mem _ rfl

end

/-! The completion of an operation (R100, R101, R103, R114 stages 7 to 10, R122). -/

/-- A stage past an operation: at the next descriptor, at the one that a JUMP names, or at its end (R100, R101). -/
def Stage.pastOp (d : Desc) (len : Nat) (hold : Bool) (res : OpRes) (s : Stage) : Stage :=
  let past := d.opc == 0x01 && goesOn res.status
  { s with
    phase := if past then .ended else .ready
    pc := if past then s.pc else if d.opc = 0x02 && goesOn res.status then d.addr 0 % 2 ^ 40 else s.pc + len
    index := s.index + 1
    slots := []
    pts := []
    tiles := []
    cnt := {}
    preempted := false
    boundary := hold }

/-- Whether a stage holds at the boundary that an operation's completion makes, as its step is being abandoned (R28, R178). -/
def World.holdsAt (w : World) (t : Task) (d : Desc) (res : OpRes) : Bool :=
  w.isBoundary t d && goesOn res.status && (w.step? t.id).elim false (fun s => s.abandon.isSome)

/-- What the completion of an operation makes of its stage. -/
def World.stagePast (w : World) (t : Task) (st : Stage) (d : Desc) (res : OpRes) : Stage → Stage :=
  Stage.pastOp d (if d.px ∧ st.desc.length = 128 then 128 else 64) (w.holdsAt t d res) res

/-- The engine past an operation, before it is seen whether its task ends. -/
def World.pastOp (w : World) (t : Task) (g : Nat) (st : Stage) (d : Desc) (res : OpRes) : World :=
  let w' := (w.addTotals res).writeReport t g st.index d.rpt res
  let w' := w'.updTask t.id (fun t => { t with worst := if res.status / 256 = 3 then max t.worst res.status else t.worst })
  ((w'.updStage t.id g (w.stagePast t st d res)).clearGiven).settle t.id

/-- Task `u` is task `t` past an operation of stage `g`: its largest class 0x03 status is kept, and the stage is as `f` leaves it. -/
structure Task.Past (t u : Task) (g : Nat) (res : OpRes) (f : Stage → Stage) : Prop where
  id : u.id = t.id
  slot : u.slot = t.slot
  silent : u.silent = t.silent
  closing : u.closing = t.closing
  kind : u.kind = t.kind
  worst : u.worst = if res.status / 256 = 3 then max t.worst res.status else t.worst
  stgs : u.stgs = modAt t.stgs g f

/-- Settling a task moves its state alone. -/
theorem Task.settle_eq (t : Task) : ∃ x, t.settle = { t with st := x } := by
  unfold Task.settle
  (repeat' split) <;> exact ⟨_, rfl⟩

theorem Task.Past.settle {t u : Task} {g : Nat} {res : OpRes} {f : Stage → Stage} (h : t.Past u g res f) : t.Past u.settle g res f := by
  obtain ⟨x, hx⟩ := u.settle_eq
  rw [hx]
  exact ⟨h.id, h.slot, h.silent, h.closing, h.kind, h.worst, h.stgs⟩

section
variable {w : World} {t : Task} {g : Nat} {st : Stage} {d : Desc} {res : OpRes}

theorem World.clearGiven_keeps {α : Type} (p : World → α) (hp : ∀ (w : World) x, p { w with mem := { w.mem with given := x } } = p w) (w : World) :
    p w.clearGiven = p w := by
  unfold World.clearGiven
  split
  · rfl
  · exact hp w _

theorem World.addTotals_tasks (w : World) (res : OpRes) : (w.addTotals res).sched.tasks = w.sched.tasks := by
  unfold World.addTotals
  dsimp only
  split <;> rfl

theorem World.task?_of_tasks {w w' : World} (h : w'.sched.tasks = w.sched.tasks) (id : TaskId) : w'.task? id = w.task? id := by
  simp only [World.task?, h]

/-- The task past an operation has its stage moved on. -/
theorem World.pastOp_task? (ht : w.task? t.id = some t) :
    ∃ u, (w.pastOp t g st d res).task? t.id = some u ∧ t.Past u g res (w.stagePast t st d res) := by
  have hrep : ((w.addTotals res).writeReport t g st.index d.rpt res).task? t.id = some t :=
    (World.writeReport_keeps (fun w => w.task? t.id) (fun _ _ _ _ => rfl)).trans ((World.task?_of_tasks (w.addTotals_tasks res) t.id).trans ht)
  have hworst := World.updTask_task? (f := fun t => { t with worst := if res.status / 256 = 3 then max t.worst res.status else t.worst }) hrep
    (fun _ => rfl)
  have hstage := World.updTask_task? (f := fun u => { u with stgs := modAt u.stgs g (w.stagePast t st d res) }) hworst (fun _ => rfl)
  have hgiven := (World.clearGiven_keeps (fun w => w.task? t.id) (fun _ _ => rfl) _).trans hstage
  exact ⟨_, World.updTask_task? hgiven Task.settle_id, Task.Past.settle ⟨rfl, rfl, rfl, rfl, rfl, rfl, rfl⟩⟩

/-- A part of the engine that the totals, the report and the task's move do not touch is as before the completion. -/
theorem World.pastOp_keeps {α : Type} (p : World → α) (hp : ∀ (w : World) (m : Mem) (c : Sched) (n : Num), m.rwrites = w.mem.rwrites →
    p { w with mem := m, sched := c, num := n } = p w) : p (w.pastOp t g st d res) = p w := by
  have hsched : ∀ (w : World) (c : Sched), p { w with sched := c } = p w := fun w c => hp w w.mem c w.num rfl
  unfold World.pastOp
  dsimp only
  refine (hsched _ _).trans ((World.clearGiven_keeps p (fun w x => hp w _ w.sched w.num rfl) _).trans ((hsched _ _).trans ((hsched _ _).trans ?_)))
  refine (World.writeReport_keeps p (fun w m n hm => hp w m _ w.num hm)).trans (hp w w.mem _ _ rfl)

@[simp] theorem World.pastOp_clock : (w.pastOp t g st d res).clock = w.clock := World.pastOp_keeps _ fun _ _ _ _ _ => rfl
@[simp] theorem World.pastOp_host : (w.pastOp t g st d res).host = w.host := World.pastOp_keeps _ fun _ _ _ _ _ => rfl
@[simp] theorem World.pastOp_train : (w.pastOp t g st d res).train = w.train := World.pastOp_keeps _ fun _ _ _ _ _ => rfl
@[simp] theorem World.pastOp_job : (w.pastOp t g st d res).job = w.job := World.pastOp_keeps _ fun _ _ _ _ _ => rfl
@[simp] theorem World.pastOp_unacked (id : TaskId) : (w.pastOp t g st d res).unacked id = w.unacked id :=
  World.pastOp_keeps (fun w => w.unacked id) fun _ _ _ _ hm => by simp only [World.unacked, hm]

/-- Besides the report and its count, an operation that ran is counted as done. -/
theorem World.pastOp_reports (hr : res.refused = false) :
    let w' := w.pastOp t g st d res
    let part := t.repLen / max 1 t.stages
    (if (d.rpt || res.status != 0) && decide (st.index < part)
      then Wrote w w' (t.repAddr % 2 ^ 40 + 32 * (g * part + st.index)) res.bytes else SameMemory w w') ∧
    w'.sched.noReport = (if (d.rpt || res.status != 0) && decide (part ≤ st.index) then sat32 w.sched.noReport 1 else w.sched.noReport) ∧
    w'.sched.opsDone = add64 w.sched.opsDone 1 := by
  intro w' part
  have htot : (w.addTotals res).sched = { w.sched with opsDone := add64 w.sched.opsDone 1 } := by simp [World.addTotals, hr]
  have hpast : ∀ {α : Type} (p : World → α), (∀ (w : World) (ts : List Task) x,
      p { w with sched := { w.sched with tasks := ts }, mem := { w.mem with given := x } } = p w) →
      p w' = p ((w.addTotals res).writeReport t g st.index d.rpt res) := fun p hp => by
    have htasks : ∀ (w : World) (ts : List Task), p { w with sched := { w.sched with tasks := ts } } = p w := fun w ts => hp w ts w.mem.given
    refine (htasks _ _).trans ((World.clearGiven_keeps p (fun w x => hp w w.sched.tasks x) _).trans ((htasks _ _).trans (htasks _ _)))
  have hmem : w'.mem.mem = ((w.addTotals res).writeReport t g st.index d.rpt res).mem.mem := hpast (fun w => w.mem.mem) fun _ _ _ => rfl
  obtain ⟨hbytes, hcount⟩ := World.writeReport_reports (w := w.addTotals res) (t := t) (g := g) (index := st.index) (rpt := d.rpt) (res := res)
  rw [htot] at hcount
  refine ⟨?_, (hpast (fun w => w.sched.noReport) fun _ _ _ => rfl).trans hcount, ?_⟩
  · simp only [Wrote, SameMemory, hmem]
    exact hbytes
  · rw [hpast (fun w => w.sched.opsDone) fun _ _ _ => rfl, World.writeReport_keeps (fun w => w.sched.opsDone) fun _ _ _ _ => rfl, htot]

/-- The task goes on, or ends with the operation's status, or ends as its stages have all ended. -/
theorem World.closeOp_eq {u : Task} (hu : (w.pastOp t g st d res).task? t.id = some u) : w.closeOp t g st d res =
    if !goesOn res.status then (w.pastOp t g st d res).endTask u res.status
    else if u.stgs.all (·.phase.past) then (w.pastOp t g st d res).endTask u ((w.pastOp t g st d res).endStatus u)
    else w.pastOp t g st d res := by
  unfold World.closeOp
  dsimp only
  split
  case h_1 h => exact absurd (h.symm.trans hu) (by simp)
  case h_2 u' h =>
    obtain rfl : u' = u := Option.some.inj (h.symm.trans hu)
    rfl

end

section
variable {w : World} {q n g : Nat} {t : Task} {st : Stage} {res : OpRes}

/-- The marks of an operation with no dead input drop nothing (R106). -/
theorem World.applyMarks_none {r : Run} (h : ∀ i, r.d.dead i = false) : w.applyMarks r = w := by
  simp only [World.applyMarks, h, Bool.false_eq_true, if_false]
  exact foldl_keeps id (fun _ _ => rfl) _ w

/-- An operation that has run on a core of its stage, whose release has no remote write to wait for, and that drops and posts nothing, is
closed (R103, R106, R159). -/
theorem World.completeOp_ran (ht : w.task? ⟨q, n⟩ = some t) (hst : t.stgs[g]? = some st) (hph : st.phase = .executed res)
    (hrun : w.coresRun = true) (hon : (t.stageCores g).any t.on = true)
    (hack : w.unacked ⟨q, n⟩ = false ∨ ((w.runOf t g st).d.release || endsTask t g (w.runOf t g st).d res) = false)
    (hgo : goesOn res.status = true) (href : res.refused = false) (hpen : (w.runOf t g st).d.pen = false)
    (hdead : ∀ i, (w.runOf t g st).d.dead i = false) : w.completeOp q n g = w.closeOp t g st (w.runOf t g st).d res := by
  have hwait : (w.unacked ⟨q, n⟩ && ((w.runOf t g st).d.release || endsTask t g (w.runOf t g st).d res)) = false := by
    rcases hack with h | h <;> simp [h]
  simp only [World.completeOp, ht, hst, hph, hrun, hon, hwait, hgo, href, World.applyMarks_none hdead, World.postOp, hpen, Bool.not_true,
    Bool.not_false, Bool.false_and, Bool.or_self, Bool.false_eq_true, if_false, if_true]

/-- An operation whose status ends its task is closed once the task's remote writes are acknowledged (R103, R159). -/
theorem World.completeOp_failed (ht : w.task? ⟨q, n⟩ = some t) (hst : t.stgs[g]? = some st) (hph : st.phase = .executed res)
    (hrun : w.coresRun = true) (hack : w.unacked ⟨q, n⟩ = false) (hgo : goesOn res.status = false) :
    w.completeOp q n g = w.closeOp t g st (w.runOf t g st).d res := by
  simp only [World.completeOp, ht, hst, hph, hrun, hack, hgo, Bool.not_true, Bool.not_false, Bool.and_false, Bool.false_and, Bool.or_true,
    Bool.false_eq_true, if_false, if_true]

/-- A task with no step in progress and no remote write to wait for, that is not a checkpoint's, finishes (R159, R199, R225). -/
theorem World.endTask_alone (hc : t.closing = none) (hs : w.step? t.id = none) (hk : t.kind ≠ 2) (hack : w.unacked t.id = false) (status : Nat) :
    w.endTask t status = w.finish t status := by
  simp [World.endTask, hc, hs, hk, World.finishAfter_acked hack]

/-- A completion depends of its task on the ID, the slot and whether it is silent. -/
theorem World.Completes.of_task {w' : World} {t u : Task} {status : Nat} (h : w.Completes u status w') (hid : u.id = t.id) (hslot : u.slot = t.slot)
    (hsil : u.silent = t.silent) : w.Completes t status w' := by
  simpa only [World.Completes, completionBytes, hid, hslot, hsil] using h

end

/-- Of a list with one element changed to one that a predicate holds of, all meet the predicate where all the others do. -/
theorem all_modAt {α : Type} {p : α → Bool} {f : α → α} (hf : ∀ a, p (f a) = true) (l : List α) (g : Nat) :
    (modAt l g f).all p = l.zipIdx.all (fun (a, i) => i == g || p a) := by
  rw [Bool.eq_iff_iff, List.all_eq_true, List.all_eq_true]
  constructor
  · rintro h ⟨a, i⟩ ha
    have ha : l[i]? = some a := List.mk_mem_zipIdx_iff_getElem?.mp ha
    by_cases hi : i = g
    · simp [hi]
    · have : a ∈ modAt l g f := List.mem_of_getElem? (i := i) (by simp [modAt, Ne.symm hi, ha])
      simp [h a this]
  · intro h b hb
    obtain ⟨i, hi⟩ := List.mem_iff_getElem?.mp hb
    rw [modAt, List.getElem?_modify, Option.map_eq_map, Option.map_eq_some_iff] at hi
    obtain ⟨a, ha, rfl⟩ := hi
    by_cases hg : g = i
    · simp [hg, hf]
    · have := h (a, i) (List.mk_mem_zipIdx_iff_getElem?.mpr ha)
      simpa [hg, Ne.symm hg] using this

section
variable {s : State} {q n g opc : Nat} {mods : Nat → Bool} {extra : World → Run → List Fail} {reads : World → Run → List (List Region)}
  {w : World} {r : Run}

/-- An operation that was ready and is recorded as run stands so in its stage, whose task its start has changed no further. -/
theorem World.ready.executed_stage (h : World.ready s q n g opc mods extra reads w r) (res : OpRes) :
    ∃ u su res', (w.executed r.t.id r.g res).task? ⟨q, n⟩ = some u ∧ r.t.Begun u g ∧ u.stgs[g]? = some su ∧ su.phase = .executed res' ∧
      res'.status = res.status ∧ res'.refused = res.refused ∧ Desc.ofBytes su.desc = r.d := by
  obtain ⟨st, st', v, ht, -, -, ⟨-, u, su, hu, hb, hsu, hdesc, -⟩, hr⟩ := World.prepare_starts h.1
  have hg : r.g = g := by rw [hr]; rfl
  have hd : r.d = Desc.ofBytes su.desc := by
    rw [hdesc, hr]
    exact congrArg Desc.ofBytes (World.latchSlots_desc ..)
  have hid : r.t.id = ⟨q, n⟩ := World.task?_id ht
  rw [hg, hd, ← hid]
  refine ⟨_, _, _, World.updTask_task? (w := { w with sec := { w.sec with used := w.sec.used + 1 } }) hu (fun _ => rfl), hb.modStage _,
    (List.getElem?_modify_eq ..).trans (congrArg _ hsu), rfl, rfl, rfl, rfl⟩

end

theorem leAt_zero_one (b : Bytes) : leAt b 0 1 = (Desc.ofBytes b).opc := by
  cases b with
  | nil => rfl
  | cons x b =>
    have hx := x.isLt
    simp [leAt, slice, leVal, Desc.opc, Desc.f, Desc.ofBytes, fld]
    omega

/-- A change of the engine that leaves no vote leaves nothing to combine. -/
theorem State.onJob_settled {s : State} {f : World → World} {w : World} (hf : f s.w = w) (hv : w.job.votes = []) : (s.onJob f).w = w :=
  (World.settleVotes_nil (w := f s.w) (by rw [hf, hv])).trans hf

/-- The engine after an END has run: its own completion follows at once (R100). -/
theorem exec_endOp_ready {s : State} {q n g : Nat} {w : World} {r : Run} (h : World.ready s q n g 0x01 anyMod noExtra wholeReads w r)
    (hc : ((w.executed r.t.id r.g r.ok).completeOp q n g).job.votes = []) :
    ∃ t', exec (.endOp q n g) s = .next t' ∧ t'.w = (w.executed r.t.id r.g r.ok).completeOp q n g := by
  obtain ⟨u, su, res, hu, -, hsu, hph, -, -, hd⟩ := h.executed_stage r.ok
  have hop : s.w.operate q n g [] 0x01 anyMod noExtra wholeReads runNothing = w.executed r.t.id r.g r.ok :=
    (World.operate_ready h.1).trans (World.execute_some (.inl (by rw [h.2]; rfl)) rfl)
  have hend : (w.executed r.t.id r.g r.ok).endRun q n g = true := by
    have hopc : (Desc.ofBytes su.desc).opc = 1 := by rw [hd]; exact (World.prepare_row h.1).1
    simp [World.endRun, hu, hsu, hph, leAt_zero_one, hopc]
  have hf : (let v := s.w.operate q n g [] 0x01 anyMod noExtra wholeReads runNothing
      if v.endRun q n g then v.completeOp q n g else v) = (w.executed r.t.id r.g r.ok).completeOp q n g := by
    dsimp only
    rw [hop, if_pos hend]
  exact ⟨_, rfl, State.onJob_settled hf hc⟩


/-- A task that ends by itself after an operation has left with the status, and leaves no vote where there was none. -/
theorem World.endTask_pastOp {w : World} {t u : Task} {g : Nat} {st : Stage} {d : Desc} {res : OpRes} {f : Stage → Stage} (status : Nat)
    (hu : t.Past u g res f) (hack : w.unacked t.id = false) (hc : t.closing = none) (hs : w.step? t.id = none) (hk : t.kind ≠ 2)
    (hv : w.job.votes = []) :
    ((w.pastOp t g st d res).endTask u status).job.votes = [] ∧ w.Completes t status ((w.pastOp t g st d res).endTask u status) := by
  have hs' : (w.pastOp t g st d res).step? u.id = none := by rw [hu.id, World.step?_of_train World.pastOp_train, hs]
  have hack' : (w.pastOp t g st d res).unacked u.id = false := by rw [hu.id, World.pastOp_unacked, hack]
  rw [World.endTask_alone (hu.closing.trans hc) hs' (hu.kind ▸ hk) hack']
  refine ⟨?_, ((World.finish_completes _ u status).of_task hu.id hu.slot hu.silent).of_same World.pastOp_clock World.pastOp_host⟩
  rw [(World.finish_job _ u status).2, World.pastOp_job, hv]
  rfl

/-- A stage past an END has ended (R100). -/
theorem World.stagePast_end {w : World} {t : Task} {st : Stage} {d : Desc} {res : OpRes} (hd : d.opc = 1) (hgo : goesOn res.status = true)
    (x : Stage) : (w.stagePast t st d res x).phase = .ended := by
  simp [World.stagePast, Stage.pastOp, hd, hgo]

/-- A task without a step has none where the same steps are in progress. -/
theorem World.SameSteps.step?_eq_none {w w' : World} {id : TaskId} (h : w.SameSteps w') (hn : w.step? id = none) : w'.step? id = none := by
  cases hx : w'.step? id with
  | none => rfl
  | some x =>
    obtain ⟨y, hy, -⟩ := h.step? hx
    rw [hn] at hy
    cases hy

/-- A stage that can run has a core of its own that runs it, on an engine whose cores run. -/
theorem World.canRun_runs {w : World} {t : Task} {g : Nat} {st : Stage} (h : w.canRun t g st = true) :
    w.coresRun = true ∧ (t.stageCores g).any t.on = true := by
  simp only [World.canRun, Bool.and_eq_true] at h
  obtain ⟨⟨⟨hrun, -⟩, hon⟩, -⟩ := h
  exact ⟨hrun, hon⟩

/-- An END that has run, posts nothing and drops nothing closes its stage, and ends its task where every other stage has ended (R100). -/
theorem World.ready.closes_end {s : State} {q n g : Nat} {w : World} {r : Run} (h : World.ready s q n g 0x01 anyMod noExtra wholeReads w r)
    (hpen : r.d.pen = false) (hdead : ∀ i, r.d.dead i = false) (hack : w.unacked ⟨q, n⟩ = false) :
    let v := w.executed r.t.id r.g r.ok
    ∃ u su res u', r.t.Begun u g ∧ u.Past u' g res (v.stagePast u su r.d res) ∧ goesOn res.status = true ∧ res.status / 256 ≠ 3 ∧
      (v.pastOp u g su r.d res).phase? ⟨q, n⟩ g = some .ended ∧
      v.completeOp q n g = if r.t.othersOver g then (v.pastOp u g su r.d res).endTask u' ((v.pastOp u g su r.d res).endStatus u')
        else v.pastOp u g su r.d res := by
  intro v
  obtain ⟨st, _, _, ht, hst, hrun, hstart, -⟩ := World.prepare_starts h.1
  obtain ⟨u, su, res, hu, hb, hsu, hph, hstatus, href, hd⟩ := h.executed_stage r.ok
  obtain ⟨-, hpower, hpt, -⟩ := World.setting_eq_iff.mp hstart.setting
  obtain ⟨hcores, hon⟩ := World.canRun_runs hrun
  have hcores : v.coresRun = true := by simpa only [World.coresRun, v, World.executed_power, World.executed_pt, hpower, hpt] using hcores
  have hzero : res.status = 0 := hstatus.trans rfl
  have hgo : goesOn res.status = true := by rw [hzero]; rfl
  have hopc : r.d.opc = 1 := (World.prepare_row h.1).1
  have hid : u.id = ⟨q, n⟩ := World.task?_id hu
  obtain ⟨u', hu', hpast⟩ := World.pastOp_task? (w := v) (g := g) (st := su) (d := r.d) (res := res) (by rw [hid]; exact hu)
  obtain ⟨f, hf⟩ := hb.stgs
  have hended := World.stagePast_end (w := v) (t := u) (st := su) hopc hgo
  have hall : u'.stgs.all (·.phase.past) = r.t.othersOver g := by
    rw [hpast.stgs, hf, modAt, modAt, List.modify_modify_eq]
    exact all_modAt (fun a => by rw [Function.comp_apply, hended]; rfl) _ g
  refine ⟨u, su, res, u', hb, hpast, hgo, by rw [hzero]; decide, ?_, ?_⟩
  · refine World.phase?_eq_some.mpr ⟨u', _, hid ▸ hu', ?_, hended su⟩
    rw [hpast.stgs, modAt, List.getElem?_modify_eq, hsu]
    rfl
  · have hon : (u.stageCores g).any u.on = true := (hb.same (fun t => (t.stageCores g).any t.on) fun _ _ _ _ _ => rfl).trans hon
    have hclose := World.completeOp_ran hu hsu hph hcores hon (.inl hack) hgo (href.trans rfl) ((congrArg Desc.pen hd).trans hpen)
      (fun i => (congrArg (·.dead i) hd).trans (hdead i))
    rw [hclose, show (v.runOf u g su).d = r.d from hd, World.closeOp_eq hu', hall, if_neg (by simp [hgo])]

/-- Settles O21: an operation that ran is closed with the task left to go on (`World.closeOp_eq`), and what that leaves is what
`World.pastOp` does; a task that ends is finished (`World.endTask_pastOp`). -/
theorem operationCompletion : Obligations.OperationCompletion := by
  refine ⟨fun s q n g t st res => ?ran, fun s q n g t st res => ?failed, fun s q n g w r t => ?ended⟩
  case ran =>
    intro w r part slot ht hst hph hrun hon hack hgo href hopc hpen hdead hquiet
    have hid : t.id = ⟨q, n⟩ := World.task?_id ht
    have ht' : w.task? t.id = some t := by rw [hid]; exact ht
    have hnot : (r.d.opc == 1) = false := by simpa using hopc
    obtain ⟨u, hu, hpast⟩ := World.pastOp_task? (g := g) (st := st) (d := r.d) (res := res) ht'
    have hstage : u.stgs[g]? = some (w.stagePast t st r.d res st) := by simp [hpast.stgs, modAt, hst]
    have hopen : u.stgs.all (·.phase.past) = false :=
      List.all_eq_false.mpr ⟨_, List.mem_of_getElem? hstage, by simp [World.stagePast, Stage.pastOp, hnot, Phase.past]⟩
    have hclose : w.completeOp q n g = w.pastOp t g st r.d res := by
      have hack' : w.unacked ⟨q, n⟩ = false ∨ (r.d.release || endsTask t g r.d res) = false := by simpa [endsTask, hgo, hnot] using hack
      rw [World.completeOp_ran ht hst hph hrun hon hack' hgo href hpen hdead, World.closeOp_eq hu, if_neg (by simp [hgo]), if_neg (by simp [hopen])]
    have hgives : Gives (.opComplete q n g) s (w.pastOp t g st r.d res) :=
      gives_onJob rfl hclose (World.settleVotes_nil (by rw [World.pastOp_job]; exact hquiet.1)) (by rw [World.pastOp_job]) hquiet.2
        fun x hx _ => by rwa [World.pastOp_train] at hx
    obtain ⟨hreport, hcount, hdone⟩ := World.pastOp_reports (w := w) (t := t) (g := g) (st := st) (d := r.d) href
    refine ⟨_, hgives, ?_, hdone, hreport, hcount⟩
    rw [← hid, hu, Option.bind_some, hstage]
    simp [World.stagePast, Stage.pastOp, hnot, hgo]
  case failed =>
    intro w ht hst hph hrun hgo hack hc hs hk hquiet
    have hid : t.id = ⟨q, n⟩ := World.task?_id ht
    rw [← hid] at hack hs
    obtain ⟨u, hu, hpast⟩ := World.pastOp_task? (g := g) (st := st) (d := (w.runOf t g st).d) (res := res) (by rw [hid]; exact ht)
    obtain ⟨hvotes, hcomp⟩ := World.endTask_pastOp (st := st) (d := (w.runOf t g st).d) res.status hpast hack hc hs hk hquiet.1
    have hclose : w.completeOp q n g = (w.pastOp t g st (w.runOf t g st).d res).endTask u res.status := by
      rw [World.completeOp_failed ht hst hph hrun (hid ▸ hack) hgo, World.closeOp_eq hu, if_pos (by simp [hgo])]
    refine ⟨_, rfl, ?_⟩
    rw [State.onJob_settled hclose hvotes]
    exact hcomp
  case ended =>
    intro h ht hpen hdead hack hc hquiet
    obtain ⟨htr, hjob, hsteps⟩ := World.prepare_kept h.1
    obtain rfl : r.t = t := Option.some.inj (htr.symm.trans ht)
    have hid : r.t.id = ⟨q, n⟩ := World.task?_id ht
    obtain ⟨u, su, res, u', hb, hpast, hgo, hclass, hphase, hclose⟩ := h.closes_end hpen hdead hack
    have hvotes : (w.executed r.t.id r.g r.ok).job.votes = [] := by rw [World.executed_job, hjob]; exact hquiet.1
    refine ⟨fun ho => ?_, fun ho hk hs => ?_⟩
    · rw [ho] at hclose
      obtain ⟨t', he, hw⟩ := exec_endOp_ready h (by rw [hclose]; exact (congrArg _ World.pastOp_job).trans hvotes)
      exact ⟨t', he, by rw [hw, hclose]; exact hphase⟩
    · have hfields := hb.same (fun t => (t.id, t.slot, t.silent, t.closing, t.kind, t.worst)) fun _ _ _ _ _ => rfl
      simp only [Prod.mk.injEq] at hfields
      obtain ⟨huid, hslot, hsilent, hclosing, hkind, huworst⟩ := hfields
      have hworst : ((w.executed r.t.id r.g r.ok).pastOp u g su r.d res).endStatus u' = r.t.worst := by
        rw [World.endStatus, if_neg (by rw [hpast.kind, hkind, hk]; decide), hpast.worst, if_neg hclass, huworst]
      rw [ho, if_pos rfl, hworst] at hclose
      have hnone : w.step? r.t.id = none := hsteps.step?_eq_none (by rw [hid]; exact hs)
      obtain ⟨hv, hcomp⟩ := World.endTask_pastOp (w := w.executed r.t.id r.g r.ok) (st := su) (d := r.d) r.t.worst hpast
        (by rw [huid, hid]; exact hack) (hclosing.trans hc) (by rw [huid]; exact (World.step?_of_train (World.executed_train ..) _).trans hnone)
        (by rw [hkind, hk]; decide) hvotes
      obtain ⟨t', he, hw⟩ := exec_endOp_ready h (by rw [hclose]; exact hv)
      refine ⟨t', he, ?_⟩
      rw [hw, hclose]
      exact (hcomp.of_task huid hslot hsilent).of_same rfl rfl

end Sys2Proof.Machine

namespace Sys2Proof.Machine

open Sys2Proof

/-! A port and its update (R202 to R206). -/

theorem World.port_updPort (w : World) (k : Nat) (f : Port → Port) (j : Nat) :
    (w.updPort k f).port j = if j = k ∧ j < w.link.ports.length then f (w.port j) else w.port j := by
  simp only [World.port, World.updPort, modAt, List.getD_eq_getElem?_getD, List.getElem?_modify]
  by_cases hj : j < w.link.ports.length
  · by_cases hk : k = j
    · simp [hj, hk]
    · simp [hk, Ne.symm hk]
  · simp [hj]

/-- A port that is not as an absent one stands in the list. -/
theorem World.port_lt_of_ne {w : World} {k : Nat} (h : w.port k ≠ {}) : k < w.link.ports.length :=
  Nat.lt_of_not_le fun hk => h (by rw [World.port, List.getD_eq_getElem?_getD, List.getElem?_eq_none hk, Option.getD_none])

theorem World.port_lt {w : World} {k : Nat} (h : (w.port k).st ≠ 0) : k < w.link.ports.length :=
  World.port_lt_of_ne fun hp => h (by rw [hp])

theorem World.port_updPort_same {w : World} {k : Nat} (hk : k < w.link.ports.length) (f : Port → Port) : (w.updPort k f).port k = f (w.port k) := by
  rw [World.port_updPort, if_pos ⟨rfl, hk⟩]

@[simp] theorem World.updPort_length (w : World) (k : Nat) (f : Port → Port) : (w.updPort k f).link.ports.length = w.link.ports.length :=
  List.length_modify f w.link.ports k

theorem World.updPort_updPort (w : World) (k : Nat) (f g : Port → Port) : (w.updPort k f).updPort k g = w.updPort k (fun p => g (f p)) := by
  simp only [World.updPort, modAt, List.modify_modify_eq]
  rfl

/-- A fact about one port is kept where the change of a port keeps it. -/
theorem World.port_updPort_keeps {w : World} {j : Nat} {Q : Port → Prop} (h : Q (w.port j)) (k : Nat) {f : Port → Port}
    (hf : ∀ p, Q p → Q (f p)) : Q ((w.updPort k f).port j) := by
  rw [World.port_updPort]
  split
  · exact hf _ h
  · exact h

/-- An acknowledgement takes the oldest flits from the replay buffer, and nothing else of the port (R206). -/
theorem Port.acked_eq (p : Port) (ack : Nat) : ∃ n, p.acked ack = { p with unacked := p.unacked.drop n } := by
  unfold Port.acked
  split
  · exact ⟨_, rfl⟩
  · exact ⟨0, rfl⟩

/-- A part of a port besides its replay buffer is as before an acknowledgement. -/
theorem Port.acked_keeps {α : Type} (g : Port → α) (hg : ∀ (p : Port) u, g { p with unacked := u } = g p) (p : Port) (ack : Nat) :
    g (p.acked ack) = g p := by
  obtain ⟨n, hn⟩ := p.acked_eq ack
  rw [hn, hg]

@[simp] theorem Port.acked_queue (p : Port) (ack : Nat) : (p.acked ack).queue = p.queue := Port.acked_keeps Port.queue (fun _ _ => rfl) p ack
@[simp] theorem Port.acked_owed (p : Port) (ack : Nat) : (p.acked ack).owed = p.owed := Port.acked_keeps Port.owed (fun _ _ => rfl) p ack
@[simp] theorem Port.acked_held (p : Port) (ack : Nat) : (p.acked ack).held = p.held := Port.acked_keeps Port.held (fun _ _ => rfl) p ack
@[simp] theorem Port.acked_crc (p : Port) (ack : Nat) : (p.acked ack).crc = p.crc := Port.acked_keeps Port.crc (fun _ _ => rfl) p ack
@[simp] theorem Port.acked_rxSeq (p : Port) (ack : Nat) : (p.acked ack).rxSeq = p.rxSeq := Port.acked_keeps Port.rxSeq (fun _ _ => rfl) p ack
@[simp] theorem Port.acked_txSeq (p : Port) (ack : Nat) : (p.acked ack).txSeq = p.txSeq := Port.acked_keeps Port.txSeq (fun _ _ => rfl) p ack
@[simp] theorem Port.acked_rcvd (p : Port) (ack : Nat) : (p.acked ack).rcvd = p.rcvd := Port.acked_keeps Port.rcvd (fun _ _ => rfl) p ack
@[simp] theorem Port.acked_resent (p : Port) (ack : Nat) : (p.acked ack).resent = p.resent := Port.acked_keeps Port.resent (fun _ _ => rfl) p ack
@[simp] theorem Port.acked_credits (p : Port) (ack : Nat) : (p.acked ack).credits = p.credits :=
  Port.acked_keeps Port.credits (fun _ _ => rfl) p ack

theorem Port.mem_of_mem_acked {p : Port} {ack : Nat} {e : Flit × Nat} (h : e ∈ (p.acked ack).unacked) : e ∈ p.unacked := by
  obtain ⟨n, hn⟩ := p.acked_eq ack
  rw [hn] at h
  exact List.mem_of_mem_drop h

theorem World.foldl_send {β : Type} (f : β → Out) (l : List β) (w : World) :
    l.foldl (fun w b => w.send (f b)) w = { w with out := w.out ++ l.map f } := by
  induction l generalizing w with
  | nil => simp
  | cons b l ih => rw [List.foldl_cons, ih, World.send, List.map_cons, List.append_assoc, List.singleton_append]

/-! What a port's flits leave: everything but the ports and the outbox (R204 to R206, R212). -/

/-- The engine without its ports and its outbox. -/
def World.offPorts (w : World) : World := { w with out := [], link := { w.link with ports := [] } }

@[simp] theorem World.foldl_offPorts {β : Type} {f : World → β → World} (h : ∀ w b, (f w b).offPorts = w.offPorts) (l : List β) (w : World) :
    (l.foldl f w).offPorts = w.offPorts := foldl_keeps World.offPorts h l w

@[simp] theorem World.send_offPorts (w : World) (o : Out) : (w.send o).offPorts = w.offPorts := rfl
@[simp] theorem World.updPort_offPorts (w : World) (k : Nat) (f : Port → Port) : (w.updPort k f).offPorts = w.offPorts := rfl
@[simp] theorem World.control_offPorts (w : World) (k : Nat) (nak : Option Nat) : (w.control k nak).offPorts = w.offPorts := rfl
@[simp] theorem World.pumpOne_offPorts (w : World) (k : Nat) : (w.pumpOne k).offPorts = w.offPorts := by
  simp only [World.pumpOne]; split <;> simp
@[simp] theorem World.pump_offPorts (w : World) (k : Nat) : (w.pump k).offPorts = w.offPorts := by simp [World.pump]
@[simp] theorem World.launchFrom_offPorts (w : World) (src vc dst : Nat) (bytes : Bytes) (lvl : Option Nat) :
    (w.launchFrom src vc dst bytes lvl).offPorts = w.offPorts := by
  unfold World.launchFrom; split <;> simp
@[simp] theorem World.resendFrom_offPorts (w : World) (k seq : Nat) : (w.resendFrom k seq).offPorts = w.offPorts := by
  simp only [World.resendFrom, World.foldl_send]; split <;> rfl

theorem World.job_of_offPorts {w w' : World} (h : w'.offPorts = w.offPorts) : w'.job = w.job :=
  show w'.offPorts.job = w.offPorts.job from congrArg World.job h

/-! What waits for a transaction credit, and what an acknowledgement gives back (R206, R215). -/

/-- What every launch and every change of a collective keep is kept where what waited for a credit is sent. -/
theorem World.sendWaiting_keeps {P : World → Prop} (hcoll : ∀ w seq f, P w → P (w.updColl seq f))
    (hlaunch : ∀ w src vc dst bytes lvl, P w → P (w.launchFrom src vc dst bytes lvl)) {w : World} (hw : P w) (x : Waiting) :
    P (w.sendWaiting x) := by
  have hsent : ∀ {v : World}, P v → ∀ m,
      P ((x.msgs.dropLast.foldl (fun w b => World.launch w x.vc x.dst b) v).launchFrom v.node x.vc x.dst m x.lvl) := fun hv m =>
    hlaunch _ _ _ _ _ _ (List.foldlRecOn _ _ hv fun v hv b _ => hlaunch _ _ _ _ _ _ hv)
  simp only [World.sendWaiting]
  split <;> split
  · exact hcoll _ _ _ hw
  · exact hw
  · exact hsent (hcoll _ _ _ hw) _
  · exact hsent hw _

/-- The transaction credits that the engine holds, and what waits for one. -/
def World.pool (w : World) : Nat × List Waiting := (w.link.credits, w.job.toSend)

theorem World.pool_eq_iff {w : World} {n : Nat} {ws : List Waiting} : w.pool = (n, ws) ↔ w.link.credits = n ∧ w.job.toSend = ws := by
  simp [World.pool]

theorem World.pool_of_offPorts {w w' : World} (h : w'.offPorts = w.offPorts) : w'.pool = w.pool :=
  show w'.offPorts.pool = w.offPorts.pool from congrArg World.pool h

@[simp] theorem World.sendWaiting_pool (w : World) (x : Waiting) : (w.sendWaiting x).pool = w.pool :=
  World.sendWaiting_keeps (P := fun v => v.pool = w.pool) (fun _ _ _ h => h)
    (fun _ _ _ _ _ _ h => (World.pool_of_offPorts (World.launchFrom_offPorts ..)).trans h) rfl x

/-- What waited longest takes the credit that comes back (R215). -/
theorem World.creditBack_pool (w : World) : w.creditBack.pool =
    (if w.job.toSend = [] then min 1024 (w.link.credits + 1) else min 1024 (w.link.credits + 1) - 1, w.job.toSend.drop 1) := by
  simp only [World.creditBack]
  split <;> rename_i hs <;> replace hs : w.job.toSend = _ := hs
  · rw [hs]; exact World.pool_eq_iff.mpr ⟨rfl, hs⟩
  · rw [hs]; exact World.sendWaiting_pool _ _

/-- The engine without its ports and its outbox, and without the credits, the collectives and what waits for a credit. -/
def World.offLink (w : World) : World :=
  { w with out := [], link := { w.link with ports := [], credits := 0 }, job := { w.job with colls := [], toSend := [] } }

/-- A part of the engine that rests on nothing left out is the same where nothing else differs. -/
theorem World.eq_of_offLink {w w' : World} (h : w'.offLink = w.offLink) {α : Type} (g : World → α) (hg : ∀ v : World, g v.offLink = g v) :
    g w' = g w := by
  rw [← hg, h, hg]

theorem World.offLink_of_offPorts {w w' : World} (h : w'.offPorts = w.offPorts) : w'.offLink = w.offLink :=
  show w'.offPorts.offLink = w.offPorts.offLink from congrArg World.offLink h

@[simp] theorem World.updPort_offLink (w : World) (k : Nat) (f : Port → Port) : (w.updPort k f).offLink = w.offLink := rfl
@[simp] theorem World.control_offLink (w : World) (k : Nat) (nak : Option Nat) : (w.control k nak).offLink = w.offLink := rfl
@[simp] theorem World.pump_offLink (w : World) (k : Nat) : (w.pump k).offLink = w.offLink := World.offLink_of_offPorts (World.pump_offPorts w k)
@[simp] theorem World.launchFrom_offLink (w : World) (src vc dst : Nat) (bytes : Bytes) (lvl : Option Nat) :
    (w.launchFrom src vc dst bytes lvl).offLink = w.offLink :=
  World.offLink_of_offPorts (World.launchFrom_offPorts w src vc dst bytes lvl)

@[simp] theorem World.sendWaiting_offLink (w : World) (x : Waiting) : (w.sendWaiting x).offLink = w.offLink :=
  World.sendWaiting_keeps (P := fun v => v.offLink = w.offLink) (fun _ _ _ h => h)
    (fun _ _ _ _ _ _ h => (World.launchFrom_offLink ..).trans h) rfl x

@[simp] theorem World.creditBack_offLink (w : World) : w.creditBack.offLink = w.offLink := by
  simp only [World.creditBack]
  split
  · rfl
  · exact (World.sendWaiting_offLink _ _).trans rfl

@[simp] theorem World.ackFlits_offLink (w : World) (k ack : Nat) : (w.ackFlits k ack).offLink = w.offLink := by
  simp only [World.ackFlits]
  exact foldl_keeps World.offLink (fun v s => World.creditBack_offLink (v.updColl s _)) _ _

/-- An acknowledgement that takes no last flit of a level message changes the replay buffer alone. -/
theorem World.ackFlits_plain {w : World} {k : Nat} (h : (w.port k).unacked.all (fun e => e.1.lvl.isNone) = true) (ack : Nat) :
    w.ackFlits k ack = w.updPort k (·.acked ack) := by
  have hnone : ∀ n, ((w.port k).unacked.take n).filterMap (fun e => e.1.lvl) = [] := fun n =>
    List.filterMap_eq_nil_iff.mpr fun e he => Option.isNone_iff_eq_none.mp (List.all_eq_true.mp h e (List.mem_of_mem_take he))
  rw [World.ackFlits, hnone, List.foldl_nil]

/-! Flits of a message that comes (R204, R206). -/

/-- The control flit that a port sends, with every credit that it owes and a NAK where one is given. -/
def Port.ctlFlit (p : Port) (k : Nat) (nak : Option Nat) : Out :=
  .flit k { vc := 0, ctl := true, seq := p.txSeq, body := ctlBody p.owed nak } ((p.rxSeq + 4095) % 4096)

theorem World.control_out (w : World) (k : Nat) (nak : Option Nat) : (w.control k nak).out = w.out ++ [(w.port k).ctlFlit k nak] := rfl

theorem World.control_port {w : World} {k : Nat} (hk : k < w.link.ports.length) (nak : Option Nat) :
    (w.control k nak).port k = { w.port k with owed := List.replicate 8 0, sent := add64 (w.port k).sent 1 } :=
  World.port_updPort_same (w := w.send _) hk _

/-- What a port discards is answered with a NAK that names the sequence expected (R206). -/
theorem World.nakFlit_answers {w : World} {k : Nat} (hk : k < w.link.ports.length) (crcOk : Bool) :
    let p := w.port k
    let w' := w.nakFlit k crcOk
    w'.out = w.out ++ [p.ctlFlit k (some p.rxSeq)] ∧
      w'.port k = { p with crc := if crcOk then p.crc else sat32 p.crc 1, owed := List.replicate 8 0, sent := add64 p.sent 1 } := by
  have hp := World.port_updPort_same hk (fun p => { p with crc := if crcOk then p.crc else sat32 p.crc 1 })
  refine ⟨?_, ?_⟩
  · simp only [World.nakFlit, World.control_out, hp]
    rfl
  · rw [World.nakFlit, World.control_port (by simpa using hk), hp]

/-- A port with no flit waiting has nothing to send. -/
theorem World.pump_nil {w : World} {k : Nat} (h : (w.port k).queue = []) : w.pump k = w := by simp [World.pump, h]

/-- A port that has taken `n` flits in order (R204, R206). -/
def Port.kept (p : Port) (h : RxHdr) (n : Nat) : Port :=
  { p.acked h.ack with
    rxSeq := (p.rxSeq + n) % 4096
    rcvd := add64 p.rcvd n
    owed := modAt p.owed (creditIx (h.vc % 4) (h.dlc % 2)) (· + n) }

theorem sum_modAt_add_le (l : List Nat) (i n : Nat) : (modAt l i (· + n)).sum ≤ l.sum + n := by
  induction l generalizing i with
  | nil => simp [modAt]
  | cons a l ih =>
    cases i with
    | zero => simp [modAt]; omega
    | succ i => simpa [modAt, Nat.add_assoc] using ih i

/-- Flits are taken with no answer where no credit is due back yet, and nothing is sent where nothing waits. -/
theorem World.keepFlits_quiet {w : World} {k n : Nat} {h : RxHdr} (hk : k < w.link.ports.length)
    (hplain : (w.port k).unacked.all (fun e => e.1.lvl.isNone) = true) (hsum : (w.port k).owed.sum + n < 8) (hq : (w.port k).queue = []) :
    w.keepFlits k h n = w.updPort k (·.kept h n) := by
  have hport := World.port_updPort_same hk (·.kept h n)
  have hkeep : (w.ackFlits k h.ack).updPort k (fun p => { p with
      rxSeq := (p.rxSeq + n) % 4096, rcvd := add64 p.rcvd n, owed := modAt p.owed (creditIx (h.vc % 4) (h.dlc % 2)) (· + n) }) =
      w.updPort k (·.kept h n) := by
    rw [World.ackFlits_plain hplain, World.updPort_updPort]
    simp [Port.kept]
  have howed : ¬ 8 ≤ ((w.updPort k (·.kept h n)).port k).owed.sum := by
    have hle := sum_modAt_add_le (w.port k).owed (creditIx (h.vc % 4) (h.dlc % 2)) n
    rw [hport]
    exact Nat.not_le.mpr (Nat.lt_of_le_of_lt hle hsum)
  simp only [World.keepFlits, hkeep, if_neg howed]
  exact World.pump_nil (by rw [hport, Port.kept]; simpa using hq)

@[simp] theorem World.keepFlits_offLink (w : World) (k : Nat) (h : RxHdr) (n : Nat) : (w.keepFlits k h n).offLink = w.offLink := by
  simp [World.keepFlits, apply_ite World.offLink]

/-- Where no level message is acknowledged, taking flits changes only the ports and the outbox. -/
theorem World.keepFlits_offPorts {w : World} {k : Nat} {h : RxHdr} (hplain : (w.port k).unacked.all (fun e => e.1.lvl.isNone) = true) (n : Nat) :
    (w.keepFlits k h n).offPorts = w.offPorts := by
  simp [World.keepFlits, World.ackFlits_plain hplain, apply_ite World.offPorts]

/-- Whether the first flit of what has come is intact and the one that a port expects (R206). -/
def Port.expects (p : Port) (h : RxHdr) : Bool := h.crcOk && decide (h.reserved = 0) && decide (h.seq = p.rxSeq)

/-- The flits of a message of `n` that a port has not kept already (R206). -/
def Port.left (p : Port) (h : RxHdr) (n : Nat) : Nat := n - p.held.getD (h.vc % 4) 0

/-- Whether every flit that is left of a message of `n` has come in order and intact. -/
def Port.takesAll (p : Port) (h : RxHdr) (n : Nat) : Bool := p.expects h && h.bad.all (fun b => decide (p.left h n ≤ b.1))

theorem Port.not_expects (p : Port) (h : RxHdr) :
    (!h.crcOk || decide (h.reserved ≠ 0) || decide (h.seq ≠ p.rxSeq)) = !p.expects h := by
  simp only [Port.expects, Bool.not_and, decide_not]

section
variable {w : World} {k n : Nat} {h : RxHdr} (hst : (w.port k).st = 2)
include hst

theorem World.rxFlits_unexpected (hx : (w.port k).expects h = false) : w.rxFlits k h n = (w.nakFlit k h.crcOk, false) := by
  simp only [World.rxFlits, Port.not_expects]
  rw [if_neg (fun hne => hne hst), hx, Bool.not_false, if_pos rfl]

theorem World.rxFlits_cut {i : Nat} {crc : Bool} (hx : (w.port k).expects h = true) (hb : h.bad = some (i, crc)) (hi : i < (w.port k).left h n) :
    w.rxFlits k h n = (((w.keepFlits k h i).updPort k (fun p => { p with held := modAt p.held (h.vc % 4) (· + i) })).nakFlit k (!crc), false) := by
  have hbad : h.bad.filter (fun b => decide (b.1 < n - (w.port k).held.getD (h.vc % 4) 0)) = some (i, crc) := by
    rw [hb, Option.filter_some]
    exact if_pos (decide_eq_true hi)
  simp only [World.rxFlits, Port.not_expects, hbad]
  rw [if_neg (fun hne => hne hst), hx, Bool.not_true, if_neg Bool.false_ne_true]

theorem World.rxFlits_whole (hg : (w.port k).takesAll h n = true) :
    w.rxFlits k h n =
      ((w.keepFlits k h ((w.port k).left h n)).updPort k (fun p => { p with held := modAt p.held (h.vc % 4) (fun _ => 0) }), true) := by
  obtain ⟨hx, hall⟩ := Bool.and_eq_true_iff.mp hg
  have hbad : h.bad.filter (fun b => decide (b.1 < n - (w.port k).held.getD (h.vc % 4) 0)) = none :=
    Option.filter_eq_none_iff.mpr fun b hb => by simpa [hb, Port.left] using hall
  simp only [World.rxFlits, Port.not_expects, hbad]
  rw [if_neg (fun hne => hne hst), hx, Bool.not_true, if_neg Bool.false_ne_true, Port.left]

end

/-- What is in the outbox stays there while a port sends. -/
theorem World.pump_mem_out {w : World} {o : Out} (k : Nat) (ho : o ∈ w.out) : o ∈ (w.pump k).out := by
  refine List.foldlRecOn (motive := fun w : World => o ∈ w.out) _ _ ho fun w hw _ _ => ?_
  simp only [World.pumpOne]
  split
  · exact hw
  · exact List.mem_append_left _ hw

/-- A message that has a route is sent to its destination (R212). -/
theorem World.launchFrom_mem_out {w : World} {src vc dst : Nat} {bytes : Bytes} {lvl : Option Nat} (hr : w.routeCfg.next w.node dst ≠ none) :
    .message dst bytes ∈ (w.launchFrom src vc dst bytes lvl).out := by
  unfold World.launchFrom
  split
  · contradiction
  · exact World.pump_mem_out _ (List.mem_append_right _ (List.mem_singleton_self _))

/-- Settles O38: the flits are judged once (`World.rxFlits_whole`, `World.rxFlits_cut`, `World.rxFlits_unexpected`), and a message that is whole
is for this engine, for another node or of an old epoch by what its flits leave (`World.offLink`). -/
theorem messagesArrive : Obligations.MessagesArrive := by
  intro w k h m n wire hst p first v left good plain
  have hk : k < w.link.ports.length := World.port_lt (by rw [hst]; decide)
  have hpart : ∀ {w' : World}, w.rxFlits k h n = (w', false) → w.receive k h m n wire = (w', false) := fun hr => by simp only [World.receive, hr]
  have hwhole : good = true → ∃ u, w.rxFlits k h n = (u, true) ∧ u.offLink = w.offLink ∧ (plain → u.job = w.job) := fun hgood =>
    ⟨_, World.rxFlits_whole hst hgood, (World.updPort_offLink ..).trans (World.keepFlits_offLink ..),
      fun hplain => World.job_of_offPorts ((World.updPort_offPorts ..).trans (World.keepFlits_offPorts hplain _))⟩
  refine ⟨fun hplain hgood hdst hep hauth hsum hq => ?here, fun i crc hplain hfirst hb hi hsum hq => ?cut, fun hgood hdst hep => ?old,
    fun hgood hdst hroute => ?onward, fun hfirst => ?unexpected⟩
  case here =>
    have hrx := World.rxFlits_whole (n := n) hst hgood
    rw [World.keepFlits_quiet hk hplain (by exact hsum) hq, World.updPort_updPort] at hrx
    simp only [World.receive, hrx]
    rw [if_neg (fun hne => hne hdst), if_neg (fun hne => hne hep), if_neg (by simp [hauth])]
    simp [Port.kept, left, v, p, Port.left]
  case cut =>
    have hrx := World.rxFlits_cut (n := n) hst hfirst hb hi
    rw [World.keepFlits_quiet hk hplain hsum hq, World.updPort_updPort] at hrx
    obtain ⟨hout, hport⟩ := World.nakFlit_answers
      (w := w.updPort k fun p => { p.kept h i with held := modAt (p.kept h i).held (h.vc % 4) (· + i) }) (by simpa using hk) (!crc)
    rw [World.port_updPort_same hk] at hout hport
    refine ⟨_, hpart hrx, ?_⟩
    rw [hport, hout]
    cases crc <;> simp [Port.kept, Port.ctlFlit, p, v]
  case old =>
    obtain ⟨u, hrx, hoff, hjob⟩ := hwhole hgood
    have hnode : u.node = w.node := World.eq_of_offLink hoff World.node fun _ => rfl
    have hepoch : u.link.epoch = w.link.epoch := World.eq_of_offLink hoff (·.link.epoch) fun _ => rfl
    refine ⟨u, ?_, World.eq_of_offLink hoff World.mem fun _ => rfl, World.eq_of_offLink hoff World.sched fun _ => rfl, hjob⟩
    simp only [World.receive, hrx, hnode, hepoch]
    rw [if_neg (fun hne => hne hdst), if_pos hep]
  case onward =>
    obtain ⟨u, hrx, hoff, -⟩ := hwhole hgood
    have hnode : u.node = w.node := World.eq_of_offLink hoff World.node fun _ => rfl
    have hcfg : u.routeCfg = w.routeCfg := World.eq_of_offLink hoff World.routeCfg fun _ => rfl
    have hsent : (u.launchFrom m.src h.vc m.dst wire none).offLink = w.offLink := (World.launchFrom_offLink ..).trans hoff
    refine ⟨u.launchFrom m.src h.vc m.dst wire none, ?_, World.launchFrom_mem_out (by rwa [hcfg, hnode]),
      World.eq_of_offLink hsent World.mem fun _ => rfl, World.eq_of_offLink hsent World.sched fun _ => rfl⟩
    simp only [World.receive, hrx, hnode]
    rw [if_pos hdst]
  case unexpected =>
    obtain ⟨hout, hport⟩ := World.nakFlit_answers hk h.crcOk
    refine ⟨_, hpart (World.rxFlits_unexpected hst hfirst), rfl, rfl, ?_, hout⟩
    rw [hport]

/-! Training (R202, R210). -/

/-- A port that comes up or fails ends no start where none is in progress. -/
theorem World.settleStart_idle {w : World} (h : w.link.jobState ≠ 1) : w.settleStart = w := by simp [World.settleStart, h]

section
variable {w : World} {k : Nat} (hc : w.clocked = true) (hst : (w.port k).st = 1)
include hc hst

theorem World.stageTrained_next {nbr : Nbr} (hs : (w.port k).stage < 6) : w.stageTrained k nbr = w.updPort k (fun p => { p with
    stage := p.stage + 1, nbr := if p.stage = 5 then some (16 * nbr.tray + nbr.slot, nbr.port) else p.nbr }) := by
  simp [World.stageTrained, hc, hst, hs]

theorem World.stageTrained_last {nbr : Nbr} (hs : 6 ≤ (w.port k).stage) (hj : w.link.jobState ≠ 1) :
    w.stageTrained k nbr = w.updPort k (fun p => { p with st := 2, stage := 0, attempt := 0 }) := by
  simp only [World.stageTrained, hc, hst, Nat.not_lt.mpr hs, if_false]
  exact World.settleStart_idle hj

theorem World.trainTimeout_again (ha : (w.port k).attempt < 3) :
    w.trainTimeout k = w.updPort k (fun p => p.attemptOf (p.attempt + 1)) := by
  simp [World.trainTimeout, hc, hst, ha]

theorem World.trainTimeout_last (ha : 3 ≤ (w.port k).attempt) (hj : w.link.jobState ≠ 1) (hr : w.link.jobState ≠ 3) :
    w.trainTimeout k = w.updPort k (fun p => { p with st := 3, stage := 0, attempt := 0 }) := by
  simp [World.trainTimeout, hc, hst, Nat.not_lt.mpr ha, World.updPort, hj, hr]

end

/-! Flits sent again (R206, R207). -/

/-- No flit in a port's replay buffer has been sent again more often than a number of times. -/
def World.ResentAtMost (w : World) (k b : Nat) : Prop := ∀ e ∈ (w.port k).unacked, e.2 ≤ b

section
variable {w : World} {k b : Nat} (h : w.ResentAtMost k b)
include h

theorem World.ResentAtMost.updPort (j : Nat) {f : Port → Port} (hf : ∀ p, ∀ e ∈ (f p).unacked, e ∈ p.unacked ∨ e.2 ≤ b) :
    (w.updPort j f).ResentAtMost k b :=
  World.port_updPort_keeps (Q := fun p => ∀ e ∈ p.unacked, e.2 ≤ b) h j fun p hp e he => (hf p e he).elim (hp e) id

theorem World.ResentAtMost.pumpOne (j : Nat) : (w.pumpOne j).ResentAtMost k b := by
  simp only [World.pumpOne]
  split
  · exact h
  · refine World.ResentAtMost.updPort h j fun p e he => ?_
    refine (List.mem_append.mp he).imp id fun he => ?_
    rw [List.mem_singleton.mp he]
    exact Nat.zero_le b

theorem World.ResentAtMost.pump (j : Nat) : (w.pump j).ResentAtMost k b :=
  List.foldlRecOn (motive := fun w : World => w.ResentAtMost k b) _ _ h fun _ hw _ _ => World.ResentAtMost.pumpOne hw j

theorem World.ResentAtMost.launchFrom (src vc dst : Nat) (bytes : Bytes) (lvl : Option Nat) :
    (w.launchFrom src vc dst bytes lvl).ResentAtMost k b := by
  unfold World.launchFrom
  split
  · exact h
  · refine World.ResentAtMost.pump (World.ResentAtMost.updPort (w := w.send (.message dst bytes)) h _ ?_) _
    exact fun p e he => .inl he

theorem World.ResentAtMost.creditBack : w.creditBack.ResentAtMost k b := by
  simp only [World.creditBack]
  split
  · exact h
  · refine World.sendWaiting_keeps (P := fun w => w.ResentAtMost k b) (fun _ _ _ hw => hw)
      (fun _ _ _ _ _ _ hw => World.ResentAtMost.launchFrom hw _ _ _ _ _) ?_ _
    exact h

end

theorem World.ResentAtMost.mono {w : World} {k a b : Nat} (h : w.ResentAtMost k a) (hab : a ≤ b) : w.ResentAtMost k b :=
  fun e he => Nat.le_trans (h e he) hab

/-- A port that has sent again its flits from a place in the replay buffer on (R206). -/
def Port.resending (p : Port) (i : Nat) : Port :=
  { p with unacked := p.unacked.take i ++ (p.unacked.drop i).map (fun e => (e.1, e.2 + 1)), resent := sat32 p.resent (p.unacked.drop i).length }

theorem World.resendFrom_sends {w : World} {k seq i : Nat} (hi : (w.port k).unacked.findIdx? (fun e => e.1.seq == seq) = some i) :
    let w' := w.resendFrom k seq
    w'.port k = (w.port k).resending i ∧
      w'.out = w.out ++ ((w.port k).unacked.drop i).map (fun e => .flit k e.1 (((w.port k).rxSeq + 4095) % 4096)) := by
  have hk : k < w.link.ports.length := World.port_lt_of_ne fun hp => by simp [hp] at hi
  simp only [World.resendFrom, hi, World.foldl_send]
  exact ⟨World.port_updPort_same hk _, rfl⟩

/-- Resending sends each flit once more at most. -/
theorem World.ResentAtMost.resendFrom {w : World} {k b : Nat} (h : w.ResentAtMost k b) (seq : Nat) : (w.resendFrom k seq).ResentAtMost k (b + 1) := by
  cases hi : (w.port k).unacked.findIdx? (fun e => e.1.seq == seq) with
  | none => simpa only [World.resendFrom, hi] using h.mono (Nat.le_succ b)
  | some i =>
    intro e he
    rw [(World.resendFrom_sends hi).1] at he
    rcases List.mem_append.mp he with he | he
    · exact Nat.le_succ_of_le (h e (List.mem_of_mem_take he))
    · obtain ⟨x, hx, rfl⟩ := List.mem_map.mp he
      exact Nat.succ_le_succ (h x (List.mem_of_mem_drop hx))

/-! Control flits (R204, R206, R215). -/

/-- A port that a good control flit has given its credits. -/
def Port.credited (p : Port) (credits : List Nat) : Port :=
  { p with rcvd := add64 p.rcvd 1, credits := p.credits.zipIdx.map (fun x => x.1 + credits.getD x.2 0) }

theorem Port.credited_acked (p : Port) (ack : Nat) (credits : List Nat) : (p.acked ack).credited credits =
    { p.acked ack with rcvd := add64 p.rcvd 1, credits := p.credits.zipIdx.map (fun x => x.1 + credits.getD x.2 0) } := by
  simp [Port.credited]

/-- What a good control flit does, where no flit has been sent again too often: its acknowledgement, its credits and its NAK. -/
def World.controlled (w : World) (k ack : Nat) (credits : List Nat) (nak : Nat) : World :=
  let w := (w.ackFlits k ack).updPort k (·.credited credits)
  (if bitAt nak 15 then w.resendFrom k (nak % 4096) else w).pump k

theorem World.takeControl_good {w : World} {k nak : Nat} {h : RxHdr} {credits : List Nat} (hst : (w.port k).st = 2) (hc : h.crcOk = true)
    (hr : h.reserved = 0) (hlow : (w.controlled k h.ack credits nak).ResentAtMost k 7) :
    w.takeControl k h credits nak = w.controlled k h.ack credits nak := by
  have hfew : ((w.controlled k h.ack credits nak).port k).unacked.any (fun e => decide (8 ≤ e.2)) = false :=
    List.any_eq_false.mpr fun e he => by simpa using Nat.lt_succ_of_le (hlow e he)
  have hbad : ¬((!h.crcOk || decide (h.reserved ≠ 0)) = true) := by simp [hc, hr]
  simp only [World.takeControl]
  rw [if_neg (fun hne => hne hst), if_neg hbad]
  exact if_neg (ne_true_of_eq_false hfew)

theorem World.takeControl_bad {w : World} {k nak : Nat} {h : RxHdr} {credits : List Nat} (hst : (w.port k).st = 2)
    (hb : h.crcOk = false ∨ h.reserved ≠ 0) : w.takeControl k h credits nak = w.nakFlit k h.crcOk := by
  have hk : k < w.link.ports.length := World.port_lt (by rw [hst]; decide)
  have hbad : (!h.crcOk || decide (h.reserved ≠ 0)) = true := by simpa using hb
  simp only [World.takeControl, World.nakFlit]
  rw [if_neg (fun hne => hne hst), if_pos hbad, World.port_updPort_same hk]

/-- A control flit's acknowledgement alone moves transaction credits (R215). -/
theorem World.controlled_pool (w : World) (k ack : Nat) (credits : List Nat) (nak : Nat) :
    (w.controlled k ack credits nak).pool = (w.ackFlits k ack).pool :=
  World.pool_of_offPorts (by simp [World.controlled, apply_ite World.offPorts])

/-- A control flit has each flit sent again once at most (R206). -/
theorem World.ResentAtMost.controlled {w : World} {k ack b : Nat} (h : (w.ackFlits k ack).ResentAtMost k b) (credits : List Nat) (nak : Nat) :
    (w.controlled k ack credits nak).ResentAtMost k (b + 1) := by
  have hup : ((w.ackFlits k ack).updPort k (·.credited credits)).ResentAtMost k b := h.updPort k fun _ _ he => .inl he
  refine World.ResentAtMost.pump ?_ k
  split
  · exact hup.resendFrom _
  · exact hup.mono (Nat.le_succ b)

section
variable {w : World} {k ack nak : Nat} {credits : List Nat} (hk : k < w.link.ports.length)
  (hplain : (w.port k).unacked.all (fun e => e.1.lvl.isNone) = true) (hq : (w.port k).queue = [])
include hk hplain hq

/-- Where no level message is acknowledged and no flit waits, a control flit without a NAK changes its port alone. -/
theorem World.controlled_quiet (hn : bitAt nak 15 = false) :
    w.controlled k ack credits nak = w.updPort k (fun p => (p.acked ack).credited credits) := by
  rw [World.controlled, World.ackFlits_plain hplain, World.updPort_updPort, hn, if_neg Bool.false_ne_true]
  exact World.pump_nil (by rw [World.port_updPort_same hk]; simpa [Port.credited] using hq)

/-- With a NAK, it sends again every flit from the sequence that the NAK names (R206). -/
theorem World.controlled_nak {i : Nat} (hn : bitAt nak 15 = true)
    (hi : ((w.port k).acked ack).unacked.findIdx? (fun e => e.1.seq == nak % 4096) = some i) :
    (w.controlled k ack credits nak).port k = (((w.port k).acked ack).credited credits).resending i ∧
      (w.controlled k ack credits nak).out =
        w.out ++ (((w.port k).acked ack).unacked.drop i).map (fun e => .flit k e.1 (((w.port k).rxSeq + 4095) % 4096)) := by
  have hport := World.port_updPort_same hk (fun p => (p.acked ack).credited credits)
  obtain ⟨hp, hout⟩ := World.resendFrom_sends (w := w.updPort k fun p => (p.acked ack).credited credits) (k := k) (seq := nak % 4096) (i := i)
    (by rw [hport]; exact hi)
  rw [hport] at hp hout
  rw [World.controlled, World.ackFlits_plain hplain, World.updPort_updPort, hn, if_pos rfl,
    World.pump_nil (by rw [hp]; simpa [Port.resending, Port.credited] using hq)]
  exact ⟨hp, by simpa [Port.credited] using hout⟩

end

/-- The acknowledgement of the one flit that is out, the last of a level message, gives its credit back (R215; log entry 82). -/
theorem World.ackFlits_level {w : World} {k ack c : Nat} {f : Flit} (hk : k < w.link.ports.length) (hu : (w.port k).unacked = [(f, 0)])
    (hs : f.seq = ack) (hl : f.lvl = some c) :
    w.ackFlits k ack = ((w.updPort k (·.acked ack)).updColl c (fun c => { c with credits := c.credits - 1 })).creditBack ∧
      ((w.updPort k (·.acked ack)).port k).unacked = [] := by
  have hnil : ((w.updPort k (·.acked ack)).port k).unacked = [] := by
    rw [World.port_updPort_same hk]
    simp [Port.acked, hu, hs]
  refine ⟨?_, hnil⟩
  simp only [World.ackFlits, hnil, hu]
  simp [hl]

/-! Faults on one engine (R207, R222, R398, R399). -/

@[simp] theorem World.event_faults (w : World) (code kind i a b : Nat) : (w.event code kind i a b).log.faults = w.log.faults := by
  simp only [World.event]; split <;> rfl

theorem World.countFault_faults (w : World) (cause suspect kind i : Nat) :
    (w.countFault cause suspect kind i).log.faults = modAt w.log.faults (cause - 1) (fun c => sat32 c 1) := by
  simp [World.countFault]

@[simp] theorem World.countFault_port (w : World) (cause suspect kind i k : Nat) : (w.countFault cause suspect kind i).port k = w.port k := by
  simp [World.port]

/-- A port that is down until the job restarts (R207, R222; log entry 47). -/
def Port.downed (p : Port) : Port := { p with st := 0, faulted := true }

theorem Port.downed_eq : Port.downed = fun p => { p with st := 0, faulted := true } := rfl

/-- An engine that counts a lost neighbour, with the port to it down. -/
def World.neighbourDown (w : World) (k : Nat) : World :=
  ({ w with link := { w.link with nbrLost := sat32 w.link.nbrLost 1 } } : World).updPort k Port.downed

theorem World.neighbourLost_eq (w : World) (k : Nat) : w.neighbourLost k =
    (if (w.neighbourDown k).nodeOf (w.neighbourDown k).sched.semHome = some (w.nbrNode k) then
      (w.neighbourDown k).countFault 8 (w.nbrNode k) srcPort k else w.neighbourDown k).jobFault 7 (w.nbrNode k) srcPort k := rfl

section
variable {w : World} (hm : w.multi = false)
include hm

/-- A job fault on one engine is only counted and logged (R399). -/
theorem World.jobFault_alone (cause suspect kind i : Nat) : w.jobFault cause suspect kind i = w.countFault cause suspect kind i := by
  have hcount : (w.countFault cause suspect kind i).multi = false := by rw [World.multi, World.countFault_link]; exact hm
  simp only [World.jobFault, hcount]
  rfl

theorem World.portFault_alone (k suspect : Nat) : w.portFault k suspect = (w.updPort k Port.downed).countFault 5 suspect srcPort k := by
  have hj : (w.updPort k Port.downed).jobFault 5 suspect srcPort k = (w.updPort k Port.downed).countFault 5 suspect srcPort k :=
    World.jobFault_alone (w := w.updPort k Port.downed) hm ..
  have hcount : ((w.updPort k Port.downed).countFault 5 suspect srcPort k).multi = false := by
    rw [World.multi, World.countFault_link]; exact hm
  simp only [World.portFault, ← Port.downed_eq, hj, hcount]
  exact if_neg Bool.false_ne_true

theorem World.neighbourLost_alone {k : Nat} (hh : w.nodeOf w.sched.semHome ≠ some (w.nbrNode k)) :
    w.neighbourLost k = (w.neighbourDown k).countFault 7 (w.nbrNode k) srcPort k := by
  have hhome : (w.neighbourDown k).nodeOf (w.neighbourDown k).sched.semHome ≠ some (w.nbrNode k) := hh
  rw [World.neighbourLost_eq, if_neg hhome]
  exact World.jobFault_alone (w := w.neighbourDown k) hm ..

end

/-- A heartbeat says whether its neighbour is alive, and the neighbour's ceiling (R222, R234). -/
theorem World.takeHeartbeat_read {w : World} {k blk : Nat} {r : SbRx} (hst : (w.port k).st = 2) (hr : w.readBlock 1 blk = some r) :
    w.takeHeartbeat k blk = if bitAt r.content 0 then w.heardCeiling (fld r.content 1 4, fld r.content 5 2) else w.neighbourLost k := by
  simp only [World.takeHeartbeat, hst, hr]
  cases bitAt r.content 0 <;> rfl

/-- A block that an engine originates goes out of every port that is up (R208). -/
theorem World.forwardBlock_none (w : World) (blk : Nat) :
    w.forwardBlock none blk = { w with out := w.out ++ w.upPorts.map (fun k => .sideband k blk) } := by
  have hall : w.upPorts.filter (fun k => some k != none) = w.upPorts := List.filter_eq_self.mpr fun _ _ => rfl
  rw [World.forwardBlock, hall, World.foldl_send]

/-- Settles O35, a group of commands at a time. Training is `World.stageTrained_next` and its like. A good control flit is `World.controlled`: no
flit that is out has been sent again too often (`World.ResentAtMost`), and what it gives back of the pool is `World.creditBack_pool`. A fault on
one engine takes its port down and is counted (`World.jobFault_alone`). -/
theorem linkPorts : Obligations.LinkPorts := by
  refine ⟨fun s k nbr hc hst => ?training, fun s k h credits nak hst => ?control, fun s k blk r hst hm => ?neighbours⟩
  case training =>
    have hk : k < s.w.link.ports.length := World.port_lt (by rw [hst]; decide)
    refine ⟨fun hs => gives_of_eq rfl (World.stageTrained_next hc hst hs), fun hs hj => ?_, fun ha => ?_, fun ha hj hr => ?_⟩
    · exact ⟨_, gives_of_eq rfl (World.stageTrained_last hc hst hs hj), World.port_updPort_same hk _⟩
    · refine ⟨_, gives_of_eq rfl (World.trainTimeout_again hc hst ha), ?_⟩
      rw [World.port_updPort_same hk]
      exact ⟨rfl, rfl, rfl, rfl⟩
    · exact ⟨_, gives_of_eq rfl (World.trainTimeout_last hc hst ha hj hr), World.port_updPort_same hk _⟩
  case control =>
    intro w p plain
    have hk : k < w.link.ports.length := World.port_lt (by rw [hst]; decide)
    refine ⟨fun hplain hcrc hres hq hnak hlow => ?good, fun f c hu hs hl hcrc hres => ?level, fun i hplain hcrc hres hq hnak hlow hi => ?nak,
      fun hbad => ?bad, fun howed => ?owed, fun howed => ?settled⟩
    case good =>
      have hctl : w.controlled k h.ack credits nak = w.updPort k (fun p => (p.acked h.ack).credited credits) :=
        World.controlled_quiet hk hplain hq hnak
      have hseven : w.ResentAtMost k 7 := fun e he => Nat.le_of_lt_succ (of_decide_eq_true (List.all_eq_true.mp hlow e he))
      have hfew : (w.controlled k h.ack credits nak).ResentAtMost k 7 := by
        rw [hctl]
        exact hseven.updPort k fun _ _ he => .inl (Port.mem_of_mem_acked he)
      exact ⟨_, gives_of_eq rfl ((World.takeControl_good hst hcrc hres hfew).trans hctl), rfl,
        (World.port_updPort_same hk _).trans (Port.credited_acked ..)⟩
    case level =>
      obtain ⟨hack, hnil⟩ := World.ackFlits_level hk hu hs hl
      have hnone : (w.ackFlits k h.ack).ResentAtMost k 0 := by
        rw [hack]
        exact World.ResentAtMost.creditBack fun e he => absurd (hnil ▸ he) List.not_mem_nil
      have hfew := (hnone.controlled credits nak).mono (by decide : 0 + 1 ≤ 7)
      have hpool := World.controlled_pool w k h.ack credits nak
      rw [hack, World.creditBack_pool] at hpool
      obtain ⟨hcr, hsend⟩ := World.pool_eq_iff.mp hpool
      exact ⟨_, gives_of_eq rfl (World.takeControl_good hst hcrc hres hfew), hsend, hcr⟩
    case nak =>
      have hsix : w.ResentAtMost k 6 := fun e he => Nat.le_of_lt_succ (of_decide_eq_true (List.all_eq_true.mp hlow e he))
      have hacked : (w.ackFlits k h.ack).ResentAtMost k 6 := by
        rw [World.ackFlits_plain hplain]
        exact hsix.updPort k fun _ _ he => .inl (Port.mem_of_mem_acked he)
      obtain ⟨hp, hout⟩ := World.controlled_nak (credits := credits) hk hplain hq hnak hi
      refine ⟨_, gives_of_eq rfl (World.takeControl_good hst hcrc hres (hacked.controlled credits nak)), hout, ?_⟩
      rw [hp]
      simp [Port.resending, Port.credited, p]
    case bad =>
      obtain ⟨hout, hp⟩ := World.nakFlit_answers hk h.crcOk
      refine ⟨_, gives_of_eq rfl (World.takeControl_bad hst hbad), ?_, ?_, ?_, hout⟩ <;> rw [hp]
    case owed => exact ⟨_, gives_of_eq rfl (if_pos ⟨hst, howed⟩), by rw [World.control_port hk], World.control_out ..⟩
    case settled => exact gives_of_eq rfl (if_neg fun hpos => absurd howed (Nat.ne_of_gt hpos.2))
  case neighbours =>
    intro w down
    have hk : k < w.link.ports.length := World.port_lt (by rw [hst]; decide)
    have hdown : ∀ (v : World) cause suspect, v.link.ports = w.link.ports → v.sched = w.sched →
        down ((v.updPort k Port.downed).countFault cause suspect srcPort k) := by
      intro v cause suspect hports hsched
      have hv : v.port k = w.port k := by rw [World.port, hports, World.port]
      exact ⟨by rw [World.countFault_port, World.port_updPort_same (by rwa [hports]), hv, Port.downed], by simp [hsched]⟩
    refine ⟨fun hu => ?stuck, fun hu => gives_of_eq rfl (if_neg fun hx => by simp [w, hu] at hx), fun hh => ⟨?silent, fun hr ha => ?dead⟩,
      fun hr ha => ?alive, gives_of_eq rfl (World.forwardBlock_none ..)⟩
    case stuck =>
      have hpos : (w.port k).st = 2 ∧ (!(w.port k).unacked.isEmpty) = true := ⟨hst, by simpa using hu⟩
      exact ⟨_, gives_of_eq rfl ((if_pos hpos).trans (World.portFault_alone hm k _)), hdown w _ _ rfl rfl, World.countFault_faults ..⟩
    case silent =>
      refine ⟨_, gives_of_eq rfl ((if_pos hst).trans (World.neighbourLost_alone hm hh)), hdown _ _ _ rfl rfl, ?_, World.countFault_faults ..⟩
      rw [World.countFault_link]
      rfl
    case dead =>
      have htake : s.w.takeHeartbeat k blk = s.w.neighbourLost k := by rw [World.takeHeartbeat_read hst hr, ha, if_neg Bool.false_ne_true]
      refine ⟨_, gives_of_eq rfl (htake.trans (World.neighbourLost_alone hm hh)), hdown _ _ _ rfl rfl, ?_⟩
      rw [World.countFault_link]
      rfl
    case alive => exact gives_of_eq rfl ((World.takeHeartbeat_read hst hr).trans (if_pos ha))

end Sys2Proof.Machine

namespace Sys2Proof.Machine

open Sys2Proof

/-! The domain that the cap loop goes by (R267). -/

/-- Whether a ratio of power to budget is at most another, both multiplied out. -/
def ratioLe (x y : Nat × Nat) : Prop := x.1 * y.2 ≤ y.1 * x.2

theorem ratioLe_refl (x : Nat × Nat) : ratioLe x x := Nat.le_refl _

theorem ratioLe_trans {x y z : Nat × Nat} (hy : 0 < y.2) (hxy : ratioLe x y) (hyz : ratioLe y z) : ratioLe x z := by
  refine Nat.le_of_mul_le_mul_right ?_ hy
  calc x.1 * z.2 * y.2 = x.1 * y.2 * z.2 := Nat.mul_right_comm ..
    _ ≤ y.1 * x.2 * z.2 := Nat.mul_le_mul_right _ hxy
    _ = y.1 * z.2 * x.2 := Nat.mul_right_comm ..
    _ ≤ z.1 * y.2 * x.2 := Nat.mul_le_mul_right _ hyz
    _ = z.1 * x.2 * y.2 := Nat.mul_right_comm ..

/-- A domain's power is at most `pct` percent of its budget. -/
theorem ratioLe_percent {x : Nat × Nat} {pct : Nat} : ratioLe x (pct, 1) ↔ x.1 ≤ pct * x.2 := by
  rw [ratioLe, Nat.mul_one]

/-- The worse of two domains, the first where they are alike. -/
def OpPoint.worse (p : OpPoint) (doms : List Nat) (b d : Nat) : Nat :=
  if (p.ratio doms b).1 * (p.ratio doms d).2 < (p.ratio doms d).1 * (p.ratio doms b).2 then d else b

section
variable {p : OpPoint} {doms : List Nat}

theorem OpPoint.worst_eq : p.worst doms = (List.range 4).foldl (p.worse doms) 0 := rfl

theorem OpPoint.le_worse (b d : Nat) :
    ratioLe (p.ratio doms b) (p.ratio doms (p.worse doms b d)) ∧ ratioLe (p.ratio doms d) (p.ratio doms (p.worse doms b d)) := by
  unfold OpPoint.worse
  split
  next h => exact ⟨Nat.le_of_lt h, ratioLe_refl _⟩
  next h => exact ⟨ratioLe_refl _, Nat.le_of_not_lt h⟩

theorem OpPoint.worse_lt {n b d : Nat} (hb : b < n) (hd : d < n) : p.worse doms b d < n := by
  unfold OpPoint.worse
  split <;> assumption

/-- The fold finds a domain whose ratio is the largest of all that it has seen. -/
theorem OpPoint.le_foldl_worse {n : Nat} (hpos : ∀ d, d < n → 0 < (p.ratio doms d).2) (l : List Nat) (b : Nat) (hl : ∀ d ∈ l, d < n) (hb : b < n) :
    l.foldl (p.worse doms) b < n ∧ ∀ d ∈ b :: l, ratioLe (p.ratio doms d) (p.ratio doms (l.foldl (p.worse doms) b)) := by
  induction l generalizing b with
  | nil => exact ⟨hb, by simpa using ratioLe_refl _⟩
  | cons c l ih =>
    have hw : p.worse doms b c < n := OpPoint.worse_lt hb (hl c (by simp))
    obtain ⟨hlt, hle⟩ := ih (p.worse doms b c) (fun d hd => hl d (by simp [hd])) hw
    have htop := hle _ List.mem_cons_self
    obtain ⟨hbw, hcw⟩ := OpPoint.le_worse (p := p) (doms := doms) b c
    refine ⟨hlt, fun d hd => ?_⟩
    simp only [List.mem_cons] at hd
    obtain rfl | rfl | hd := hd
    · exact ratioLe_trans (hpos _ hw) hbw htop
    · exact ratioLe_trans (hpos _ hw) hcw htop
    · exact hle d (by simp [hd])

variable (hpos : ∀ d, d < 4 → 0 < (p.ratio doms d).2)
include hpos

theorem OpPoint.worst_lt : p.worst doms < 4 := by
  rw [OpPoint.worst_eq]
  exact (OpPoint.le_foldl_worse hpos (List.range 4) 0 (by simp) (by decide)).1

theorem OpPoint.le_worst {d : Nat} (hd : d < 4) : ratioLe (p.ratio doms d) (p.ratio doms (p.worst doms)) := by
  rw [OpPoint.worst_eq]
  exact (OpPoint.le_foldl_worse hpos (List.range 4) 0 (by simp) (by decide)).2 d (by simp [hd])

/-- Some domain is above a share of its budget just where the worst is. -/
theorem OpPoint.past_iff (pct : Nat) : (∃ d, d < 4 ∧ pct * (p.ratio doms d).2 < (p.ratio doms d).1) ↔
    pct * (p.ratio doms (p.worst doms)).2 < (p.ratio doms (p.worst doms)).1 := by
  refine ⟨fun ⟨d, hd, hlt⟩ => ?_, fun hlt => ⟨_, OpPoint.worst_lt hpos, hlt⟩⟩
  refine Nat.lt_of_not_le fun hle => ?_
  have htop : ratioLe (p.ratio doms (p.worst doms)) (pct, 1) := ratioLe_percent.mpr hle
  have hd' := ratioLe_percent.mp (ratioLe_trans (hpos _ (OpPoint.worst_lt hpos)) (OpPoint.le_worst hpos hd) htop)
  exact Nat.not_lt_of_le hd' hlt

end

/-! What the cap loop does (R267). -/

/-- Lowerings of the cap loop, one after another. -/
def OpPoint.lowers (p : OpPoint) (dom n : Nat) : OpPoint := (List.range n).foldl (fun p _ => p.lower dom) p

theorem OpPoint.lowers_succ (p : OpPoint) (dom n : Nat) : p.lowers dom (n + 1) = (p.lowers dom n).lower dom := by
  simp [OpPoint.lowers, List.range_succ]

/-- How many lowerings a ratio calls for: at 5 % over the budget twice as many, at 15 % four times. -/
def lowerings (x : Nat × Nat) : Nat := if x.1 ≤ 100 * x.2 then 0 else if x.1 ≤ 105 * x.2 then 1 else if x.1 ≤ 115 * x.2 then 2 else 4

theorem OpPoint.capLoop_eq (p : OpPoint) (doms : List Nat) : p.capLoop doms =
    let x := p.ratio doms (p.worst doms)
    let q := p.lowers (p.worst doms) (lowerings x)
    if x.1 ≤ 90 * x.2 then if 7 ≤ q.calm then { q.raise with calm := 0 } else { q with calm := q.calm + 1 } else { q with calm := 0 } := rfl

/-- `n` lowerings take `n` notches and memory rate states off together. -/
def OpPoint.LoweredBy (p q : OpPoint) (n : Nat) : Prop := q.notch + p.capMem = p.notch + q.capMem + n

/-- One lowering goes down by one, unless the ladder is at its last notch. -/
theorem OpPoint.lower_by {p : OpPoint} (dom : Nat) (hn : p.notch < 23) : p.LoweredBy (p.lower dom) 1 ∧ (p.lower dom).notch ≤ p.notch + 1 := by
  unfold OpPoint.LoweredBy OpPoint.lower
  split
  · simp only; omega
  · simp only; omega

theorem OpPoint.lowers_by {p : OpPoint} (dom n : Nat) (hn : p.notch + n ≤ 23) : p.LoweredBy (p.lowers dom n) n ∧ (p.lowers dom n).notch ≤ p.notch + n := by
  induction n with
  | zero => exact ⟨rfl, Nat.le_refl _⟩
  | succ n ih =>
    obtain ⟨hby, hle⟩ := ih (by omega)
    obtain ⟨hone, hstep⟩ := OpPoint.lower_by (p := p.lowers dom n) dom (by omega)
    rw [OpPoint.lowers_succ]
    unfold OpPoint.LoweredBy at *
    omega

/-- Above 90 % of the budget the calm samples are counted from 0 again. -/
theorem OpPoint.capLoop_lowered {p : OpPoint} {doms : List Nat} {n : Nat} (hn : p.notch ≤ 19)
    (h90 : 90 * (p.ratio doms (p.worst doms)).2 < (p.ratio doms (p.worst doms)).1) (hx : lowerings (p.ratio doms (p.worst doms)) = n) (h4 : n ≤ 4) :
    (p.capLoop doms).notch + p.capMem = p.notch + (p.capLoop doms).capMem + n ∧ (p.capLoop doms).calm = 0 := by
  have hby := (OpPoint.lowers_by (p := p) (p.worst doms) n (by omega)).1
  simp only [OpPoint.capLoop_eq, hx, if_neg (Nat.not_le_of_lt h90)]
  exact ⟨hby, trivial⟩

/-- Where no domain is above 90 % of its budget, nothing is lowered. -/
theorem OpPoint.capLoop_calm {p : OpPoint} {doms : List Nat} (h90 : (p.ratio doms (p.worst doms)).1 ≤ 90 * (p.ratio doms (p.worst doms)).2) :
    p.capLoop doms = if 7 ≤ p.calm then { p.raise with calm := 0 } else { p with calm := p.calm + 1 } := by
  have h0 : lowerings (p.ratio doms (p.worst doms)) = 0 := if_pos (by omega)
  simp only [OpPoint.capLoop_eq, h0, if_pos h90]
  rfl

/-- Settles O47. The domain that the loop goes by has the largest ratio (`OpPoint.le_worst`), so its share of its budget decides every band
(`OpPoint.past_iff`); each lowering then goes down by one (`OpPoint.lowers_by`). -/
theorem capLoop : Obligations.CapLoop := by
  intro p doms hpos _ hnotch
  simp only [OpPoint.past_iff hpos]
  refine ⟨fun h => ?far, fun h h' => ?twice, fun h h' => ?once, fun h h' => ?held, fun h hc => ?calm, fun h hc => ?eighth,
    fun d hd => OpPoint.le_worst hpos hd⟩
  case far | twice | once | held =>
    refine OpPoint.capLoop_lowered hnotch (by omega) ?_ (by decide)
    unfold lowerings
    (repeat' split) <;> omega
  case calm => rw [OpPoint.capLoop_calm (Nat.le_of_not_lt h), if_neg (Nat.not_le_of_lt hc)]
  case eighth => rw [OpPoint.capLoop_calm (Nat.le_of_not_lt h), if_pos hc]

end Sys2Proof.Machine

namespace Sys2Proof.Machine

open Sys2Proof

/-! Trimmed voltages (R259). -/

/-- The voltage that a trim byte of the factory area gives its point. -/
def trimOf (f : Bytes) (i : Nat) : Nat := 400 + 5 * leAt f (16 + i) 1

/-- What the factory area's check says of the trims. -/
theorem factoryOk_trims {f : Bytes} (h : factoryOk f = true) :
    (∀ i, i < 8 → trimOf f i ≤ typicalMv i + 50 ∧ typicalMv i ≤ trimOf f i + 50) ∧ ∀ i, i < 7 → trimOf f i < trimOf f (i + 1) := by
  simp only [factoryOk, Bool.and_eq_true, List.all_eq_true, List.mem_range, decide_eq_true_eq] at h
  obtain ⟨⟨-, hnear⟩, hrise⟩ := h
  exact ⟨hnear, hrise⟩

/-- A trim too far from the typical voltage, or one that does not rise, fails the check. -/
theorem factoryOk_false {f : Bytes}
    (h : (∃ i, i < 8 ∧ (typicalMv i + 50 < trimOf f i ∨ trimOf f i + 50 < typicalMv i)) ∨ ∃ i, i < 7 ∧ trimOf f (i + 1) ≤ trimOf f i) :
    factoryOk f = false := by
  refine Bool.eq_false_iff.mpr fun hok => ?_
  obtain ⟨hnear, hrise⟩ := factoryOk_trims hok
  obtain ⟨i, hi, hfar⟩ | ⟨i, hi, hflat⟩ := h
  · have := hnear i hi
    omega
  · exact Nat.not_lt_of_le hflat (hrise i hi)

/-- The engine after a stage 4 that passes. -/
def World.calibrated (o : Otp) (w : World) (straps : Nat) : World := (w.otpLoad o straps).trimmed.nextStage

theorem World.calibrated_trimMv (o : Otp) (w : World) (straps : Nat) {i : Nat} (hi : i < 8) : (w.calibrated o straps).trimMv i = trimOf o.factory i := by
  have hlive : (w.calibrated o straps).live.trims = (List.range 8).map (fun i => leAt o.factory (16 + i) 1) := rfl
  have hget : ((List.range 8).map (fun i => leAt o.factory (16 + i) 1))[i]? = some (leAt o.factory (16 + i) 1) := by
    rw [List.getElem?_map, List.getElem?_range hi, Option.map_some]
  rw [World.trimMv, hlive, trimOf, List.getD_eq_getElem?_getD, hget, Option.getD_some]

/-- 0x2100:01 to 0x2100:08 read the trimmed voltages. -/
theorem World.readObj_trim (o : Otp) (v : Vault) (w : World) (rq : Rq) {i : Nat} (hi : i < 8) :
    w.readObj o v rq 0x2100 (i + 1) = leBytes 2 (w.trimMv i) := by
  have hobj : w.readObj o v rq 0x2100 (i + 1) = w.readPower 0x2100 (i + 1) := rfl
  rw [hobj]
  match i, hi with
  | 0, _ | 1, _ | 2, _ | 3, _ | 4, _ | 5, _ | 6, _ | 7, _ => rfl

/-- A ramp that ends leaves the engine at its point and that point's voltage (R261). -/
theorem World.rampDone_some {w : World} {p : Pt} (h : w.pt.ramp = some p) :
    w.rampDone = { w with pt := { w.pt with op := p.1, mem := p.2, ramp := none, coreMv := w.trimMv p.1 } } := by
  simp only [World.rampDone, h]

/-- Settles O44: a stage 4 that passes takes the trims from the factory area (`World.calibrated_trimMv`), and trims out of range make the
area's check fail (`factoryOk_false`). -/
theorem trimmedVoltages : Obligations.TrimmedVoltages := by
  intro s straps hstraps hup hstage hset
  have hfour := World.stageDone_four s.otp straps hup hset hstage
  refine ⟨fun hok => ⟨s.w.calibrated s.otp straps, ?_, ?_, fun i hi => ?_⟩, fun hbad hatt => ?_⟩
  · exact gives_stageDone (hfour.trans (if_pos (by simpa [hok] using hstraps)))
  · exact congrArg (· + 1) hstage
  · have hmv {j : Nat} (hj : j < 8) := World.calibrated_trimMv s.otp s.w straps hj
    refine ⟨hmv hi, hmv (by decide), fun rq v => ?_, fun m => ⟨_, rfl, ?_⟩⟩
    · rw [World.readObj_trim _ _ _ _ hi, hmv hi]; rfl
    · rw [State.onW_w, World.rampDone_some rfl]
      exact congrArg (i, ·) (hmv hi)
  · refine gives_stageDone ((hfour.trans (if_neg ?_)).trans (World.stageFails_again (by rwa [hstage])))
    simp [factoryOk_false hbad]

end Sys2Proof.Machine

namespace Sys2Proof.Machine

open Sys2Proof

/-! What a change of point leaves (R261, R262): everything but the point, the ceilings that are told, and what is noted of them. -/

/-- The bounds that a point keeps to, without the point itself and what is noted of it. -/
def OpPoint.bounds (p : OpPoint) : OpPoint := { p with op := 0, mem := 0, ramp := none, coreMv := 0, profile := 0, binds := false, conf := 0 }

theorem OpPoint.regAlert_of_bounds {p q : OpPoint} (h : p.bounds = q.bounds) : p.regAlert = q.regAlert :=
  show p.bounds.regAlert = q.bounds.regAlert by rw [h]

theorem OpPoint.clamp_of_bounds {p q : OpPoint} (h : p.bounds = q.bounds) : p.clamp = q.clamp :=
  show p.bounds.clamp = q.bounds.clamp by rw [h]

theorem OpPoint.slow_of_bounds {p q : OpPoint} (h : p.bounds = q.bounds) : p.slow = q.slow :=
  show p.bounds.slow = q.bounds.slow by rw [h]

theorem OpPoint.safety_of_bounds {p q : OpPoint} (h : p.bounds = q.bounds) : p.safety = q.safety :=
  show p.bounds.safety = q.bounds.safety by rw [h]

/-- The engine without its point, its ceilings, its throttle reasons and its floods. -/
def World.offPoint (w : World) : World := { w with
  out := []
  pt := w.pt.bounds
  meter := { w.meter with reasons := 0, lastAt := [] }
  link := { w.link with ownCeil := 0, jobPoint := 0, floods := 0 }
  job := { w.job with seen := [], sbSeq := 0 } }

theorem World.forwardBlock_offPoint (w : World) (except_ : Option Nat) (blk : Nat) : (w.forwardBlock except_ blk).offPoint = w.offPoint := by
  rw [World.forwardBlock, World.foldl_send]
  rfl

@[simp] theorem World.flood_offPoint (w : World) (kind content : Nat) : (w.flood kind content).offPoint = w.offPoint := by
  rw [World.flood, foldl_keeps World.offPoint fun _ _ => World.forwardBlock_offPoint ..]
  rfl

@[simp] theorem World.floodCeiling_offPoint (w : World) (p : Pt) : (w.floodCeiling p).offPoint = w.offPoint := by
  rw [World.floodCeiling, World.flood_offPoint]
  rfl

@[simp] theorem World.rampDone_offPoint (w : World) : w.rampDone.offPoint = w.offPoint := by
  unfold World.rampDone
  split <;> rfl

@[simp] theorem World.noteReasons_offPoint (w : World) : w.noteReasons.offPoint = w.offPoint := rfl

/-- An engine in whose voltage no ramp is left makes for a point. -/
def World.headFor (w : World) (p : Pt) : World :=
  if p = (w.pt.op, w.pt.mem) then (if w.pt.coreMv = w.trimMv p.1 then w else { w with pt := { w.pt with ramp := some p } })
  else if w.pt.op < p.1 then { w with pt := { w.pt with ramp := some p, mem := min w.pt.mem (maxMem w.pt.op) } }
  else if p.1 < w.pt.op then { w with pt := { w.pt with op := p.1, mem := p.2, ramp := some p } }
  else { w with pt := { w.pt with mem := p.2 } }

theorem World.moveTo_eq (w : World) (p : Pt) (force : Bool) :
    w.moveTo p force = (if force then { w with pt := { w.pt with ramp := none } } else w.rampDone).headFor p := rfl

@[simp] theorem World.headFor_offPoint (w : World) (p : Pt) : (w.headFor p).offPoint = w.offPoint := by
  unfold World.headFor
  (repeat' split) <;> rfl

@[simp] theorem World.headFor_link (w : World) (p : Pt) : (w.headFor p).link = w.link := by
  unfold World.headFor
  (repeat' split) <;> rfl

@[simp] theorem World.moveTo_offPoint (w : World) (p : Pt) (force : Bool) : (w.moveTo p force).offPoint = w.offPoint := by
  rw [World.moveTo_eq, World.headFor_offPoint]
  cases force
  · exact World.rampDone_offPoint w
  · rfl

/-- The engine that has taken a ceiling of its own, before it moves. -/
def World.ceilinged (w : World) (own : Pt) : World := { w with
  link := { w.link with ownCeil := ptVal own }
  pt := { w.pt with binds := w.floorBinds } }

/-- The job's point comes down to an engine's ceiling that is below it (R232). -/
def World.lowerJob (w : World) (own : Pt) : World :=
  let low := ptMin own (ptOf w.link.jobPoint)
  if ptBelow own (ptOf w.link.jobPoint) then ({ w with link := { w.link with jobPoint := ptVal low } } : World).floodCeiling low else w

/-- The point that an engine of a job makes for: the job's, where its own ceiling allows it. -/
def World.jobPt (w : World) (own : Pt) : Pt := ptFit (ptMin own (ptOf w.link.jobPoint))

section
variable {w : World} (own : Pt) (force : Bool)

/-- Outside a job the engine moves to its ceiling. -/
theorem World.takePoint_alone (hj : w.inJob = false) : w.takePoint own force = ((w.ceilinged own).moveTo own force).noteReasons :=
  congrArg World.noteReasons (if_neg (Bool.eq_false_iff.mp hj))

theorem World.takePoint_job (hj : w.inJob = true) : w.takePoint own force =
    (((w.ceilinged own).lowerJob own).moveTo (((w.ceilinged own).lowerJob own).jobPt own) force).noteReasons :=
  congrArg World.noteReasons (if_pos hj)

end

@[simp] theorem World.ceilinged_offPoint (w : World) (own : Pt) : (w.ceilinged own).offPoint = w.offPoint := rfl

@[simp] theorem World.lowerJob_offPoint (w : World) (own : Pt) : (w.lowerJob own).offPoint = w.offPoint := by
  simp only [World.lowerJob]
  split
  · exact World.floodCeiling_offPoint ..
  · rfl

@[simp] theorem World.takePoint_offPoint (w : World) (own : Pt) (force : Bool) : (w.takePoint own force).offPoint = w.offPoint := by
  cases hj : w.inJob
  · simp [World.takePoint_alone own force hj]
  · simp [World.takePoint_job own force hj]

@[simp] theorem World.takeCeiling_offPoint (w : World) (force : Bool) : (w.takeCeiling force).offPoint = w.offPoint := World.takePoint_offPoint ..

theorem World.bounds_of_offPoint {w w' : World} (h : w'.offPoint = w.offPoint) : w'.pt.bounds = w.pt.bounds := congrArg World.pt h

theorem World.jobProfile_bounds (w : World) : w.jobProfile.pt.bounds = w.pt.bounds := by
  unfold World.jobProfile
  split
  · have hflood := World.bounds_of_offPoint (w.floodCeiling_offPoint (ptOf w.link.jobPoint))
    rw [World.bounds_of_offPoint (World.takeCeiling_offPoint ..)]
    exact hflood
  · rfl

theorem World.goal_of_offPoint {w w' : World} (h : w'.offPoint = w.offPoint) : w'.goal = w.goal :=
  show w'.offPoint.goal = w.offPoint.goal by rw [h]

/-! Moves (R261, R262). -/

theorem World.rampDone_none {w : World} (h : w.pt.ramp = none) : w.rampDone = w := by simp only [World.rampDone, h]

theorem World.rampDone_ramp (w : World) : w.rampDone.pt.ramp = none := by
  cases h : w.pt.ramp
  · rw [World.rampDone_none h, h]
  · rw [World.rampDone_some h]

/-- Downwards the clocks switch at once. -/
theorem World.headFor_down {w : World} {p : Pt} (h : p.1 < w.pt.op) :
    w.headFor p = { w with pt := { w.pt with op := p.1, mem := p.2, ramp := some p } } := by
  have hne : p ≠ (w.pt.op, w.pt.mem) := fun he => Nat.lt_irrefl _ (congrArg Prod.fst he ▸ h)
  rw [World.headFor, if_neg hne, if_neg (Nat.lt_asymm h), if_pos h]

/-- Upwards they switch after the voltage. -/
theorem World.headFor_up {w : World} {p : Pt} (h : w.pt.op < p.1) :
    w.headFor p = { w with pt := { w.pt with ramp := some p, mem := min w.pt.mem (maxMem w.pt.op) } } := by
  have hne : p ≠ (w.pt.op, w.pt.mem) := fun he => Nat.lt_irrefl _ (congrArg Prod.fst he ▸ h)
  rw [World.headFor, if_neg hne, if_pos h]

/-- The lowest point is reached at once. -/
theorem World.headFor_least (w : World) : ((w.headFor (0, 0)).pt.op, (w.headFor (0, 0)).pt.mem) = (0, 0) := by
  unfold World.headFor
  split
  next he => split <;> exact he.symm
  next =>
    split
    next hup => exact absurd hup (Nat.not_lt_zero _)
    next =>
      split
      next => rfl
      next hdown => exact congrArg (·, 0) (Nat.eq_zero_of_not_pos hdown)

section
variable {w : World} {own : Pt} (hj : w.inJob = false) (hr : w.pt.ramp = none)
include hj hr

/-- Where no ramp is left either, it makes for it. -/
theorem World.takePoint_headFor : w.takePoint own false = ((w.ceilinged own).headFor own).noteReasons := by
  rw [World.takePoint_alone own false hj, World.moveTo_eq, if_neg Bool.false_ne_true, World.rampDone_none (by exact hr)]

theorem World.takePoint_ownCeil : (w.takePoint own false).link.ownCeil = ptVal own := by
  rw [World.takePoint_headFor hj hr]
  exact congrArg Link.ownCeil (World.headFor_link ..)

theorem World.takePoint_down (h : own.1 < w.pt.op) : ((w.takePoint own false).pt.op, (w.takePoint own false).pt.mem) = own := by
  rw [World.takePoint_headFor hj hr, World.headFor_down (by exact h)]
  rfl

theorem World.takePoint_up (h : w.pt.op < own.1) : (w.takePoint own false).pt.op = w.pt.op ∧ (w.takePoint own false).pt.ramp = some own := by
  rw [World.takePoint_headFor hj hr, World.headFor_up (by exact h)]
  exact ⟨rfl, rfl⟩

end

/-- A forced descent reaches the lowest point, in a job too (R262, R273). -/
theorem World.takePoint_least (w : World) : ((w.takePoint (0, 0) true).pt.op, (w.takePoint (0, 0) true).pt.mem) = (0, 0) := by
  cases hj : w.inJob
  · rw [World.takePoint_alone _ _ hj]
    exact World.headFor_least _
  · have hfit (v : World) : v.jobPt (0, 0) = (0, 0) := by simp [World.jobPt, ptFit, ptMin]
    rw [World.takePoint_job _ _ hj, hfit]
    exact World.headFor_least _

/-! Regulator alerts (R274). -/

theorem World.forceDown_regAlert (w : World) : w.forceDown.pt.regAlert = w.pt.regAlert :=
  (OpPoint.regAlert_of_bounds (World.bounds_of_offPoint (World.takeCeiling_offPoint _ true))).trans rfl

theorem World.forceDown_clamp (w : World) : w.forceDown.pt.clamp = w.pt.clamp :=
  (OpPoint.clamp_of_bounds (World.bounds_of_offPoint (World.takeCeiling_offPoint _ true))).trans rfl

theorem World.forceDown_point {w : World} (h : w.pt.safety = true) : (w.forceDown.pt.op, w.forceDown.pt.mem) = (0, 0) := by
  have hceil (v : World) (hv : v.pt.safety = true) : v.ceilingNow = (0, 0) := if_pos hv
  unfold World.forceDown World.takeCeiling
  rw [hceil _ (by exact h)]
  exact World.takePoint_least _

/-- A regulator alert holds, and leaves the clamp. -/
theorem World.regulatorAlert_on (w : World) : w.regulatorAlert.pt.regAlert = true ∧ w.regulatorAlert.pt.clamp = w.pt.clamp := by
  unfold World.regulatorAlert
  split
  next h => exact ⟨h, rfl⟩
  next => exact ⟨World.forceDown_regAlert _, World.forceDown_clamp _⟩

theorem World.regulatorAlert_point {w : World} (h : w.pt.regAlert = false) : (w.regulatorAlert.pt.op, w.regulatorAlert.pt.mem) = (0, 0) := by
  rw [World.regulatorAlert, if_neg (by simp [h])]
  exact World.forceDown_point (by simp [OpPoint.safety])

/-! Throttle reasons (R279). -/

/-- The number whose bit `i` is the `i`th of a list. -/
def bitsVal : List Bool → Nat
  | [] => 0
  | b :: l => b.toNat + 2 * bitsVal l

/-- Adding up the powers of two of the bits that are set gives that number. -/
theorem foldl_bits (l : List Bool) (k m : Nat) :
    (l.zipIdx k).foldl (fun m (b, i) => if b then m + 2 ^ i else m) m = m + 2 ^ k * bitsVal l := by
  induction l generalizing k m with
  | nil => rfl
  | cons b l ih =>
    rw [List.zipIdx_cons, List.foldl_cons, ih, bitsVal, Nat.pow_succ, Nat.mul_add, ← Nat.mul_assoc, ← Nat.add_assoc]
    cases b
    · rfl
    · rw [Bool.toNat_true, Nat.mul_one]
      rfl

theorem testBit_bitsVal (l : List Bool) (i : Nat) : (bitsVal l).testBit i = l.getD i false := by
  induction l generalizing i with
  | nil => exact Nat.zero_testBit i
  | cons b l ih =>
    have hb := b.toNat_le
    cases i with
    | zero =>
      rw [bitsVal, Nat.testBit_zero, Nat.add_mul_mod_self_left, List.getD_cons_zero]
      cases b <;> rfl
    | succ i =>
      rw [bitsVal, Nat.testBit_succ, show (b.toNat + 2 * bitsVal l) / 2 = bitsVal l by omega, ih, List.getD_cons_succ]

theorem bitAt_foldl (l : List Bool) (i : Nat) : bitAt (l.zipIdx.foldl (fun m (b, i) => if b then m + 2 ^ i else m) 0) i = l.getD i false := by
  rw [foldl_bits, Nat.zero_add, Nat.pow_zero, Nat.one_mul]
  exact testBit_bitsVal l i

theorem World.noteReasons_clamp {w : World} (h : w.pt.clamp < 16) : bitAt w.noteReasons.meter.reasons 5 = true :=
  (bitAt_foldl _ 5).trans (decide_eq_true h)

/-! What the cap loop and the thermal ceiling leave (R267, R271). -/

/-- A point without what the cap loop, the thermal ceiling and the count of floors set. -/
def OpPoint.offLoop (p : OpPoint) : OpPoint := { p with notch := 0, capMem := 2, calm := 0, lowered := [], thermCeil := 7, cool := 0, conf := 0 }

@[simp] theorem OpPoint.lower_offLoop (p : OpPoint) (dom : Nat) : (p.lower dom).offLoop = p.offLoop := by
  unfold OpPoint.lower
  (repeat' split) <;> rfl

@[simp] theorem OpPoint.raise_offLoop (p : OpPoint) : p.raise.offLoop = p.offLoop := by
  unfold OpPoint.raise
  split <;> rfl

@[simp] theorem OpPoint.lowers_offLoop (p : OpPoint) (dom n : Nat) : (p.lowers dom n).offLoop = p.offLoop :=
  foldl_keeps OpPoint.offLoop (fun p _ => p.lower_offLoop dom) _ p

@[simp] theorem OpPoint.capLoop_offLoop (p : OpPoint) (doms : List Nat) : (p.capLoop doms).offLoop = p.offLoop := by
  rw [OpPoint.capLoop_eq, ← OpPoint.lowers_offLoop p (p.worst doms) (lowerings (p.ratio doms (p.worst doms)))]
  dsimp only
  split
  next =>
    split
    next => exact OpPoint.raise_offLoop _
    next => rfl
  next => rfl

@[simp] theorem OpPoint.thermal_offLoop (p : OpPoint) (hot onset : Int) : (p.thermal hot onset).offLoop = p.offLoop := by
  unfold OpPoint.thermal
  (repeat' split) <;> rfl

/-! A sample (R262, R267, R271, R277, R280). -/

/-- The engine that has metered a sample, and stepped the cap loop and the thermal ceiling. -/
def World.metered (w : World) (doms : List Nat) (vin : Nat) : World := { w with
  pt := (w.pt.capLoop doms).thermal w.meter.hot w.meter.onset
  meter := { w.meter with
    energy := add64 w.meter.energy doms.sum
    input := satTo 32 doms.sum
    doms := doms
    vin := vin
    vinLow := min w.meter.vinLow vin } }

/-- The rise after a safety source ends where the ceiling has reached its goal (R276). -/
def World.riseEnds (w : World) : World :=
  { w with pt := { w.pt with slow := w.pt.slow && (w.pt.safety || decide ((ptOf w.link.ownCeil).1 < w.goal.1)) } }

/-- The engine takes the ceiling of a sample. -/
def World.ceilingSample (w : World) : World := (w.takePoint w.ceilingNext false).riseEnds

/-- The engine but for what its taking a ceiling at a sample may change. -/
def World.offSample (w : World) : World := { w.offPoint with pt := { w.pt.bounds with slow := false } }

/-- What the rest of the engine gives is as before the ceiling was taken. -/
theorem World.ceilingSample_keeps {α : Type} {f : World → α} (hf : ∀ u : World, f u.offSample = f u) (w : World) : f w.ceilingSample = f w := by
  have hpoint : (w.takePoint w.ceilingNext false).offPoint = w.offPoint := World.takePoint_offPoint ..
  have hoff : w.ceilingSample.offSample = w.offSample := congrArg (fun u : World => { u with pt := { u.pt with slow := false } }) hpoint
  rw [← hf w.ceilingSample, hoff, hf]

theorem World.ceilingTo_slow {w : World} (h : w.pt.slow = false) : w.ceilingNow = w.ceilingTo 7 ∧ w.ceilingNext = w.ceilingTo 7 := by
  simp [World.ceilingNow, World.ceilingNext, h]

/-- Without a safety source the ceiling is the goal, up to the point that it may rise to. -/
theorem World.ceilingTo_safe {w : World} (h : w.pt.safety = false) (top : Nat) : w.ceilingTo top = ptFit (min w.goal.1 top, w.goal.2) :=
  if_neg (Bool.eq_false_iff.mp h)

theorem ptOf_ptVal_op (p : Pt) : (ptOf (ptVal p)).1 = p.1 % 16 := by
  simp only [ptOf, ptVal, fld]
  omega

section
variable {w : World} (hj : w.inJob = false) (hr : w.pt.ramp = none)
include hj hr

/-- Without a slow rise the ceiling of a sample is that between samples, and the engine moves to it. -/
theorem World.ceilingSample_moves (hslow : w.pt.slow = false) :
    let v := w.ceilingSample
    v.link.ownCeil = ptVal v.ceilingNow ∧ (v.ceilingNow.1 < w.pt.op → (v.pt.op, v.pt.mem) = v.ceilingNow) ∧
      (w.pt.op < v.ceilingNow.1 → v.pt.op = w.pt.op ∧ v.pt.ramp = some v.ceilingNow) := by
  intro v
  have hv : v.pt.slow = false := by
    have hkeep := OpPoint.slow_of_bounds (World.bounds_of_offPoint (w.takePoint_offPoint w.ceilingNext false))
    exact congrArg (· && _) (hkeep.trans hslow)
  have hnow : v.ceilingNow = w.ceilingNext := by
    rw [(World.ceilingTo_slow hv).1, (World.ceilingTo_slow hslow).2]
    exact World.ceilingSample_keeps (f := fun u => u.ceilingTo 7) (fun _ => rfl) w
  rw [hnow]
  exact ⟨World.takePoint_ownCeil hj hr, World.takePoint_down hj hr, World.takePoint_up hj hr⟩

/-- In a slow rise the ceiling of a sample is at most one operating point higher; the rise is over once it has reached the goal (R276). -/
theorem World.ceilingSample_rises (hsafe : w.pt.safety = false) (hslow : w.pt.slow = true) :
    let v := w.ceilingSample
    (ptOf v.link.ownCeil).1 ≤ w.pt.op + 1 ∧ (v.pt.slow = false → v.goal.1 ≤ 7 → v.link.ownCeil = ptVal (v.ceilingTo 7)) := by
  intro v
  have hpoint := World.takePoint_offPoint w w.ceilingNext false
  have hown : v.link.ownCeil = ptVal w.ceilingNext := World.takePoint_ownCeil hj hr
  have hnext : w.ceilingNext = ptFit (min w.goal.1 (w.pt.op + 1), w.goal.2) := by
    rw [World.ceilingNext, hslow, if_pos rfl, World.ceilingTo_safe hsafe]
  have hgoal : v.goal = w.goal := World.ceilingSample_keeps (f := World.goal) (fun _ => rfl) w
  have hceil : v.ceilingTo 7 = w.ceilingTo 7 := World.ceilingSample_keeps (f := fun u => u.ceilingTo 7) (fun _ => rfl) w
  have hop : (ptOf v.link.ownCeil).1 = min w.goal.1 (w.pt.op + 1) % 16 := by rw [hown, ptOf_ptVal_op, hnext]; rfl
  refine ⟨by rw [hop]; omega, fun hend hseven => ?_⟩
  rw [hgoal] at hseven
  have hreach : w.goal.1 ≤ min w.goal.1 (w.pt.op + 1) % 16 := by
    have hkept := OpPoint.slow_of_bounds (World.bounds_of_offPoint hpoint)
    have hsafe' := OpPoint.safety_of_bounds (World.bounds_of_offPoint hpoint)
    have hgo : (w.takePoint w.ceilingNext false).goal = w.goal := World.goal_of_offPoint hpoint
    have hend' : (w.takePoint w.ceilingNext false).riseEnds.pt.slow = false := hend
    have hop' : (ptOf (w.takePoint w.ceilingNext false).link.ownCeil).1 = min w.goal.1 (w.pt.op + 1) % 16 := hop
    simpa [World.riseEnds, hkept, hslow, hsafe', hsafe, hgo, hop'] using hend'
  rw [hown, hceil, hnext, World.ceilingTo_safe hsafe, show min w.goal.1 (w.pt.op + 1) = min w.goal.1 7 by omega]

end

theorem World.jobProfile_alone {w : World} (hj : w.inJob = false) : w.jobProfile = w := by simp [World.jobProfile, hj]

theorem World.rampDone_inJob (w : World) : w.rampDone.inJob = w.inJob :=
  show w.rampDone.offPoint.inJob = w.offPoint.inJob by rw [World.rampDone_offPoint]

theorem World.rampDone_meter (w : World) : w.rampDone.meter = w.meter := by
  unfold World.rampDone
  split <;> rfl

theorem World.rampDone_mem (w : World) : w.rampDone.mem = w.mem :=
  show w.rampDone.offPoint.mem = w.offPoint.mem by rw [World.rampDone_offPoint]

theorem World.rampDone_sched (w : World) : w.rampDone.sched = w.sched :=
  show w.rampDone.offPoint.sched = w.offPoint.sched by rw [World.rampDone_offPoint]

/-- The engine at a sample outside a job, before it takes its ceiling. -/
def World.stepped (w : World) (doms : List Nat) (vin : Nat) : World := (w.rampDone.metered doms vin).countFloor

section
variable {w : World} (doms : List Nat) (vin : Nat)

theorem World.stepped_offLoop : (w.stepped doms vin).pt.offLoop = w.rampDone.pt.offLoop :=
  (OpPoint.thermal_offLoop ..).trans (OpPoint.capLoop_offLoop ..)

theorem World.stepped_op : (w.stepped doms vin).pt.op = w.rampDone.pt.op :=
  show (w.stepped doms vin).pt.offLoop.op = w.rampDone.pt.offLoop.op by rw [World.stepped_offLoop]

theorem World.stepped_ramp : (w.stepped doms vin).pt.ramp = none := by
  rw [← w.rampDone_ramp]
  exact show (w.stepped doms vin).pt.offLoop.ramp = w.rampDone.pt.offLoop.ramp by rw [World.stepped_offLoop]

theorem World.stepped_slow : (w.stepped doms vin).pt.slow = w.pt.slow := by
  rw [← OpPoint.slow_of_bounds (World.bounds_of_offPoint w.rampDone_offPoint)]
  exact show (w.stepped doms vin).pt.offLoop.slow = w.rampDone.pt.offLoop.slow by rw [World.stepped_offLoop]

theorem World.stepped_safety : (w.stepped doms vin).pt.safety = w.pt.safety := by
  rw [← OpPoint.safety_of_bounds (World.bounds_of_offPoint w.rampDone_offPoint)]
  exact show (w.stepped doms vin).pt.offLoop.safety = w.rampDone.pt.offLoop.safety by rw [World.stepped_offLoop]

theorem World.stepped_inJob : (w.stepped doms vin).inJob = w.inJob := w.rampDone_inJob

end

section
variable {w : World} {doms : List Nat} {vin : Nat} (hc : w.clocked = true) (hl : doms.length = 4)
include hc hl

theorem World.dvfsSample_eq : w.dvfsSample doms vin =
    if vin < 2900 then (w.rampDone.metered doms vin).jobProfile.countFloor.ceilingSample.regulatorAlert
    else (w.rampDone.metered doms vin).jobProfile.countFloor.ceilingSample := by
  have hgo : ¬(!w.clocked || decide (doms.length ≠ 4)) = true := by simp [hc, hl]
  exact if_neg hgo

theorem World.dvfsSample_alone (hj : w.inJob = false) (hv : 2900 ≤ vin) : w.dvfsSample doms vin = (w.stepped doms vin).ceilingSample := by
  have hjob : (w.rampDone.metered doms vin).inJob = false := w.rampDone_inJob.trans hj
  rw [World.dvfsSample_eq hc hl, if_neg (Nat.not_lt_of_le hv), World.jobProfile_alone hjob, World.stepped]

/-- A sample whose VIN is too low ends in a regulator alert. -/
theorem World.dvfsSample_low (hv : vin < 2900) (ha : w.pt.regAlert = false) :
    ∃ v : World, v.pt.regAlert = false ∧ w.dvfsSample doms vin = v.regulatorAlert := by
  refine ⟨_, ?_, (World.dvfsSample_eq hc hl).trans (if_pos hv)⟩
  rw [World.ceilingSample_keeps (f := fun u => u.pt.regAlert) (fun _ => rfl)]
  rw [show (w.rampDone.metered doms vin).jobProfile.countFloor.pt.regAlert = (w.rampDone.metered doms vin).pt.regAlert from
    OpPoint.regAlert_of_bounds (World.jobProfile_bounds _)]
  rw [← ha, ← OpPoint.regAlert_of_bounds (World.bounds_of_offPoint w.rampDone_offPoint)]
  exact show (w.stepped doms vin).pt.offLoop.regAlert = w.rampDone.pt.offLoop.regAlert by rw [World.stepped_offLoop]

end

/-- The clamp's release reaches the ladder's limit, and goes no further. -/
theorem clamp_release {c l : Nat} (h : c ≤ l) : max c (min l (c + 2)) = if l ≤ c + 2 then l else c + 2 := by
  split <;> omega

/-- Settles O48. Outside a job a sample is `World.stepped` and then `World.ceilingSample`, which is a plain move to the ceiling
(`World.ceilingSample_moves`) or one step of a slow rise (`World.ceilingSample_rises`); what else they leave is `World.ceilingSample_keeps`. -/
theorem powerSamples : Obligations.PowerSamples := by
  refine ⟨fun s doms vin hc => ⟨?plain, ?rise, ?low, ?ramp, ?engage, ?hard, ?release⟩,
    fun s => ⟨?calStarts, ?calStays, ?calDone, ?stale, ?known, ?conflict, ?quiet⟩⟩
  case plain =>
    intro hl hj hsafe hslow hv
    obtain ⟨hown, hdown, hup⟩ := World.ceilingSample_moves ((World.stepped_inJob doms vin).trans hj) (World.stepped_ramp doms vin)
      ((World.stepped_slow doms vin).trans hslow)
    rw [World.stepped_op] at hdown hup
    have keeps {α : Type} {f : World → α} (hf : ∀ u : World, f u.offSample = f u) := World.ceilingSample_keeps hf (s.w.stepped doms vin)
    refine ⟨_, gives_of_eq rfl (World.dvfsSample_alone hc hl hj hv), ?_, ?_, ?_, ?_, ?_, hown, hdown, hup⟩
    · rw [keeps (f := fun u => (u.meter.energy, u.meter.doms, u.meter.vin)) fun _ => rfl, ← s.w.rampDone_meter]
      rfl
    · rw [keeps (f := fun u => u.meter.vinLow) fun _ => rfl, ← s.w.rampDone_meter]
      rfl
    · exact (keeps (f := World.mem) fun _ => rfl).trans s.w.rampDone_mem
    · exact (keeps (f := World.sched) fun _ => rfl).trans s.w.rampDone_sched
    · rw [keeps (f := fun u => (u.pt.notch, u.pt.capMem, u.pt.calm, u.pt.thermCeil, u.pt.cool)) fun _ => rfl, ← s.w.rampDone_meter]
      rfl
  case rise =>
    intro hl hj hsafe hslow hv
    obtain ⟨hstep, hend⟩ := World.ceilingSample_rises ((World.stepped_inJob doms vin).trans hj) (World.stepped_ramp doms vin)
      ((World.stepped_safety doms vin).trans hsafe) ((World.stepped_slow doms vin).trans hslow)
    rw [World.stepped_op] at hstep
    exact ⟨_, gives_of_eq rfl (World.dvfsSample_alone hc hl hj hv), hstep, hend⟩
  case low =>
    intro hl hv ha
    obtain ⟨v, hoff, hsample⟩ := World.dvfsSample_low hc hl hv ha
    exact ⟨_, gives_of_eq rfl hsample, (World.regulatorAlert_on v).1, World.regulatorAlert_point hoff⟩
  case ramp =>
    intro p hp
    exact ⟨_, gives_of_eq rfl (congrArg World.noteReasons (World.rampDone_some hp)), rfl⟩
  case engage =>
    intro ma hsoft hma
    exact ⟨_, gives_of_eq rfl ((if_pos ⟨hc, hsoft⟩).trans (if_neg (Nat.not_le_of_lt hma))), rfl, World.noteReasons_clamp (show 8 < 16 by decide)⟩
  case hard =>
    intro ma hsoft hma
    obtain ⟨halert, hclamp⟩ := World.regulatorAlert_on ({ s.w with pt := { s.w.pt with clamp := 8 } } : World).noteReasons
    exact ⟨_, gives_of_eq rfl ((if_pos ⟨hc, hsoft⟩).trans (if_pos hma)), hclamp, halert⟩
  case release =>
    intro hle
    refine ⟨_, gives_of_eq rfl (if_pos hc), ?_⟩
    rw [← clamp_release hle]
    rfl
  case calStarts => exact fun hidle hsafe hage => gives_of_eq rfl (if_pos (by simp [hidle, hsafe, hage]))
  case calStays =>
    refine fun hnot => gives_of_eq rfl (if_neg fun hgo => ?_)
    simp only [Bool.and_eq_true, beq_iff_eq, Bool.not_eq_true', decide_eq_true_eq] at hgo
    obtain ⟨⟨hidle, hsafe⟩, hage⟩ := hgo
    obtain hnot | hnot | hnot := hnot
    · exact hnot hidle
    · exact Bool.false_ne_true (hsafe.symm.trans hnot)
    · exact Nat.not_lt_of_le hnot hage
  case calDone => exact fun hrun => gives_of_eq rfl (if_pos hrun)
  case stale =>
    intro hc' hage hfresh hroom
    exact ⟨_, gives_of_eq rfl (if_pos (by simp [hc', hage, hfresh])), rfl, World.event_staged _ _ _ _ _ hroom⟩
  case known => exact fun hstale => gives_of_eq rfl (if_neg (by simp [hstale]))
  case conflict =>
    intro hc' hconf hroom
    exact ⟨_, gives_of_eq rfl (if_pos (by simp [hc', hconf])), rfl, World.event_staged _ _ _ _ _ hroom⟩
  case quiet => exact fun hconf => gives_of_eq rfl (if_neg (by simp [hconf]))

end Sys2Proof.Machine

namespace Sys2Proof.Machine

/-- Settles O1: `step` matches on the queue's front. -/
theorem stepRunsFrontCommand : Obligations.StepRunsFrontCommand := fun _ _ _ => rfl

/-! What is not the engine's: OTP and the queue of commands. -/

/-- OTP and the queue of commands, which no request and no command but the end of an OTP word changes. -/
def State.fixed (s : State) : Otp × List Instr := (s.otp, s.pending)

/-- Every other part may change. -/
@[simp] theorem State.fixed_mk (s : State) (v : Vault) (w : World) : (State.mk s.otp v w s.pending).fixed = s.fixed := rfl
@[simp] theorem State.onW_fixed (s : State) (f : World → World) : (s.onW f).fixed = s.fixed := rfl
@[simp] theorem State.onRW_fixed (s : State) (f : Vault → World → World) : (s.onRW f).fixed = s.fixed := rfl

@[simp] theorem State.foldl_fixed {β : Type} {f : State → β → State} (h : ∀ s b, (f s b).fixed = s.fixed) (l : List β) (s : State) :
    (l.foldl f s).fixed = s.fixed := foldl_keeps State.fixed h l s

/-! Requests on OTP, sessions and tenants (chapter 15). -/

@[simp] theorem State.done_fixed (s : State) (p : Option Pend) (status : Nat) : (s.done p status).fixed = s.fixed := rfl
@[simp] theorem State.program_fixed (s : State) (p : Pend) (j : OtpJob) : (s.program p j).fixed = s.fixed := by
  unfold State.program; split <;> rfl
@[simp] theorem State.programRecord_fixed (s : State) (p : Pend) : (s.programRecord p).fixed = s.fixed := by
  unfold State.programRecord; (repeat' split) <;> simp
@[simp] theorem State.programSlot_fixed (s : State) (p : Pend) (slot : Nat) (hash : Bytes) : (s.programSlot p slot hash).fixed = s.fixed := by
  unfold State.programSlot; split <;> simp
@[simp] theorem State.revokeSlot_fixed (s : State) (p : Pend) (slot : Nat) : (s.revokeSlot p slot).fixed = s.fixed := by
  unfold State.revokeSlot; split <;> simp
@[simp] theorem State.tenantStatus_fixed (s : State) (p : Pend) (status : Nat) : (s.tenantStatus p status).fixed = s.fixed := rfl
@[simp] theorem State.createTenant_fixed (s : State) (p : Pend) (d : Bytes) : (s.createTenant p d).fixed = s.fixed := by
  simp only [State.createTenant]; (repeat' split) <;> simp
@[simp] theorem State.importTenant_fixed (s : State) (p : Pend) (d : Bytes) : (s.importTenant p d).fixed = s.fixed := by
  simp only [State.importTenant]; (repeat' split) <;> simp
@[simp] theorem State.retireTenant_fixed (s : State) (p : Pend) (d : Bytes) : (s.retireTenant p d).fixed = s.fixed := by
  simp only [State.retireTenant]; (repeat' split) <;> simp
@[simp] theorem State.advance_fixed (s : State) (p : Option Pend) : (s.advance p).fixed = s.fixed := rfl
@[simp] theorem State.openSession_fixed (s : State) (p : Pend) (d : Bytes) : (s.openSession p d).fixed = s.fixed := by
  simp only [State.openSession]; (repeat' split) <;> simp
@[simp] theorem State.closeSession_fixed (s : State) (p : Pend) (d : Bytes) : (s.closeSession p d).fixed = s.fixed := by
  unfold State.closeSession; dsimp only; (repeat' split) <;> simp
@[simp] theorem State.sessionAdvanced_fixed (s : State) : s.sessionAdvanced.fixed = s.fixed := by
  simp only [State.sessionAdvanced]; (repeat' split) <;> simp

/-! The restore of a checkpoint (chapter 09). -/

@[simp] theorem State.restoreOwn_fixed (s : State) (c : Ckpt) : (s.restoreOwn c).fixed = s.fixed := by
  unfold State.restoreOwn
  exact foldl_keeps State.fixed (fun _ _ => by rfl) c.tenants s
@[simp] theorem State.restoreCopy_fixed (s : State) (b : Bytes) : (s.restoreCopy b).fixed = s.fixed := by
  unfold State.restoreCopy
  exact foldl_keeps (fun acc : State × Ckpt × Nat => acc.1.fixed) (fun _ _ => by rfl) _ _
@[simp] theorem State.takeCopy_fixed (s : State) (data : Bytes) : (s.takeCopy data).fixed = s.fixed := by
  simp only [State.takeCopy]; (repeat' split) <;> simp
@[simp] theorem State.restoreDone_fixed (s : State) : s.restoreDone.fixed = s.fixed := by
  simp only [State.restoreDone]; (repeat' split) <;> simp

/-! The protocol (chapter 12). -/

@[simp] theorem State.refuse_fixed (s : State) (status : Nat) : (s.refuse status).st.fixed = s.fixed := rfl
@[simp] theorem State.readOf_fixed (s : State) (rq : Rq) (index sub : Nat) : (s.readOf rq index sub).1.fixed = s.fixed := by
  simp only [State.readOf]; (repeat' split) <;> rfl
@[simp] theorem State.writeNow_fixed (s : State) (rq : Rq) (index sub : Nat) (d : Bytes) : (s.writeNow rq index sub d).1.fixed = s.fixed := rfl
@[simp] theorem State.writeOf_fixed (s : State) (rq : Rq) (index sub : Nat) (d : Bytes) : (s.writeOf rq index sub d).st.fixed = s.fixed := by
  simp only [State.writeOf]; (repeat' split) <;> simp
@[simp] theorem State.doRead_fixed (s : State) (rq : Rq) (m : Msg) : (s.doRead rq m).st.fixed = s.fixed := by
  simp only [State.doRead]; (repeat' split) <;> simp
@[simp] theorem State.doWrite_fixed (s : State) (rq : Rq) (m : Msg) : (s.doWrite rq m).st.fixed = s.fixed := by
  simp only [State.doWrite]; (repeat' split) <;> simp
@[simp] theorem State.doReadSeg_fixed (s : State) (rq : Rq) (m : Msg) (t : Transfer) : (s.doReadSeg rq m t).st.fixed = s.fixed := by
  simp only [State.doReadSeg]; split <;> simp
@[simp] theorem State.doWriteSeg_fixed (s : State) (rq : Rq) (m : Msg) (t : Transfer) : (s.doWriteSeg rq m t).st.fixed = s.fixed := by
  simp only [State.doWriteSeg]; (repeat' split) <;> simp
@[simp] theorem State.doSeg_fixed (s : State) (rq : Rq) (m : Msg) : (s.doSeg rq m).st.fixed = s.fixed := by
  simp only [State.doSeg]; (repeat' split) <;> simp
@[simp] theorem State.doAbort_fixed (s : State) (rq : Rq) (m : Msg) : (s.doAbort rq m).st.fixed = s.fixed := by
  simp only [State.doAbort]; (repeat' split) <;> simp
@[simp] theorem State.doObject_fixed (s : State) (rq : Rq) (m : Msg) : (s.doObject rq m).st.fixed = s.fixed := by
  simp only [State.doObject]; (repeat' split) <;> simp

theorem State.answer_fixed {s : State} {window : Bool} {mac : Nat} {m : Msg} {a : Answer} (h : s.answer window mac m = some a) :
    a.st.fixed = s.fixed := by
  simp only [State.answer] at h
  repeat' split at h
  all_goals cases h <;> simp

@[simp] theorem State.doOwed_fixed (s : State) (peers : List Peer) (o : Owed) : (s.doOwed peers o).fixed = s.fixed := by
  simp only [State.doOwed]; (repeat' split) <;> simp

@[simp] theorem State.owed_fixed (s : State) (peers : List Peer) (o : Option Owed) : (o.elim s (fun o => s.doOwed peers o)).fixed = s.fixed := by
  cases o <;> simp

@[simp] theorem State.serveWindow_fixed (s : State) (peers : List Peer) (m : Msg) (lost : Bool) : (s.serveWindow peers m lost).fixed = s.fixed := by
  unfold State.serveWindow
  split
  · split <;> rfl
  · rename_i a ha
    exact (State.owed_fixed _ peers a.owed).trans (State.answer_fixed ha)

@[simp] theorem State.serveFrame_fixed (s : State) (peers : List Peer) (mac : Nat) (b : Bytes) : (s.serveFrame peers mac b).fixed = s.fixed := by
  unfold State.serveFrame
  dsimp only
  split
  · rfl
  · split
    · rfl
    · rename_i a ha
      exact (State.owed_fixed _ peers a.owed).trans (State.answer_fixed ha)

@[simp] theorem State.serveOne_fixed (s : State) (x : Rx) : (s.serveOne x).fixed = s.fixed := by
  cases x <;> simp [State.serveOne]
@[simp] theorem State.serveAll_fixed (s : State) : s.serveAll.fixed = s.fixed := by simp [State.serveAll]
@[simp] theorem State.serveNext_fixed (s : State) : s.serveNext.fixed = s.fixed := by unfold State.serveNext; split <;> simp
@[simp] theorem State.windowGo_fixed (s : State) (peers : List Peer) (msg : Bytes) (n v : Nat) (wait : Bool) :
    (s.windowGo peers msg n v wait).fixed = s.fixed := by
  simp only [State.windowGo]; (repeat' split) <;> simp
@[simp] theorem State.adpIn_fixed (s : State) (peers : List Peer) (car : Carrier) (msg : Bytes) : (s.adpIn peers car msg).fixed = s.fixed := by
  simp only [State.adpIn]; (repeat' split) <;> simp
@[simp] theorem State.adpKind_fixed (s : State) (kind : Nat) (car : Carrier) (msg : Bytes) : (s.adpKind kind car msg).fixed = s.fixed := by
  simp only [State.adpKind]; split <;> simp
@[simp] theorem State.request_fixed (s : State) (peers : List Peer) (r : Req) (kind index sub : Nat) (d : Bytes) :
    (s.request peers r kind index sub d).fixed = s.fixed := by
  simp only [State.request]; split <;> simp
@[simp] theorem State.put_fixed (s : State) (r : Req) (index sub : Nat) (d : Bytes) : (s.put r index sub d).fixed = s.fixed := by
  simp [State.put]
@[simp] theorem State.putOp_fixed (s : State) (r : Req) (index sub op : Nat) (d : Bytes) : (s.putOp r index sub op d).fixed = s.fixed := by
  unfold State.putOp; split <;> simp
@[simp] theorem State.ring_fixed (s : State) (q reg v : Nat) : (s.ring q reg v).fixed = s.fixed := by unfold State.ring; split <;> simp

/-! Every command. -/

/-- The branches of a choice between two states leave what both leave. -/
theorem State.ite_fixed {s a b : State} (c : Prop) [Decidable c] (ha : a.fixed = s.fixed) (hb : b.fixed = s.fixed) :
    (if c then a else b).fixed = s.fixed := by split <;> assumption

theorem State.copyCame_fixed (s : State) (p : World × Bool) (data : Bytes) :
    (match p with | (w, true) => ({ s with w := w } : State).takeCopy data | (w, false) => { s with w := w }).fixed = s.fixed := by
  obtain ⟨w, _ | _⟩ := p
  · rfl
  · exact State.takeCopy_fixed _ data

/-- Every command but the end of an OTP word leaves OTP and the queue of commands. -/
theorem exec_fixed (c : Instr) (s : State) (hc : ∀ ok, c ≠ .otpWordProgrammed ok) : ∃ t, exec c s = .next t ∧ t.fixed = s.fixed := by
  cases c
  case otpWordProgrammed ok => exact absurd rfl (hc ok)
  case checkpointRestoreDone => exact ⟨_, rfl, State.restoreDone_fixed s⟩
  case checkpointCopyMsg => exact ⟨_, rfl, State.copyCame_fixed _ _ _⟩
  case prodWrite | cackWrite | cancelWrite => exact ⟨_, rfl, State.ring_fixed _ _ _ _⟩
  case streamInputWritten | streamOutputTaken =>
    exact ⟨_, rfl, State.ite_fixed _ (by simp) (by simp)⟩
  -- requests of clients
  case semValueWrite | jobStop | requestActive | requestIdle | requestDoze | levelResponse | closeLevel | programStagedRecord | retireFactoryLevel |
      firmwareLoad | programKeySlot | revokeKeySlot | debugResponse | relockDebug | disableDebug | createTenant =>
    exact ⟨_, rfl, State.put_fixed _ _ _ _ _⟩
  case sessionOpen | sessionClose | tenantImport | tenantRetire => exact ⟨_, rfl, State.putOp_fixed _ _ _ _ _ _⟩
  case queueDisable | queueEnable | queueReset | tdmPortEnable | contextOpen | contextClose =>
    exact ⟨_, rfl, State.ite_fixed _ (State.put_fixed _ _ _ _ _) rfl⟩
  case jobStart | levelChallenge | debugChallenge => exact ⟨_, rfl, State.request_fixed _ _ _ _ _ _ _⟩
  case adpRead | adpWrite | readSeg | writeSeg | adpAbort | discover | notifyAck => exact ⟨_, rfl, State.adpKind_fixed _ _ _ _⟩
  case windowGo => exact ⟨_, rfl, State.windowGo_fixed _ _ _ _ _ _⟩
  case dozeExitComplete => exact ⟨_, rfl, State.ite_fixed _ (State.serveAll_fixed _) rfl⟩
  case dozeExitFrame car msg =>
    cases car with
    | window => exact ⟨_, rfl, rfl⟩
    | frame => exact ⟨_, rfl, State.ite_fixed _ rfl rfl⟩
  -- every other command changes the engine or the tenant table alone
  all_goals exact ⟨_, rfl, rfl⟩

/-- The end of an OTP word leaves the queue of commands. -/
theorem State.otpWord_pending (s : State) (ok : Bool) : (s.otpWord ok).pending = s.pending := by
  have session : ∀ t : State, t.sessionAdvanced.pending = t.pending := fun t => congrArg Prod.snd t.sessionAdvanced_fixed
  unfold State.otpWord
  dsimp only
  (repeat' split) <;> simp [State.done, session]

/-- Settles O4: only the end of an OTP word changes what is not the engine's, and it leaves the queue. -/
theorem execKeepsQueue : Obligations.ExecKeepsQueue := by
  intro c s t h
  by_cases hc : ∃ ok, c = .otpWordProgrammed ok
  · obtain ⟨ok, rfl⟩ := hc
    obtain rfl := Host.Outcome.next.inj h
    exact s.otpWord_pending ok
  · obtain ⟨t', ht', hf⟩ := exec_fixed c s (fun ok h => hc ⟨ok, h⟩)
    obtain rfl := Host.Outcome.next.inj (ht'.symm.trans h)
    exact congrArg Prod.snd hf

/-- Settles O5. -/
theorem onlyProgrammingChangesOtp : Obligations.OnlyProgrammingChangesOtp := by
  intro c s t h hc
  obtain ⟨t', ht', hf⟩ := exec_fixed c s hc
  obtain rfl := Host.Outcome.next.inj (ht'.symm.trans h)
  exact congrArg Prod.fst hf

/-! The bits that a word adds (R368). -/

theorem BitsGrow.refl (a : Nat) : BitsGrow a a := fun _ h => h

theorem BitsGrow.lor (a b : Nat) : BitsGrow a (Nat.lor a b) := fun i h => by
  show (a ||| b).testBit i = true
  rw [Nat.testBit_lor, h, Bool.true_or]

theorem leVal_append (a b : Bytes) : leVal (a ++ b) = 2 ^ (8 * a.length) * leVal b + leVal a := by
  induction a with
  | nil => simp [leVal]
  | cons x a ih =>
    have hpow : 2 ^ (8 * (a.length + 1)) = 256 * 2 ^ (8 * a.length) := by rw [Nat.mul_succ, Nat.pow_add, Nat.mul_comm]
    rw [List.cons_append, leVal, ih, leVal, List.length_cons, hpow, Nat.mul_add, Nat.mul_assoc]
    omega

theorem leVal_lt (a : Bytes) : leVal a < 2 ^ (8 * a.length) := by
  induction a with
  | nil => simp [leVal]
  | cons x a ih =>
    have hpow : 2 ^ (8 * (a.length + 1)) = 256 * 2 ^ (8 * a.length) := by rw [Nat.mul_succ, Nat.pow_add, Nat.mul_comm]
    have hx := x.isLt
    rw [leVal, List.length_cons, hpow]
    omega

@[simp] theorem leVal_zeros (n : Nat) : leVal (List.replicate n (0 : Byte)) = 0 := by
  induction n with
  | zero => rfl
  | succ n ih => simpa [List.replicate_succ, leVal] using ih

theorem testBit_leVal_append (a b : Bytes) (i : Nat) :
    (leVal (a ++ b)).testBit i = if i < 8 * a.length then (leVal a).testBit i else (leVal b).testBit (i - 8 * a.length) := by
  rw [leVal_append, Nat.testBit_two_pow_mul_add _ (leVal_lt a)]

/-- Bits added to one run of two keep their places. -/
theorem BitsGrow.append {a a' b b' : Bytes} (hlen : a'.length = a.length) (ha : BitsGrow (leVal a) (leVal a')) (hb : BitsGrow (leVal b) (leVal b')) :
    BitsGrow (leVal (a ++ b)) (leVal (a' ++ b')) := by
  intro i h
  rw [testBit_leVal_append] at h ⊢
  rw [hlen]
  split
  · rw [if_pos ‹_›] at h
    exact ha i h
  · rw [if_neg ‹_›] at h
    exact hb _ h

/-- A run cut at a word, the bytes past its end being zeros. -/
theorem leVal_cut (b : Bytes) (k n : Nat) : leVal (b.take k ++ slice b k n ++ b.drop (k + n)) = leVal b := by
  by_cases h : k + n ≤ b.length
  · rw [Laws.Blob.slice_within _ _ _ h, List.append_assoc, ← List.drop_drop, List.take_append_drop, List.take_append_drop]
  · have htake : (b.drop k).take n = b.drop k := List.take_of_length_le (by rw [List.length_drop]; omega)
    rw [List.drop_eq_nil_of_le (by omega), List.append_nil, slice, htake, ← List.append_assoc, List.take_append_drop, leVal_append, leVal_zeros]
    omega

/-- A word ORed into a run of bytes adds bits alone (R368). -/
theorem orWord_grows (b : Bytes) (k data : Nat) : BitsGrow (leVal b) (leVal (orWord b k data)) := by
  rw [← leVal_cut b (4 * k) 4]
  refine .append ?_ (.append rfl (.refl _) ?_) (.refl _)
  · simp [Laws.Blob.leBytes_length]
  · intro i h
    change (leAt b (4 * k) 4).testBit i = true at h
    have hlt : leAt b (4 * k) 4 < 2 ^ 32 := by simpa [leAt] using leVal_lt (slice b (4 * k) 4)
    have hi : i < 32 := by
      by_contra hi
      rw [Nat.testBit_lt_two_pow (hlt.trans_le (Nat.pow_le_pow_right (by omega) (Nat.le_of_not_lt hi)))] at h
      cases h
    rw [leVal_leBytes, Nat.testBit_mod_two_pow]
    simpa [hi] using BitsGrow.lor _ data i h

/-- A run of a table of runs that takes a word, or another. -/
theorem modAt_orWord_grows (l : List Bytes) (i k data j : Nat) :
    BitsGrow (leVal (l.getD j [])) (leVal ((modAt l i (fun r => orWord r k data)).getD j [])) := by
  simp only [modAt, List.getD_eq_getElem?_getD, List.getElem?_modify]
  cases h : l[j]? with
  | none => exact .refl _
  | some b =>
    by_cases hij : i = j
    · simpa [hij] using orWord_grows b k data
    · simpa [hij] using BitsGrow.refl _

theorem Otp.Grows.refl (o : Otp) : o.Grows o :=
  ⟨rfl, fun _ => .refl _, fun _ => .refl _, .refl _, .refl _, .refl _⟩

/-- A word that is programmed adds bits to the part that its request names, verified or not (R367, R368). -/
theorem Otp.word_grows (o : Otp) (j : OtpJob) (n : Nat) (ok : Bool) : o.Grows (o.word j n ok) := by
  have same := Otp.Grows.refl o
  cases j with
  | record g d k => exact { same with records := modAt_orWord_grows o.records g k _ }
  | hash h d k => exact { same with hashes := modAt_orWord_grows o.hashes h k _ }
  | mark b => exact { same with marks := .lor _ _ }
  | security b => exact { same with sec := .lor _ _ }
  | session i =>
    cases ok with
    | true => exact { same with sess := .lor _ _ }
    | false => exact same

/-- The end of an OTP word leaves OTP with that word's bits added, or as it was where none is being programmed. -/
theorem State.otpWord_grows (s : State) (ok : Bool) : s.otp.Grows (s.otpWord ok).otp := by
  have session : ∀ t : State, t.sessionAdvanced.otp = t.otp := fun t => congrArg Prod.fst t.sessionAdvanced_fixed
  cases hj : s.w.sec.otpJobs with
  | nil => simpa [State.otpWord, hj] using Otp.Grows.refl s.otp
  | cons e rest =>
    obtain ⟨j, p⟩ := e
    have h : (s.otpWord ok).otp = s.otp.word j s.w.sec.used ok := by
      simp only [State.otpWord, hj]
      (repeat' split) <;> simp [State.done, session]
    exact h ▸ s.otp.word_grows j s.w.sec.used ok

theorem State.tick_fixed (s : State) : s.tick.fixed = s.fixed := by
  unfold State.tick; split <;> simp

/-- Settles O6: only the end of an OTP word changes OTP, and it adds bits alone. -/
theorem stepOtpGrows : Obligations.StepOtpGrows := by
  intro s t hstep
  unfold step at hstep
  cases hp : s.pending with
  | nil =>
    rw [hp] at hstep
    obtain rfl := Host.Outcome.next.inj hstep
    rw [show s.tick.otp = s.otp from congrArg Prod.fst s.tick_fixed]
    exact .refl _
  | cons c rest =>
    rw [hp] at hstep
    by_cases hc : ∃ ok, c = .otpWordProgrammed ok
    · obtain ⟨ok, rfl⟩ := hc
      obtain rfl := Host.Outcome.next.inj hstep
      exact State.otpWord_grows { s with pending := rest } ok
    · rw [onlyProgrammingChangesOtp c _ t hstep (fun ok h => hc ⟨ok, h⟩)]
      exact .refl _

end Sys2Proof.Machine

namespace Sys2Proof.Machine

open Sys2Proof

/-! Fields of a run of bytes (R5). -/

@[simp] theorem leAt_zero (b : Bytes) (off : Nat) : leAt b off 0 = 0 := by simp [leAt, slice, leVal]

@[simp] theorem leAt_cons_succ (x : Byte) (b : Bytes) (off n : Nat) : leAt (x :: b) (off + 1) n = leAt b off n := rfl

@[simp] theorem leAt_cons_zero (x : Byte) (b : Bytes) (n : Nat) : leAt (x :: b) 0 (n + 1) = x.toNat + 256 * leAt b 0 n := by
  simp [leAt, slice, leVal]

theorem toNat_byteOf {v : Nat} (h : v < 256) : (byteOf v).toNat = v := by simp [byteOf, h]

/-- The two bytes of a value of 16 bits give it back. -/
theorem bytes_of_half {v : Nat} (h : v < 2 ^ 16) : (byteOf (v % 256)).toNat + 256 * (byteOf (v / 256 % 256)).toNat = v := by
  rw [toNat_byteOf (by omega), toNat_byteOf (by omega)]
  omega

/-! Messages (Table 12.4). -/

theorem adpMsg_length (kind src dst txn idx sub flags aux status : Nat) (d : Bytes) :
    (adpMsg kind src dst txn idx sub flags aux status d).length = 16 + d.length := by
  simp [adpMsg, leBytes]; omega

/-- The fields of a message are those that it was made of. -/
theorem msgOf_adpMsg {kind src dst txn idx sub flags aux status : Nat} {d : Bytes} (hk : kind < 256) (hs : src < 256) (hd : dst < 256)
    (ht : txn < 2 ^ 16) (hi : idx < 2 ^ 16) (hsub : sub < 256) (hf : flags < 256) (ha : aux < 2 ^ 16) (hst : status < 2 ^ 16)
    (hl : d.length < 2 ^ 16) :
    msgOf (adpMsg kind src dst txn idx sub flags aux status d) =
      { len := 16 + d.length, version := 1, kind := kind, src := src, dst := dst, txn := txn, dlen := d.length, index := idx, sub := sub,
        flags := flags, aux := aux, status := status, data := d } := by
  have hlen := adpMsg_length kind src dst txn idx sub flags aux status d
  simp only [msgOf, hlen]
  simp [adpMsg, leBytes, toNat_byteOf, bytes_of_half ht, bytes_of_half hi, bytes_of_half ha, bytes_of_half hst, bytes_of_half hl, *]

theorem leAt_dlen {kind src dst txn idx sub flags aux status : Nat} {d : Bytes} (hl : d.length < 2 ^ 16) :
    leAt (adpMsg kind src dst txn idx sub flags aux status d) 6 2 = d.length := by
  simp [adpMsg, leBytes, bytes_of_half hl]

theorem leAt_kind {kind src dst txn idx sub flags aux status : Nat} {d : Bytes} (hk : kind < 256) :
    leAt (adpMsg kind src dst txn idx sub flags aux status d) 1 1 = kind := by
  simp [adpMsg, toNat_byteOf hk]

/-- A message carries no padding of its own (R298). -/
theorem unpad_adpMsg {kind src dst txn idx sub flags aux status : Nat} {d : Bytes} (hl : d.length < 2 ^ 16) :
    unpad (adpMsg kind src dst txn idx sub flags aux status d) = adpMsg kind src dst txn idx sub flags aux status d := by
  unfold unpad
  split
  · rw [leAt_dlen hl]
    exact List.take_of_length_le (by rw [adpMsg_length])
  · rfl

/-- The message that was written over the start of the buffer stands there whole (R303, R304). -/
theorem bufferMsg_overlay {kind src dst txn idx sub flags aux status : Nat} {d old : Bytes} (hl : d.length ≤ 1024) :
    bufferMsg (overlay old (adpMsg kind src dst txn idx sub flags aux status d)) = adpMsg kind src dst txn idx sub flags aux status d := by
  generalize hm : adpMsg kind src dst txn idx sub flags aux status d = m
  have hlen : m.length = 16 + d.length := hm ▸ adpMsg_length ..
  have hfield : leAt (overlay old m) 6 2 = d.length := by
    rw [← leAt_dlen (kind := kind) (src := src) (dst := dst) (txn := txn) (idx := idx) (sub := sub) (flags := flags) (aux := aux)
      (status := status) (by omega : d.length < 2 ^ 16), hm]
    exact congrArg leVal (Laws.Blob.slice_left m _ 6 2 (by omega))
  simp only [bufferMsg, hfield, if_pos hl]
  rw [overlay, Laws.Blob.slice_left _ _ _ _ (by omega), slice_all hlen]

/-! A request on its way to the dictionary (R290, R298, R304). -/

/-- Whether a request comes over the window. -/
def reqWindow (r : Req) : Bool := match r.src with | .window => true | .node _ _ => false

/-- Whom a request is addressed to: the window names itself, a node the engine's node (R304). -/
def World.reqDst (w : World) (r : Req) : Nat := match r.src with | .window => 254 | .node _ _ => w.live.nodeId

/-- The fields of the message of a request. -/
def World.reqFields (w : World) (r : Req) (kind index sub flags aux : Nat) (d : Bytes) : Msg :=
  { len := 16 + d.length, version := 1, kind := kind, src := reqClient r, dst := w.reqDst r, txn := r.txn, dlen := d.length, index := index,
    sub := sub, flags := flags, aux := aux, status := 0, data := d }

/-- The numbers of a request fit into the fields of its message. -/
structure ReqFits (kind index sub flags aux : Nat) (d : Bytes) : Prop where
  kind : kind < 128
  index : index < 2 ^ 16
  sub : sub < 256
  flags : flags < 256
  aux : aux < 2 ^ 16
  data : d.length ≤ 1024

theorem World.carries_txn {w : World} {r : Req} {kind : Nat} (h : w.carries r kind = true) : r.txn < 2 ^ 16 := by
  simp only [World.carries, Bool.and_eq_true, decide_eq_true_eq] at h
  exact h.1.1.1.1

theorem World.carries_sel {w : World} {r : Req} {kind x : Nat} (h : w.carries r kind = true) (hx : r.sel = some x) : x < 2 ^ 16 := by
  simp only [World.carries, hx, Option.all_some, Bool.and_eq_true, decide_eq_true_eq] at h
  exact h.1.1.1.2

theorem World.carries_rx {w : World} {r : Req} {kind : Nat} (h : w.carries r kind = true) : w.stn.rx = [] := by
  simp only [World.carries, Bool.and_eq_true, decide_eq_true_eq] at h
  exact h.1.1.2

theorem World.carries_clocked {w : World} {r : Req} {kind : Nat} (h : w.carries r kind = true) : w.clocked = true := by
  simp only [World.carries, Bool.and_eq_true, decide_eq_true_eq] at h
  exact h.1.2

theorem World.carries_window {w : World} {t kind : Nat} {x : Option Nat} (h : w.carries ⟨.window, t, x⟩ kind = true) :
    w.hostUp = true ∧ w.stn.busy = false := by
  simp only [World.carries, Bool.and_eq_true, Bool.not_eq_true'] at h
  exact h.2

/-- What a request of a node meets (R298, R301). -/
theorem World.carries_node {w : World} {n mac t kind : Nat} {x : Option Nat} (h : w.carries ⟨.node n mac, t, x⟩ kind = true) :
    w.t1sOn = true ∧ w.power.st ≠ .doze ∧ n < 32 ∧ w.live.nodeId < 32 ∧
      w.stn.stored.any (fun x => x.mac == mac && x.node == n && x.kind == kind && x.txn == t && decide (w.now ≤ x.at_ + 1000000000)) = false := by
  simp only [World.carries, Bool.and_eq_true, Bool.not_eq_true', decide_eq_true_eq] at h
  obtain ⟨-, ⟨⟨⟨⟨hon, hdoze⟩, hn⟩, hid⟩, -⟩, hstored⟩ := h
  exact ⟨hon, hdoze, hn, hid, hstored⟩

/-- The message of a request that is carried says what the request does. -/
theorem World.msgOf_reqSeg {w : World} {r : Req} {kind index sub flags aux : Nat} {d : Bytes} (h : w.carries r kind = true)
    (hf : ReqFits kind index sub flags aux d) : msgOf (reqSeg w r kind index sub flags aux d) = w.reqFields r kind index sub flags aux d := by
  obtain ⟨hk, hi, hs, hfl, ha, hd⟩ := hf
  have ht := World.carries_txn h
  obtain ⟨_ | ⟨n, mac⟩, t, x⟩ := r
  · exact msgOf_adpMsg (by omega) (by omega) (by omega) ht hi hs hfl ha (by omega) (by omega)
  · obtain ⟨-, -, hn, hid, -⟩ := World.carries_node h
    exact msgOf_adpMsg (by omega) (by omega) (by omega) ht hi hs hfl ha (by omega) (by omega)

/-- The engine as it answers a request: the service time is noted, and the response is sent on the request's carrier (R300, R301, R304, R308). -/
def World.replies (w : World) (r : Req) (kind status : Nat) (resp : Bytes) : World :=
  match r.src with
  | .window => (w.served status).windowAnswer resp
  | .node n mac =>
    ((w.served status).queueFrame mac resp).keepResponse { mac := mac, node := n, kind := kind, txn := r.txn, at_ := w.now, msg := resp }

/-! Taking a request (R298, R303, R304). -/

/-- A message that fits is written over the start of the request buffer (R303). -/
theorem World.dictWrite_message {w : World} {m : Bytes} (peers : List Peer) (hup : w.hostUp = true) (hlen : m.length ≤ 1040) :
    w.dictWrite peers 0 m = { w with stn := { w.stn with reqBuf := overlay w.stn.reqBuf m } } := by
  simp [World.dictWrite, hup, hlen, slice]

/-- A 1 written to GO submits the buffer (R304). -/
theorem World.dictWrite_go {w : World} (peers : List Peer) (hup : w.hostUp = true) :
    w.dictWrite peers 0xF000 (leBytes 4 1) = w.windowSubmit peers := by
  simp [World.dictWrite, hup, leBytes, leVal, toNat_byteOf]

/-- The engine with these requests waiting. -/
def World.withRx (w : World) (l : List Rx) : World := { w with stn := { w.stn with rx := l } }

@[simp] theorem World.withRx_rx (w : World) (l : List Rx) : (w.withRx l).stn.rx = l := rfl
@[simp] theorem World.withRx_withRx (w : World) (l k : List Rx) : (w.withRx l).withRx k = w.withRx k := rfl

theorem World.withRx_same {w : World} {l : List Rx} (h : w.stn.rx = l) : w.withRx l = w := by subst h; rfl

/-- The one request that waits is answered. -/
theorem State.serveAll_one {s : State} {x : Rx} (h : s.w.stn.rx = [x]) :
    s.serveAll = (s.onW (fun w => w.withRx [])).serveOne x := by
  rw [State.serveAll, h]
  rfl

/-- The engine that has taken a request of the window, as it waits. -/
theorem World.window_taken {w : World} (peers : List Peer) {t kind : Nat} {x : Option Nat} {m : Bytes} (h : w.carries ⟨.window, t, x⟩ kind = true)
    (hlen : m.length ≤ 1040) (hbuf : ∀ old, bufferMsg (overlay old m) = m) :
    (w.dictWrite peers 0 m).dictWrite peers 0xF000 (leBytes 4 1) = (w.hears ⟨.window, t, x⟩ m).withRx [.window m peers false] := by
  obtain ⟨hup, hbusy⟩ := World.carries_window h
  rw [World.dictWrite_message peers hup hlen, World.dictWrite_go]
  · simp [World.windowSubmit, hbusy, hbuf, World.carries_rx h, World.hears, World.withRx]
  · exact hup

theorem World.hears_rx (w : World) (r : Req) (m : Bytes) : (w.hears r m).stn.rx = w.stn.rx := by
  unfold World.hears
  dsimp only
  (repeat' split) <;> simp

theorem World.hears_power (w : World) (r : Req) (m : Bytes) : (w.hears r m).power = w.power := by
  unfold World.hears
  dsimp only
  (repeat' split) <;> simp

theorem World.clocked_of_power {v w : World} (h : v.power = w.power) : v.clocked = w.clocked := by simp only [World.clocked, h]

/-- A request that is taken while nothing waits is answered at once (R290). -/
theorem State.serveAll_heard {s : State} {r : Req} {kind : Nat} (h : s.w.carries r kind = true) (m : Bytes) (x : Rx) :
    (if (false || !({ s with w := (s.w.hears r m).withRx [x] } : State).serves) = true then ({ s with w := (s.w.hears r m).withRx [x] } : State)
      else ({ s with w := (s.w.hears r m).withRx [x] } : State).serveAll) = ({ s with w := s.w.hears r m } : State).serveOne x := by
  have hclk : ((s.w.hears r m).withRx [x]).clocked = true :=
    (World.clocked_of_power (s.w.hears_power r m)).trans (World.carries_clocked h)
  rw [State.serves, hclk, Bool.not_true, Bool.or_self, if_neg (by decide), State.serveAll_one rfl]
  simp only [State.onW, World.withRx_withRx, World.withRx_same ((s.w.hears_rx r m).trans (World.carries_rx h))]

/-- A request of the window that is alone is answered at once (R304). -/
theorem State.adpIn_window {s : State} {peers : List Peer} {t kind : Nat} {x : Option Nat} {m : Bytes} (h : s.w.carries ⟨.window, t, x⟩ kind = true)
    (hlen : m.length ≤ 1040) (hbuf : ∀ old, bufferMsg (overlay old m) = m) :
    s.adpIn peers .window m = ({ s with w := s.w.hears ⟨.window, t, x⟩ m } : State).serveWindow peers (msgOf m) false := by
  simp only [State.adpIn, State.windowGo, (World.carries_window h).1, Nat.not_lt.mpr hlen, decide_false, Bool.not_true, Bool.or_self,
    Bool.false_eq_true, if_false, State.onW, World.window_taken peers h hlen hbuf]
  exact State.serveAll_heard h m (.window m peers false)

/-- The stored responses hold none to this request (R301). -/
theorem World.repeated_none {w : World} {mac : Nat} {m : Msg} (h : w.stn.stored.any (fun x => x.mac == mac && x.node == m.src && x.kind == m.kind &&
    x.txn == m.txn && decide (w.now ≤ x.at_ + 1000000000)) = false) : w.repeated mac m = none := by
  simpa only [World.repeated, List.find?_eq_none, List.any_eq_false] using h

/-- The engine as it notes a frame of another sender that has its own node number (R299). -/
def World.conflicting (w : World) (n mac : Nat) : World :=
  if n = w.live.nodeId ∧ mac ≠ w.mac then
    ({ w with adp := { w.adp with conflicts := sat32 w.adp.conflicts 1 } } : World).event 0x0016 srcMgmt 0 w.live.nodeId mac
  else w

@[simp] theorem World.conflicting_live (w : World) (n mac : Nat) : (w.conflicting n mac).live = w.live := by
  unfold World.conflicting; split <;> simp
@[simp] theorem World.conflicting_stn (w : World) (n mac : Nat) : (w.conflicting n mac).stn = w.stn := by
  unfold World.conflicting; split <;> simp
@[simp] theorem World.conflicting_power (w : World) (n mac : Nat) : (w.conflicting n mac).power = w.power := by
  unfold World.conflicting; split <;> simp
@[simp] theorem World.conflicting_clock (w : World) (n mac : Nat) : (w.conflicting n mac).clock = w.clock := by
  unfold World.conflicting; split <;> simp

theorem World.hears_node (w : World) (n mac t : Nat) (x : Option Nat) (m : Bytes) : w.hears ⟨.node n mac, t, x⟩ m =
    { w.conflicting n mac with
      stn := { (w.conflicting n mac).stn with macs := (w.conflicting n mac).stn.macs.set 0 n (mac + 1) }
      adp := { (w.conflicting n mac).adp with accepted := add64 (w.conflicting n mac).adp.accepted 1 } } := rfl

/-- A good ADP frame to this engine is taken, its sender's MAC noted (R298, R299). -/
theorem World.frameIn_accepted {w : World} {peers : List Peer} {mac : Nat} {b : Bytes} (hon : w.t1sOn = true)
    (hacc : w.accepts w.mac (msgOf (unpad b)) = true) (hsrc : (msgOf (unpad b)).src < 32) :
    let m := msgOf (unpad b)
    let v := w.conflicting m.src mac
    w.frameIn peers w.mac mac etherType true b =
      ({ v with stn := { v.stn with macs := v.stn.macs.set 0 m.src (mac + 1) } } : World).takeFrame peers mac (unpad b) := by
  generalize hm : msgOf (unpad b) = m at *
  have hlen : 4 ≤ m.len := by
    simp only [World.accepts, Bool.and_eq_true, decide_eq_true_eq] at hacc
    exact hacc.1.2
  have hconf : (if 3 ≤ m.len ∧ m.src = w.live.nodeId ∧ mac ≠ w.mac then
      ({ w with adp := { w.adp with conflicts := sat32 w.adp.conflicts 1 } } : World).event 0x0016 srcMgmt 0 w.live.nodeId mac
      else w) = w.conflicting m.src mac := by
    simp only [World.conflicting, show 3 ≤ m.len by omega, true_and]
  have hacc' : (w.conflicting m.src mac).accepts w.mac m = true := by
    simpa [World.accepts, World.mac] using hacc
  simp only [World.frameIn, hm, hon, hconf, hacc', hsrc, if_true]
  simp [show ¬ m.len < 3 by omega]

/-- A request that is taken outside Doze waits behind the others, where fewer than sixteen of frames wait (R300). -/
theorem World.takeFrame_request {w : World} {peers : List Peer} {mac : Nat} {b : Bytes} (hdoze : w.power.st ≠ .doze)
    (hack : (msgOf b).isAck false = false) :
    w.takeFrame peers mac b = ({ w with adp := { w.adp with accepted := add64 w.adp.accepted 1 } } : World).queueRequest peers mac b := by
  have hst : (({ w with adp := { w.adp with accepted := add64 w.adp.accepted 1 } } : World).queueRequest peers mac b).power.st ≠ .doze := by
    simpa using hdoze
  simp only [World.takeFrame, hdoze, false_and, if_false, hack, Bool.false_eq_true, if_neg hst]

/-- The engine that has taken a request of a node, as it waits (R298, R299). -/
theorem World.frame_taken {w : World} (peers : List Peer) {n mac t kind : Nat} {x : Option Nat} {m : Bytes}
    (h : w.carries ⟨.node n mac, t, x⟩ kind = true) (hpad : unpad m = m) (hlen : 4 ≤ (msgOf m).len) (hsrc : (msgOf m).src = n)
    (hdst : (msgOf m).dst = w.live.nodeId) (hack : (msgOf m).isAck false = false) :
    w.frameIn peers w.mac mac etherType true m = (w.hears ⟨.node n mac, t, x⟩ m).withRx [.frame mac m peers] := by
  have hrx := World.carries_rx h
  obtain ⟨hon, hdoze, hn, -, -⟩ := World.carries_node h
  have hacc : w.accepts w.mac (msgOf (unpad m)) = true := by simp [World.accepts, hpad, hlen, hdst]
  rw [World.frameIn_accepted hon hacc (by rw [hpad, hsrc]; exact hn), hpad, hsrc, World.takeFrame_request (by simpa using hdoze) hack, World.hears_node]
  simp [World.queueRequest, Stn.waiting, hrx, World.withRx]

/-- A request of a node that is alone is answered at once (R290, R298). -/
theorem State.adpIn_frame {s : State} {peers : List Peer} {n mac t kind : Nat} {x : Option Nat} {m : Bytes}
    (h : s.w.carries ⟨.node n mac, t, x⟩ kind = true) (hpad : unpad m = m) (hlen : 4 ≤ (msgOf m).len) (hsrc : (msgOf m).src = n)
    (hdst : (msgOf m).dst = s.w.live.nodeId) (hack : (msgOf m).isAck false = false) :
    s.adpIn peers (.frame s.w.mac mac etherType true false) m =
      ({ s with w := s.w.hears ⟨.node n mac, t, x⟩ m } : State).serveFrame peers mac m := by
  simp only [State.adpIn, State.onW, World.frame_taken peers h hpad hlen hsrc hdst hack]
  exact State.serveAll_heard h m (.frame mac m peers)

/-- What a request is answered leads to: its response is sent, and what a pending write owes is then done (R289). -/
def Answer.given (a : Answer) (r : Req) (kind : Nat) (resp : Bytes) (peers : List Peer) : State :=
  let t := a.st.onW (fun w => w.replies r kind a.status resp)
  a.owed.elim t (fun o => t.doOwed peers o)

/-- A request that is carried is answered (R290, R293). -/
theorem State.adpIn_carried {s : State} {peers : List Peer} {r : Req} {kind index sub flags aux : Nat} {d : Bytes} {a : Answer}
    (h : s.w.carries r kind = true) (hf : ReqFits kind index sub flags aux d) (hk : kind ≠ kAck)
    (ha : ({ s with w := s.w.hears r (reqSeg s.w r kind index sub flags aux d) } : State).answer (reqWindow r) (reqMac r)
      (s.w.reqFields r kind index sub flags aux d) = some a) :
    s.adpIn peers (reqCarrier s.w r) (reqSeg s.w r kind index sub flags aux d) =
      a.given r kind (reqResp s.w r kind index sub a.status a.flags a.aux a.data) peers := by
  have hm := World.msgOf_reqSeg h hf
  have hd := hf.data
  have hd16 : d.length < 2 ^ 16 := by omega
  have hkind : kind % 128 = kind := Nat.mod_eq_of_lt hf.kind
  obtain ⟨_ | ⟨n, mac⟩, t, x⟩ := r
  · simp only [reqCarrier, reqSeg] at ha hm ⊢
    rw [State.adpIn_window h (by rw [adpMsg_length]; omega) (fun _ => bufferMsg_overlay hd), hm]
    simp only [State.serveWindow, show State.answer _ true 0 _ = some a from ha]
    simp [Answer.given, World.replies, respond, reqResp, World.reqFields, World.reqDst, reqClient, hkind]
  · obtain ⟨-, -, hn, hid, hst⟩ := World.carries_node h
    simp only [reqCarrier, reqSeg] at ha hm ⊢
    rw [State.adpIn_frame h (unpad_adpMsg hd16) (by rw [hm]; simp only [World.reqFields]; omega) (by rw [hm]; rfl) (by rw [hm]; rfl)
      (by rw [hm]; simp [Msg.isAck, World.reqFields, hk])]
    have hrep : (s.w.hears ⟨.node n mac, t, x⟩ (adpMsg kind n s.w.live.nodeId t index sub flags aux 0 d)).repeated mac
        (s.w.reqFields ⟨.node n mac, t, x⟩ kind index sub flags aux d) = none := by
      refine World.repeated_none ?_
      simp only [World.hears_node, World.now, World.conflicting_stn, World.conflicting_clock]
      exact hst
    have hid' : (s.w.hears ⟨.node n mac, t, x⟩ (adpMsg kind n s.w.live.nodeId t index sub flags aux 0 d)).live = s.w.live := by
      simp [World.hears_node]
    simp only [State.serveFrame, hm, hrep, show State.answer _ false mac _ = some a from ha, hid']
    have h255 : s.w.live.nodeId ≠ 255 := by omega
    simp [Answer.given, World.replies, respond, reqResp, World.reqFields, World.reqDst, reqClient, hkind, h255]

/-! What an answer leaves (R300, R301, R304). -/

theorem World.AnsweredFrom.trans {u v w : World} (huv : u.AnsweredFrom v) (hvw : v.AnsweredFrom w) : u.AnsweredFrom w := by
  obtain ⟨_, _, _, _, _, rfl⟩ := huv
  obtain ⟨a, n, x, c, o, rfl⟩ := hvw
  exact ⟨a, n, x, c, o, rfl⟩

theorem World.vector_answered (w : World) (v : Nat) : w.AnsweredFrom (w.vector v) := by
  unfold World.vector
  split
  · exact ⟨_, _, _, _, _, rfl⟩
  · split <;> exact ⟨_, _, _, _, _, rfl⟩

theorem World.served_answered (w : World) (status : Nat) : w.AnsweredFrom (w.served status) := ⟨_, _, _, _, _, rfl⟩

theorem World.windowAnswer_answered (w : World) (resp : Bytes) : w.AnsweredFrom (w.windowAnswer resp) :=
  .trans (v := { w with stn := { w.stn with respBuf := overlay w.stn.respBuf resp, busy := false, done := true }, out := w.out ++ [.window resp] })
    ⟨_, _, _, _, _, rfl⟩ (World.vector_answered _ 64)

theorem World.queueFrame_answered (w : World) (mac : Nat) (m : Bytes) : w.AnsweredFrom (w.queueFrame mac m) := by
  unfold World.queueFrame
  split <;> exact ⟨_, _, _, _, _, rfl⟩

/-- Sending an answer changes the carriers alone. -/
theorem World.replies_answered (w : World) (r : Req) (kind status : Nat) (resp : Bytes) : w.AnsweredFrom (w.replies r kind status resp) := by
  unfold World.replies
  split
  · exact (w.served_answered status).trans (World.windowAnswer_answered _ resp)
  · exact ((w.served_answered status).trans (World.queueFrame_answered _ _ resp)).trans ⟨_, _, _, _, _, rfl⟩

theorem World.AnsweredFrom.mem {w v : World} (h : w.AnsweredFrom v) : v.mem = w.mem := by obtain ⟨_, _, _, _, _, rfl⟩ := h; rfl
theorem World.AnsweredFrom.sched {w v : World} (h : w.AnsweredFrom v) : v.sched = w.sched := by obtain ⟨_, _, _, _, _, rfl⟩ := h; rfl
theorem World.AnsweredFrom.log {w v : World} (h : w.AnsweredFrom v) : v.log = w.log := by obtain ⟨_, _, _, _, _, rfl⟩ := h; rfl
theorem World.AnsweredFrom.live {w v : World} (h : w.AnsweredFrom v) : v.live = w.live := by obtain ⟨_, _, _, _, _, rfl⟩ := h; rfl
theorem World.AnsweredFrom.power {w v : World} (h : w.AnsweredFrom v) : v.power = w.power := by obtain ⟨_, _, _, _, _, rfl⟩ := h; rfl
theorem World.AnsweredFrom.meter {w v : World} (h : w.AnsweredFrom v) : v.meter = w.meter := by obtain ⟨_, _, _, _, _, rfl⟩ := h; rfl
theorem World.AnsweredFrom.link {w v : World} (h : w.AnsweredFrom v) : v.link = w.link := by obtain ⟨_, _, _, _, _, rfl⟩ := h; rfl
theorem World.AnsweredFrom.host {w v : World} (h : w.AnsweredFrom v) : v.host = w.host := by obtain ⟨_, _, _, _, _, rfl⟩ := h; rfl
/-- Of the security state only the count of free durations changes. -/
theorem World.AnsweredFrom.sec {w v : World} (h : w.AnsweredFrom v) : ∃ u, v.sec = { w.sec with used := u } := by
  obtain ⟨_, _, _, u, _, rfl⟩ := h; exact ⟨u, rfl⟩

@[simp] theorem World.queueFrame_clients (w : World) (mac : Nat) (m : Bytes) : (w.queueFrame mac m).stn.clients = w.stn.clients := by
  unfold World.queueFrame; split <;> rfl
@[simp] theorem World.queueFrame_wrong (w : World) (mac : Nat) (m : Bytes) : (w.queueFrame mac m).adp.wrong = w.adp.wrong := by
  unfold World.queueFrame; split <;> rfl

@[simp] theorem World.replies_clients (w : World) (r : Req) (kind status : Nat) (resp : Bytes) :
    (w.replies r kind status resp).stn.clients = w.stn.clients := by
  unfold World.replies
  split
  · simp [World.windowAnswer, World.windowDone, World.served]
  · simp [World.keepResponse, World.served]

/-- An answer leaves the count of wrong responses to challenges. -/
@[simp] theorem World.replies_wrong (w : World) (r : Req) (kind status : Nat) (resp : Bytes) :
    (w.replies r kind status resp).adp.wrong = w.adp.wrong := by
  unfold World.replies
  split
  · simp [World.windowAnswer, World.windowDone, World.served]
  · simp [World.keepResponse, World.served]

/-- The response is sent, where it has room (R300, R304). -/
theorem World.replies_replied {w : World} {r : Req} (kind status : Nat) (resp : Bytes) (h : w.room r = true) :
    (w.replies r kind status resp).replied r resp := by
  obtain ⟨_ | ⟨n, mac⟩, t, x⟩ := r
  · refine ⟨World.vector_mem_out 64 (by simp [World.send]), ?_, ?_⟩ <;> simp [World.replies, World.windowAnswer, World.windowDone]
  · have hroom : w.stn.txq.length < 16 := by simpa [World.room] using h
    simp [World.replies, World.replied, World.keepResponse, World.queueFrame, World.served, hroom]

end Sys2Proof.Machine

namespace Sys2Proof.Machine

open Sys2Proof

/-! What taking a request leaves (R298, R299, R304). -/

/-- A request is taken with the carriers and, at a conflict of node numbers, with the event log. -/
theorem World.hears_eq (w : World) (r : Req) (m : Bytes) : ∃ l b y mc a,
    w.hears r m = { w with log := l, stn := { w.stn with reqBuf := b, busy := y, macs := mc }, adp := a } := by
  obtain ⟨_ | ⟨n, mac⟩, t, x⟩ := r
  · exact ⟨_, _, _, _, _, rfl⟩
  · simp only [World.hears, World.event]
    split
    · split <;> exact ⟨_, _, _, _, _, rfl⟩
    · exact ⟨_, _, _, _, _, rfl⟩

section
variable (w : World) (r : Req) (m : Bytes)

@[simp] theorem World.hears_live : (w.hears r m).live = w.live := by obtain ⟨_, _, _, _, _, h⟩ := w.hears_eq r m; rw [h]
@[simp] theorem World.hears_meter : (w.hears r m).meter = w.meter := by obtain ⟨_, _, _, _, _, h⟩ := w.hears_eq r m; rw [h]
@[simp] theorem World.hears_clock : (w.hears r m).clock = w.clock := by obtain ⟨_, _, _, _, _, h⟩ := w.hears_eq r m; rw [h]
@[simp] theorem World.hears_host : (w.hears r m).host = w.host := by obtain ⟨_, _, _, _, _, h⟩ := w.hears_eq r m; rw [h]
@[simp] theorem World.hears_sched : (w.hears r m).sched = w.sched := by obtain ⟨_, _, _, _, _, h⟩ := w.hears_eq r m; rw [h]
@[simp] theorem World.hears_mem : (w.hears r m).mem = w.mem := by obtain ⟨_, _, _, _, _, h⟩ := w.hears_eq r m; rw [h]
@[simp] theorem World.hears_link : (w.hears r m).link = w.link := by obtain ⟨_, _, _, _, _, h⟩ := w.hears_eq r m; rw [h]
@[simp] theorem World.hears_sec : (w.hears r m).sec = w.sec := by obtain ⟨_, _, _, _, _, h⟩ := w.hears_eq r m; rw [h]
@[simp] theorem World.hears_clients : (w.hears r m).stn.clients = w.stn.clients := by obtain ⟨_, _, _, _, _, h⟩ := w.hears_eq r m; rw [h]
@[simp] theorem World.hears_txq : (w.hears r m).stn.txq = w.stn.txq := by obtain ⟨_, _, _, _, _, h⟩ := w.hears_eq r m; rw [h]

@[simp] theorem World.hears_wrong : (w.hears r m).adp.wrong = w.adp.wrong := by
  obtain ⟨_ | ⟨n, mac⟩, t, x⟩ := r
  · rfl
  · rw [World.hears_node, World.conflicting]
    split <;> simp

/-- A conflict of node numbers logs one event at most (R299). -/
theorem World.hears_staged : (w.hears r m).log.staged.length ≤ w.log.staged.length + 1 := by
  obtain ⟨_ | ⟨n, mac⟩, t, x⟩ := r
  · simp [World.hears]
  · simp only [World.hears_node, World.conflicting, World.event]
    (repeat' split) <;> simp

/-- The checks of a message do not see the carriers (R292). -/
@[simp] theorem World.hears_objCheck (id index sub : Nat) (write whole : Bool) :
    (w.hears r m).objCheck id index sub write whole = w.objCheck id index sub write whole := by
  obtain ⟨_, _, _, _, _, h⟩ := w.hears_eq r m
  rw [h]
  rfl

@[simp] theorem World.hears_selCheck (rq : Rq) (index sub : Nat) : (w.hears r m).selCheck rq index sub = w.selCheck rq index sub := by
  obtain ⟨_, _, _, _, _, h⟩ := w.hears_eq r m
  rw [h]
  rfl

@[simp] theorem World.hears_valueStatus (rq : Rq) (index sub : Nat) (d : Bytes) :
    (w.hears r m).valueStatus rq index sub d = w.valueStatus rq index sub d := by
  obtain ⟨_, _, _, _, _, h⟩ := w.hears_eq r m
  rw [h]
  rfl

end

/-! A whole READ or WRITE (R289, R292, R293, R295). -/

/-- The dictionary's view of the message of a whole request. -/
def World.reqWhole (w : World) (r : Req) (kind index sub : Nat) (d : Bytes) : Msg :=
  w.reqFields r kind index sub (if r.sel.isSome then 3 else 2) (r.sel.getD 0) d

theorem World.carries_fits {w : World} {r : Req} {kind index sub : Nat} {d : Bytes} (h : w.carries r kind = true) (hk : kind < 128)
    (hi : index < 2 ^ 16) (hs : sub < 256) (hd : d.length ≤ 1024) :
    ReqFits kind index sub (if r.sel.isSome then 3 else 2) (r.sel.getD 0) d := by
  refine ⟨hk, hi, hs, by split <;> omega, ?_, hd⟩
  cases hx : r.sel with
  | none => simp
  | some x => exact World.carries_sel h hx

/-- A request names itself and the engine as its carrier has them (R304). -/
theorem World.carries_ends {w : World} {r : Req} {kind k : Nat} (h : w.carries r kind = true) :
    (if reqWindow r then decide (reqClient r ≠ 254) || !(w.reqDst r == 254 || (w.reqDst r == 255 && k == kDiscover))
      else decide (31 < reqClient r)) = false := by
  obtain ⟨_ | ⟨n, mac⟩, t, x⟩ := r
  · rfl
  · obtain ⟨-, -, hn, -⟩ := World.carries_node h
    exact decide_eq_false (show ¬ 31 < n by omega)

/-- The header of a whole READ or WRITE is well formed. -/
theorem World.reqWhole_wellFormed {w : World} {r : Req} {kind index sub : Nat} {d : Bytes} (h : w.carries r kind = true)
    (hk : kind = kRead ∧ d = [] ∨ kind = kWrite) (hd : d.length ≤ 1024) : (w.reqWhole r kind index sub d).malformed (reqWindow r) = false := by
  have hkind : [kRead, kWrite, kReadSeg, kWriteSeg, kAbort, kDiscover, kAck].contains kind = true := by
    rcases hk with ⟨rfl, -⟩ | rfl <;> rfl
  have hdata : (decide (d.length ≠ 0) && !(kind == kWrite || kind == kWriteSeg)) = false := by
    rcases hk with ⟨-, rfl⟩ | rfl
    · rfl
    · simp
  have hends := World.carries_ends (k := kind) h
  change (decide (16 + d.length < 16) || decide (1 ≠ 1) || !([kRead, kWrite, kReadSeg, kWriteSeg, kAbort, kDiscover, kAck].contains kind) ||
    (if reqWindow r then decide (reqClient r ≠ 254) || !(w.reqDst r == 254 || (w.reqDst r == 255 && kind == kDiscover)) else decide (31 < reqClient r)) ||
    decide (d.length ≠ d.length) || decide (1024 < d.length) || (decide (d.length ≠ 0) && !(kind == kWrite || kind == kWriteSeg))) = false
  rw [hkind, hends, hdata, decide_eq_false (Nat.not_lt.mpr hd)]
  simp

/-- A whole READ or WRITE is answered as its object gives. -/
theorem State.answer_whole {s : State} {w : World} {r : Req} {kind index sub : Nat} {d : Bytes} (h : w.carries r kind = true)
    (hk : kind = kRead ∧ d = [] ∨ kind = kWrite) (hd : d.length ≤ 1024) :
    s.answer (reqWindow r) (reqMac r) (w.reqWhole r kind index sub d) =
      some (s.doObject { client := reqClient r, mac := reqMac r, txn := r.txn } (w.reqWhole r kind index sub d)) := by
  have hkind : (w.reqWhole r kind index sub d).kind = kRead ∨ (w.reqWhole r kind index sub d).kind = kWrite := hk.imp_left (·.1)
  have hclient : (if reqWindow r then 254 else (w.reqWhole r kind index sub d).src) = reqClient r := by
    obtain ⟨_ | ⟨n, mac⟩, t, x⟩ := r <;> rfl
  simp only [State.answer, World.reqWhole_wellFormed h hk hd, hkind, hclient, Bool.false_eq_true, if_false, if_true]
  rfl

/-- A whole request has no flag that it should not have, and opens no segmented transfer. -/
theorem World.reqWhole_flags (w : World) (r : Req) (kind index sub : Nat) (d : Bytes) :
    Nat.land (w.reqWhole r kind index sub d).flags 0xFC = 0 ∧ (w.reqWhole r kind index sub d).opens = false := by
  cases hs : r.sel <;> simp [Msg.opens, World.reqWhole, World.reqFields, hs, bitAt, Nat.testBit]

/-- The selector override that a whole request carries is the one that it names (R291). -/
theorem World.reqWhole_selector (w : World) (r : Req) (kind index sub : Nat) (d : Bytes) :
    let m := w.reqWhole r kind index sub d
    ({ client := reqClient r, mac := reqMac r, txn := r.txn, sel := if bitAt m.flags 0 && selected m.index m.sub then some m.aux else none } : Rq) =
      reqOf r index sub := by
  cases hs : r.sel <;> simp [World.reqWhole, World.reqFields, reqOf, bitAt, hs]

/-- A whole request that a check refuses changes nothing (R292). -/
theorem State.doObject_refused {s : State} {w : World} {r : Req} {kind index sub status : Nat} {d : Bytes} {o : Option ObjRun}
    (hobj : s.w.objCheck (reqClient r) index sub (kind == kWrite) true = (status, o)) (hs : status ≠ 0) :
    s.doObject { client := reqClient r, mac := reqMac r, txn := r.txn } (w.reqWhole r kind index sub d) = s.refuse status := by
  obtain ⟨-, hopens⟩ := w.reqWhole_flags r kind index sub d
  have hobj' : s.w.objCheck (reqClient r) (w.reqWhole r kind index sub d).index (w.reqWhole r kind index sub d).sub
      ((w.reqWhole r kind index sub d).kind == kWrite) (!(w.reqWhole r kind index sub d).opens) = (status, o) := by
    rw [hopens]; exact hobj
  simp only [State.doObject, hobj']

/-- A whole request that passes the checks of its object and its selector is made of the object (R292). -/
theorem State.doObject_passed {s : State} {w : World} {r : Req} {kind index sub : Nat} {d : Bytes} {o : Option ObjRun}
    (hobj : s.w.objCheck (reqClient r) index sub (kind == kWrite) true = (0, o)) (hsel : s.w.selCheck (reqOf r index sub) index sub = 0) :
    s.doObject { client := reqClient r, mac := reqMac r, txn := r.txn } (w.reqWhole r kind index sub d) =
      if kind == kWrite then s.writeOf (reqOf r index sub) index sub d else s.doRead (reqOf r index sub) (w.reqWhole r kind index sub d) := by
  obtain ⟨hflags, hopens⟩ := w.reqWhole_flags r kind index sub d
  have hrq := w.reqWhole_selector r kind index sub d
  generalize hm : w.reqWhole r kind index sub d = m at *
  have hkind : m.kind = kind := hm ▸ rfl
  have hindex : m.index = index := hm ▸ rfl
  have hsub : m.sub = sub := hm ▸ rfl
  have hstatus : m.status = 0 := hm ▸ rfl
  have hdata : m.data = d := hm ▸ rfl
  dsimp only at hrq
  simp only [State.doObject, State.doWrite, hkind, hopens, Bool.not_false, hflags, hrq, hstatus, hdata]
  rw [hindex, hsub, hobj]
  simp only [hsel, ne_eq, not_true_eq_false, if_false, if_true]

/-- A READ that passes its checks is answered with the whole value, where it fits (R295); one of a challenge draws it. -/
theorem State.doRead_whole {s : State} {w : World} {r : Req} {index sub : Nat} (hne : ¬(index = 0x1101 ∧ sub = 1)) (hne' : ¬(index = 0x1300 ∧ sub = 8))
    (hlen : (s.w.readObj s.otp s.vault (reqOf r index sub) index sub).length ≤ 1024) :
    s.doRead (reqOf r index sub) (w.reqWhole r kRead index sub []) =
      { st := s, data := s.w.readObj s.otp s.vault (reqOf r index sub) index sub, flags := 2, aux := 1 } := by
  have hread : s.readOf (reqOf r index sub) index sub = (s, 0, s.w.readObj s.otp s.vault (reqOf r index sub) index sub) := by
    rw [State.readOf, if_neg hne, if_neg hne']
  have hindex : (w.reqWhole r kRead index sub []).index = index := rfl
  have hsub : (w.reqWhole r kRead index sub []).sub = sub := rfl
  rw [State.doRead, hindex, hsub, hread]
  simp [hlen]

/-- The message of a whole request goes the way of every message of its kind. -/
theorem State.adpKind_whole (s : State) {r : Req} {kind index sub : Nat} {d : Bytes} (car : Carrier) (hk : kind < 256) :
    s.adpKind kind car (reqMsg s.w r kind index sub d) = s.adpIn [] car (reqMsg s.w r kind index sub d) := by
  have h : leAt (reqMsg s.w r kind index sub d) 1 1 = kind := by
    obtain ⟨_ | ⟨n, mac⟩, t, x⟩ := r <;> exact leAt_kind hk
  simp [State.adpKind, h]

/-- A request of a command of its own is the message that its client would send (Table 12.4). -/
theorem State.request_eq (s : State) (peers : List Peer) (r : Req) (kind index sub : Nat) (d : Bytes) :
    s.request peers r kind index sub d = s.adpIn peers (reqCarrier s.w r) (reqMsg s.w r kind index sub d) := by
  obtain ⟨_ | ⟨n, mac⟩, t, x⟩ := r <;> rfl

/-- A whole request is answered with what its object gives, in the engine that has taken it. -/
theorem State.adpIn_whole {s : State} {peers : List Peer} {r : Req} {kind index sub : Nat} {d : Bytes} (h : s.w.carries r kind = true)
    (hk : kind = kRead ∧ d = [] ∨ kind = kWrite) (hi : index < 2 ^ 16) (hs : sub < 256) (hd : d.length ≤ 1024) :
    let t : State := { s with w := s.w.hears r (reqMsg s.w r kind index sub d) }
    let a := t.doObject { client := reqClient r, mac := reqMac r, txn := r.txn } (s.w.reqWhole r kind index sub d)
    s.adpIn peers (reqCarrier s.w r) (reqMsg s.w r kind index sub d) =
      a.given r kind (reqResp s.w r kind index sub a.status a.flags a.aux a.data) peers := by
  have hk128 : kind < 128 := by rcases hk with ⟨rfl, -⟩ | rfl <;> decide
  have hack : kind ≠ kAck := by rcases hk with ⟨rfl, -⟩ | rfl <;> decide
  exact State.adpIn_carried h (World.carries_fits h hk128 hi hs hd) hack (State.answer_whole h hk hd)

end Sys2Proof.Machine

namespace Sys2Proof.Machine

open Sys2Proof

/-! Reads (R292, R295, R298, R300). -/

/-- A whole READ leads to its answer. -/
theorem State.adpRead_whole {s : State} {r : Req} {index sub : Nat} (h : s.w.carries r kRead = true) (hi : index < 2 ^ 16) (hs : sub < 256) :
    let t : State := { s with w := s.w.hears r (reqMsg s.w r kRead index sub []) }
    let a := t.doObject { client := reqClient r, mac := reqMac r, txn := r.txn } (s.w.reqWhole r kRead index sub [])
    exec (.adpRead (reqCarrier s.w r) (reqMsg s.w r kRead index sub [])) s =
      .next (a.given r kRead (reqResp s.w r kRead index sub a.status a.flags a.aux a.data) []) := by
  intro t a
  change Host.Outcome.next (s.adpKind kRead _ _) = _
  rw [State.adpKind_whole s _ (by decide), State.adpIn_whole h (.inl ⟨rfl, rfl⟩) hi hs (by simp)]

/-- An answer that owes nothing and leaves the engine is only sent. -/
theorem Answer.given_sent {s : State} {w : World} {a : Answer} {r : Req} {kind : Nat} {resp : Bytes} {peers : List Peer}
    (hst : a.st = { s with w := w }) (howed : a.owed = none) :
    a.given r kind resp peers = { s with w := w.replies r kind a.status resp } := by
  simp [Answer.given, hst, howed, State.onW]

/-- There is room for the response where there was room before the request. -/
theorem World.hears_room {w : World} {r : Req} {msg : Bytes} (h : w.room r = true) : (w.hears r msg).room r = true := by
  obtain ⟨_ | ⟨n, mac⟩, t, x⟩ := r
  · rfl
  · simpa [World.room] using h

/-- A whole READ that only answers leaves the engine as it was but for the carriers. -/
theorem State.adpRead_answered {s : State} {r : Req} {index sub status flags aux : Nat} {d : Bytes} (h : s.w.carries r kRead = true) (hi : index < 2 ^ 16)
    (hs : sub < 256) (hroom : s.w.room r = true)
    (ha : ({ s with w := s.w.hears r (reqMsg s.w r kRead index sub []) } : State).doObject { client := reqClient r, mac := reqMac r, txn := r.txn }
      (s.w.reqWhole r kRead index sub []) =
        { st := { s with w := s.w.hears r (reqMsg s.w r kRead index sub []) }, status := status, data := d, flags := flags, aux := aux }) :
    ∃ w', Gives (.adpRead (reqCarrier s.w r) (reqMsg s.w r kRead index sub [])) s w' ∧ (s.w.hears r (reqMsg s.w r kRead index sub [])).AnsweredFrom w' ∧
      w'.replied r (reqResp s.w r kRead index sub status flags aux d) := by
  refine ⟨_, ?_, World.replies_answered _ r kRead status _, World.replies_replied kRead status _ (World.hears_room hroom)⟩
  rw [Gives, State.adpRead_whole h hi hs, ha, Answer.given_sent rfl rfl]

/-- A READ that passes its checks is answered with the value. -/
theorem State.adpRead_value {s : State} {r : Req} {index sub : Nat} {o : Option ObjRun} (hi : index < 2 ^ 16) (hs : sub < 256)
    (h : s.w.carries r kRead = true) (hroom : s.w.room r = true) (hobj : s.w.objCheck (reqClient r) index sub false true = (0, o))
    (hsel : s.w.selCheck (reqOf r index sub) index sub = 0) (hne : ¬(index = 0x1101 ∧ sub = 1)) (hne' : ¬(index = 0x1300 ∧ sub = 8))
    (hlen : ((s.w.hears r (reqMsg s.w r kRead index sub [])).readObj s.otp s.vault (reqOf r index sub) index sub).length ≤ 1024) :
    ∃ w', Gives (.adpRead (reqCarrier s.w r) (reqMsg s.w r kRead index sub [])) s w' ∧ (s.w.hears r (reqMsg s.w r kRead index sub [])).AnsweredFrom w' ∧
      w'.replied r (reqResp s.w r kRead index sub 0 2 1
        ((s.w.hears r (reqMsg s.w r kRead index sub [])).readObj s.otp s.vault (reqOf r index sub) index sub)) := by
  have hkind : (kRead == kWrite) = false := rfl
  have ha := (State.doObject_passed (s := { s with w := s.w.hears r (reqMsg s.w r kRead index sub []) }) (w := s.w) (r := r) (kind := kRead) (d := [])
    (by simpa [hkind] using hobj) (by simpa using hsel)).trans
    ((if_neg (by simp [hkind])).trans (State.doRead_whole hne hne' hlen))
  exact State.adpRead_answered h hi hs hroom ha

/-- A READ that a check of its object refuses is answered with that check's status. -/
theorem State.adpRead_refused {s : State} {r : Req} {index sub status : Nat} {o : Option ObjRun} (hi : index < 2 ^ 16) (hs : sub < 256)
    (h : s.w.carries r kRead = true) (hroom : s.w.room r = true) (hobj : s.w.objCheck (reqClient r) index sub false true = (status, o))
    (hstatus : status ≠ 0) :
    ∃ w', Gives (.adpRead (reqCarrier s.w r) (reqMsg s.w r kRead index sub [])) s w' ∧ (s.w.hears r (reqMsg s.w r kRead index sub [])).AnsweredFrom w' ∧
      w'.replied r (reqResp s.w r kRead index sub status 0 0 []) := by
  have hkind : (kRead == kWrite) = false := rfl
  have ha := State.doObject_refused (s := { s with w := s.w.hears r (reqMsg s.w r kRead index sub []) }) (w := s.w) (r := r) (kind := kRead) (d := [])
    (index := index) (sub := sub) (by simpa [hkind] using hobj) hstatus
  exact State.adpRead_answered h hi hs hroom ha

/-! Requests that wait (R300). -/

/-- Padding does not reach the kind of a message (R298). -/
theorem unpad_kind (b : Bytes) : leAt (unpad b) 1 1 = leAt b 1 1 := by
  unfold unpad
  split
  · generalize leAt b 6 2 = n
    simp only [leAt, slice, List.drop_take, List.take_take, show min 1 (16 + n - 1) = 1 by omega]
  · rfl

/-- A READ in a frame is received as every frame is. -/
theorem State.adpRead_frame (s : State) {msg : Bytes} (dmac smac etype : Nat) (wait : Bool) (hk : leAt msg 1 1 = kRead) :
    exec (.adpRead (.frame dmac smac etype true wait) msg) s = .next (s.adpIn [] (.frame dmac smac etype true wait) msg) := by
  change Host.Outcome.next (s.adpKind kRead _ _) = _
  simp [State.adpKind, hk]

/-- The engine that has counted an accepted frame of another node (R298). -/
def World.counted (w : World) (src mac : Nat) : World :=
  { w with stn := { w.stn with macs := w.stn.macs.set 0 src (mac + 1) }, adp := { w.adp with accepted := add64 w.adp.accepted 1 } }

/-- A READ in a frame that has to wait goes to the queue of requests (R300). -/
theorem State.adpRead_waits {s : State} {mac : Nat} {msg : Bytes} (hon : s.w.t1sOn = true) (hdoze : s.w.power.st ≠ .doze)
    (hacc : s.w.accepts s.w.mac (msgOf (unpad msg)) = true) (hsrc : (msgOf (unpad msg)).src < 32) (hother : (msgOf (unpad msg)).src ≠ s.w.live.nodeId)
    (hk : leAt msg 1 1 = kRead) :
    Gives (.adpRead (.frame s.w.mac mac etherType true true) msg) s ((s.w.counted (msgOf (unpad msg)).src mac).queueRequest [] mac (unpad msg)) := by
  have hkind : (msgOf (unpad msg)).kind = kRead := (unpad_kind msg).trans hk
  have hack : (msgOf (unpad msg)).isAck false = false := by simp [Msg.isAck, hkind, kRead, kAck]
  have hconf : s.w.conflicting (msgOf (unpad msg)).src mac = s.w := by rw [World.conflicting, if_neg (fun h => hother h.1)]
  rw [Gives, State.adpRead_frame s _ _ _ _ hk]
  simp only [State.adpIn, State.onW, World.frameIn_accepted hon hacc hsrc, hconf, Bool.true_or, if_true]
  rw [World.takeFrame_request _ hack]
  · rfl
  · exact hdoze

/-- A request that waits stands behind those that wait already (R300). -/
theorem World.queueRequest_waits {w : World} {peers : List Peer} {mac : Nat} {b : Bytes} (h : w.stn.waiting < 16) :
    w.queueRequest peers mac b = { w with stn := { w.stn with rx := w.stn.rx ++ [.frame mac b peers] } } := if_pos h

/-- The seventeenth request that waits is answered BUSY, where the answer has room (R300). -/
theorem World.queueRequest_busy {w : World} {peers : List Peer} {mac : Nat} {b : Bytes} (h : 16 ≤ w.stn.waiting) (hroom : w.stn.txq.length < 16) :
    w.queueRequest peers mac b = { w with
      adp := { w.adp with busyCnt := sat32 w.adp.busyCnt 1 }
      stn := { w.stn with txq := w.stn.txq ++ [(mac, respond w.live.nodeId (msgOf b) 0x0816 0 0 [])] } } := by
  rw [World.queueRequest, if_neg (by omega)]
  simp only [World.queueFrame, hroom, if_true]

/-- A frame of another EtherType is ignored (R298). -/
theorem World.frameIn_foreign (w : World) (peers : List Peer) {dmac smac etype : Nat} (msg : Bytes) (h : etype ≠ etherType) :
    w.frameIn peers dmac smac etype true msg = w := by
  simp [World.frameIn, h]

/-- Where no request waits there is nothing to answer. -/
theorem State.serveAll_none {s : State} (h : s.w.stn.rx = []) : s.serveAll = s := by
  rw [State.serveAll, h]
  exact congrArg (fun w => { s with w := w }) (World.withRx_same h)

/-- Settles O50, by the answer that the dictionary gives to a READ, sent on its carrier. -/
theorem readsAnswer : Obligations.ReadsAnswer := by
  refine ⟨?_, ?_, ?_, ?_⟩
  · intro s r index sub o hi hs h hroom hobj hsel hne hne' msg w v hlen
    exact State.adpRead_value hi hs h hroom hobj hsel hne hne' hlen
  · intro s r index sub status o hi hs h hroom hobj hpos _ msg
    exact State.adpRead_refused hi hs h hroom hobj (by omega)
  · intro s mac msg w b m c hon hdoze hacc hsrc hother hk
    have hgives := State.adpRead_waits (mac := mac) hon hdoze hacc hsrc hother hk
    refine ⟨fun hwait => ⟨_, hgives, ?_⟩, fun hwait hroom => ⟨_, hgives, ?_⟩⟩
    · rw [World.queueRequest_waits (w := w.counted m.src mac) hwait]
      exact ⟨rfl, rfl, rfl⟩
    · rw [World.queueRequest_busy (w := w.counted m.src mac) hwait hroom]
      exact ⟨rfl, rfl, rfl⟩
  · intro s dmac smac etype wait msg hforeign hrx hk
    rw [Gives, State.adpRead_frame s _ _ _ _ hk]
    simp only [State.adpIn, State.onW, World.frameIn_foreign s.w [] msg hforeign, State.serveAll_none hrx, ite_self]

end Sys2Proof.Machine

namespace Sys2Proof.Machine

open Sys2Proof

/-! Writes (R289, R292). -/

/-- What a write that every check grants has passed (R292). -/
theorem World.grants_checks {w : World} {r : Req} {index sub : Nat} {d : Bytes} (h : w.grants r index sub d = true) :
    ∃ o, w.objCheck (reqClient r) index sub true true = (0, some o) ∧ w.selCheck (reqOf r index sub) index sub = 0 ∧ d.length = o.len ∧
      w.valueStatus (reqOf r index sub) index sub d = 0 := by
  unfold World.grants at h
  split at h
  next o hobj =>
    simp only [Bool.and_eq_true, decide_eq_true_eq] at h
    obtain ⟨⟨hsel, hlen⟩, hval⟩ := h
    exact ⟨o, hobj, hsel, hlen, hval⟩
  next => exact absurd h (by simp)

/-- What is owed once a pending write of a request is answered. -/
def owedOf (r : Req) (index sub : Nat) (d : Bytes) : Owed := { pend := pendOf_ r index sub, index := index, sub := sub, value := d }

/-- A granted write is answered PENDING, or takes effect (R289). -/
theorem State.writeOf_granted {s : State} {r : Req} {index sub : Nat} {d : Bytes} {o : ObjRun}
    (hobj : s.w.objCheck (reqClient r) index sub true true = (0, some o)) (hsel : s.w.selCheck (reqOf r index sub) index sub = 0)
    (hlen : d.length = o.len) (hval : s.w.valueStatus (reqOf r index sub) index sub d = 0) :
    s.writeOf (reqOf r index sub) index sub d =
      if isPending o index sub d then { st := s, status := 0x0103, owed := some (owedOf r index sub d) }
      else { st := (s.writeNow (reqOf r index sub) index sub d).1, status := (s.writeNow (reqOf r index sub) index sub d).2 } := by
  have hobj' : s.w.objCheck (reqOf r index sub).client index sub true true = (0, some o) := hobj
  simp only [State.writeOf, hobj', hsel, hlen, hval, ne_eq, not_true_eq_false, if_false]
  rfl

/-- A granted write is still granted in the engine that has taken it. -/
theorem State.writeOf_heard {s : State} {r : Req} {index sub : Nat} {d : Bytes} (msg : Bytes) {o : ObjRun}
    (hobj : s.w.objCheck (reqClient r) index sub true true = (0, some o)) (hsel : s.w.selCheck (reqOf r index sub) index sub = 0)
    (hlen : d.length = o.len) (hval : s.w.valueStatus (reqOf r index sub) index sub d = 0) :
    let t : State := { s with w := s.w.hears r msg }
    t.writeOf (reqOf r index sub) index sub d =
      if isPending o index sub d then { st := t, status := 0x0103, owed := some (owedOf r index sub d) }
      else { st := (t.writeNow (reqOf r index sub) index sub d).1, status := (t.writeNow (reqOf r index sub) index sub d).2 } := by
  intro t
  exact State.writeOf_granted (by simpa [t] using hobj) (by simpa [t] using hsel) hlen (by simpa [t] using hval)

/-- A write of at most 1,024 bytes that is carried and granted leads to its answer. -/
theorem State.adpIn_write {s : State} {r : Req} {index sub : Nat} {d : Bytes} (peers : List Peer) (hi : index < 2 ^ 16) (hs : sub < 256)
    (hd : d.length ≤ 1024) (h : s.w.carries r kWrite = true) (hgrants : s.w.grants r index sub d = true) :
    let t : State := { s with w := s.w.hears r (reqMsg s.w r kWrite index sub d) }
    let a := t.writeOf (reqOf r index sub) index sub d
    s.adpIn peers (reqCarrier s.w r) (reqMsg s.w r kWrite index sub d) =
      a.given r kWrite (reqResp s.w r kWrite index sub a.status a.flags a.aux a.data) peers := by
  intro t a
  obtain ⟨o, hobj, hsel, hlen, hval⟩ := World.grants_checks hgrants
  have ha : t.doObject { client := reqClient r, mac := reqMac r, txn := r.txn } (s.w.reqWhole r kWrite index sub d) = a :=
    (State.doObject_passed (kind := kWrite) (by simpa [t] using hobj) (by simpa [t] using hsel)).trans (if_pos rfl)
  rw [State.adpIn_whole h (.inr rfl) hi hs hd, ha]

/-! The frames that wait to be sent (R300). -/

section
variable (w : World)

@[simp] theorem World.setSt_txq (st : PState) : (w.setSt st).stn.txq = w.stn.txq := by
  unfold World.setSt
  dsimp only
  split <;> simp

@[simp] theorem World.leaveIdle_txq : w.leaveIdle.stn.txq = w.stn.txq := by
  unfold World.leaveIdle
  split
  · simp [World.readyPosted]
  · rfl

@[simp] theorem World.beginDown_txq (byReq toDoze : Bool) : (w.beginDown byReq toDoze).stn.txq = w.stn.txq := by simp [World.beginDown]

@[simp] theorem World.goTarget_txq : w.goTarget.stn.txq = w.stn.txq := by
  unfold World.goTarget
  (repeat' split) <;> simp

@[simp] theorem World.abortDown_txq : w.abortDown.stn.txq = w.stn.txq := by
  unfold World.abortDown
  dsimp only
  split
  · simp [World.dropComing]
  · simp [World.readyPosted]

@[simp] theorem World.requestState_txq (v : Nat) : (w.requestState v).stn.txq = w.stn.txq := by
  unfold World.requestState
  dsimp only
  (repeat' split) <;> simp

@[simp] theorem World.writeLow_txq (idx sub v : Nat) (d : Bytes) : (w.writeLow idx sub v d).stn.txq = w.stn.txq := by
  unfold World.writeLow
  split <;> simp [World.noteReasons]

@[simp] theorem World.writeQueue_txq (n sub v : Nat) : (w.writeQueue n sub v).1.stn.txq = w.stn.txq := by
  unfold World.writeQueue
  dsimp only
  (repeat' split) <;> simp

@[simp] theorem World.writeCtx_txq (v : Vault) (c sub x : Nat) : (World.writeCtx v w c sub x).1.stn.txq = w.stn.txq := by
  unfold World.writeCtx
  dsimp only
  (repeat' split) <;> simp [World.openCtx]

@[simp] theorem World.writeTdm_txq (p sub v : Nat) : (w.writeTdm p sub v).1.stn.txq = w.stn.txq := by
  unfold World.writeTdm
  dsimp only
  (repeat' split) <;> simp [World.enableTdm]

@[simp] theorem World.writeHost_txq (v : Vault) (idx inst sub x : Nat) (d : Bytes) : (World.writeHost v w idx inst sub x d).1.stn.txq = w.stn.txq := by
  unfold World.writeHost
  split <;> simp

@[simp] theorem World.updSels_txq (client : Nat) (f : Sels → Sels) : (w.updSels client f).stn.txq = w.stn.txq := by
  unfold World.updSels
  split <;> rfl

@[simp] theorem World.writeMid_txq (rq : Rq) (idx inst sub v : Nat) : (w.writeMid rq idx inst sub v).stn.txq = w.stn.txq := by
  unfold World.writeMid
  dsimp only
  split <;> simp

@[simp] theorem World.writeHigh_txq (rq : Rq) (idx sub v : Nat) : (w.writeHigh rq idx sub v).stn.txq = w.stn.txq := by
  unfold World.writeHigh
  split <;> simp

@[simp] theorem World.writeObj_txq (v : Vault) (rq : Rq) (index sub : Nat) (d : Bytes) : (World.writeObj v w rq index sub d).1.stn.txq = w.stn.txq := by
  unfold World.writeObj
  dsimp only
  (repeat' split) <;> simp

@[simp] theorem World.updClient_txq (id : Nat) (f : Client → Client) : (w.updClient id f).stn.txq = w.stn.txq := rfl

@[simp] theorem World.answerLevel_txq (o : Otp) (id : Nat) (d : Bytes) : (World.answerLevel o w id d).1.stn.txq = w.stn.txq := by
  unfold World.answerLevel
  dsimp only
  (repeat' split) <;> simp [World.wrongLevel]

@[simp] theorem World.answerDebug_txq (o : Otp) (v : Vault) (id : Nat) (d : Bytes) : (World.answerDebug o v w id d).1.stn.txq = w.stn.txq := by
  unfold World.answerDebug
  dsimp only
  (repeat' split) <;> simp

@[simp] theorem World.relock_txq (v : Vault) (client : Nat) : (World.relock v w client).1.stn.txq = w.stn.txq := by
  unfold World.relock
  (repeat' split) <;> simp

end

/-- A write that takes effect leaves the frames that wait to be sent. -/
theorem State.writeNow_txq (s : State) (rq : Rq) (index sub : Nat) (d : Bytes) : (s.writeNow rq index sub d).1.w.stn.txq = s.w.stn.txq := by
  unfold State.writeNow
  dsimp only
  (repeat' split) <;> simp [World.closeLevel]

/-- What there is room for depends on the frames that wait to be sent alone. -/
theorem World.room_of_txq {v w : World} {r : Req} (h : v.stn.txq = w.stn.txq) (hroom : w.room r = true) : v.room r = true := by
  obtain ⟨_ | ⟨n, mac⟩, t, x⟩ := r
  · rfl
  · simpa [World.room, h] using hroom

/-- A write is a message of its kind. -/
theorem State.adpWrite_in (s : State) (r : Req) (index sub : Nat) (d : Bytes) : exec (.adpWrite (reqCarrier s.w r) (reqMsg s.w r kWrite index sub d)) s =
    .next (s.adpIn [] (reqCarrier s.w r) (reqMsg s.w r kWrite index sub d)) := by
  change Host.Outcome.next (s.adpKind kWrite _ _) = _
  rw [State.adpKind_whole s _ (by decide)]

/-- What a granted write is answered with, by whether it is pending. -/
theorem State.adpIn_now {s : State} {r : Req} {index sub : Nat} {d : Bytes} {e : State × Nat} (peers : List Peer) (hi : index < 2 ^ 16) (hs : sub < 256)
    (hd : d.length ≤ 1024) (h : s.w.carries r kWrite = true) (hgrants : s.w.grants r index sub d = true)
    (ha : State.writeOf { s with w := s.w.hears r (reqMsg s.w r kWrite index sub d) } (reqOf r index sub) index sub d = { st := e.1, status := e.2 }) :
    s.adpIn peers (reqCarrier s.w r) (reqMsg s.w r kWrite index sub d) =
      { e.1 with w := e.1.w.replies r kWrite e.2 (reqResp s.w r kWrite index sub e.2 0 0 []) } := by
  rw [State.adpIn_write peers hi hs hd h hgrants, ha, Answer.given_sent rfl rfl]

/-- A granted write that is pending does what it owes once PENDING is sent (R289). -/
theorem State.adpIn_pending {s : State} {r : Req} {index sub : Nat} {d : Bytes} (peers : List Peer) (hi : index < 2 ^ 16) (hs : sub < 256)
    (hd : d.length ≤ 1024) (h : s.w.carries r kWrite = true) (hgrants : s.w.grants r index sub d = true)
    (ha : State.writeOf { s with w := s.w.hears r (reqMsg s.w r kWrite index sub d) } (reqOf r index sub) index sub d =
      { st := { s with w := s.w.hears r (reqMsg s.w r kWrite index sub d) }, status := 0x0103, owed := some (owedOf r index sub d) }) :
    s.adpIn peers (reqCarrier s.w r) (reqMsg s.w r kWrite index sub d) =
      State.doOwed { s with w := (s.w.hears r (reqMsg s.w r kWrite index sub d)).replies r kWrite 0x0103 (reqResp s.w r kWrite index sub 0x0103 0 0 []) }
        peers (owedOf r index sub d) := by
  rw [State.adpIn_write peers hi hs hd h hgrants, ha]
  rfl

/-- Settles O51: a granted write is pending or takes effect at once, and its answer is sent in the engine that it leaves. -/
theorem writesAct : Obligations.WritesAct := by
  intro s r index sub d hi hs hd hadmits hroom msg w a
  obtain ⟨hcarries, hgrants⟩ : s.w.carries r kWrite = true ∧ s.w.grants r index sub d = true := by
    simpa [World.admits] using hadmits
  obtain ⟨o, hobj, hsel, hlen, hval⟩ := World.grants_checks hgrants
  have ha := State.writeOf_heard msg hobj hsel hlen hval
  by_cases hpend : isPending o index sub d = true
  · have ha' : a = { st := { s with w := w }, status := 0x0103, owed := some (owedOf r index sub d) } := ha.trans (if_pos hpend)
    refine ⟨fun hnone => absurd (hnone.symm.trans (congrArg Answer.owed ha')) (by simp), fun x hx => ?_⟩
    obtain rfl : owedOf r index sub d = x := by simpa [ha'] using hx
    refine ⟨rfl, _, ?_, World.replies_answered _ r kWrite 0x0103 _, World.replies_replied kWrite 0x0103 _ (World.hears_room hroom)⟩
    rw [State.adpWrite_in, State.adpIn_pending [] hi hs hd hcarries hgrants ha']
  · have ha' : a = { st := (State.writeNow { s with w := w } (reqOf r index sub) index sub d).1
                     status := (State.writeNow { s with w := w } (reqOf r index sub) index sub d).2 } := ha.trans (if_neg hpend)
    refine ⟨fun _ => ⟨ha', ?_⟩, fun x hx => absurd (hx.symm.trans (congrArg Answer.owed ha')) (by simp)⟩
    rw [ha']
    generalize he : State.writeNow { s with w := w } (reqOf r index sub) index sub d = e at ha' ⊢
    have hroom' : e.1.w.room r = true := he ▸ World.room_of_txq (State.writeNow_txq _ _ _ _ _) (World.hears_room hroom)
    refine ⟨_, ?_, World.replies_answered _ r kWrite e.2 _, World.replies_replied kWrite e.2 _ hroom'⟩
    rw [State.adpWrite_in, State.adpIn_now [] hi hs hd hcarries hgrants ha']

end Sys2Proof.Machine

namespace Sys2Proof.Machine

open Sys2Proof

/-! Commands that send a request (R289, R292). -/

/-- The object that passes the checks at an index and a subindex is the one that stands there. -/
theorem World.objCheck_object {w : World} {id index sub status : Nat} {write whole : Bool} {o : ObjRun}
    (h : w.objCheck id index sub write whole = (status, some o)) : (runsOf index).bind (fun rs => objAt rs sub) = some o := by
  unfold World.objCheck at h
  split at h
  · simp at h
  · split at h
    next => simp at h
    next rs hrs =>
      split at h
      · simp at h
      · split at h
        next => simp at h
        next o' ho' =>
          have : o' = o := by
            revert h
            (repeat' split) <;> simp
          simpa [hrs] using this ▸ ho'

/-- A granted write names the object that stands at its subindex, by its length. -/
theorem World.grants_object {w : World} {r : Req} {index sub : Nat} {d : Bytes} {o : ObjRun} (h : w.grants r index sub d = true)
    (hobj : (runsOf index).bind (fun rs => objAt rs sub) = some o) :
    w.objCheck (reqClient r) index sub true true = (0, some o) ∧ w.selCheck (reqOf r index sub) index sub = 0 ∧ d.length = o.len ∧
      w.valueStatus (reqOf r index sub) index sub d = 0 := by
  obtain ⟨o', hcheck, hsel, hlen, hval⟩ := World.grants_checks h
  obtain rfl : o' = o := Option.some.inj ((World.objCheck_object hcheck).symm.trans hobj)
  exact ⟨hcheck, hsel, hlen, hval⟩

theorem World.admits_split {w : World} {r : Req} {index sub : Nat} {d : Bytes} (h : w.admits r index sub d = true) :
    w.carries r kWrite = true ∧ w.grants r index sub d = true := by
  simpa [World.admits] using h

/-- The engine that has taken a write of a request. -/
def World.takes (w : World) (r : Req) (index sub : Nat) (d : Bytes) : World := w.hears r (reqMsg w r kWrite index sub d)

/-- The engine that has answered a write of a request PENDING (R289). -/
def World.promised (w : World) (r : Req) (index sub : Nat) (d : Bytes) : World :=
  (w.takes r index sub d).replies r kWrite 0x0103 (reqResp w r kWrite index sub 0x0103 0 0 [])

/-- A granted write of an object that is not pending takes effect and is answered. -/
theorem State.put_now {s : State} {r : Req} {index sub : Nat} {d : Bytes} {o : ObjRun} (hobj : (runsOf index).bind (fun rs => objAt rs sub) = some o)
    (hi : index < 2 ^ 16) (hs : sub < 256) (hlen : o.len ≤ 1024) (hpend : isPending o index sub d = false) (h : s.w.admits r index sub d = true) :
    let e := State.writeNow { s with w := s.w.takes r index sub d } (reqOf r index sub) index sub d
    s.put r index sub d = { e.1 with w := e.1.w.replies r kWrite e.2 (reqResp s.w r kWrite index sub e.2 0 0 []) } := by
  intro e
  obtain ⟨hcar, hgrants⟩ := World.admits_split h
  obtain ⟨hcheck, hsel, hd, hval⟩ := World.grants_object hgrants hobj
  rw [State.put, State.request_eq, State.adpIn_now [] hi hs (hd ▸ hlen) hcar hgrants ((State.writeOf_heard _ hcheck hsel hd hval).trans (if_neg (by simp [hpend])))]
  rfl

/-- A granted write of a pending object is answered PENDING, and does then what it owes (R289). -/
theorem State.put_pending {s : State} {r : Req} {index sub : Nat} {d : Bytes} {o : ObjRun} (hobj : (runsOf index).bind (fun rs => objAt rs sub) = some o)
    (hi : index < 2 ^ 16) (hs : sub < 256) (hlen : o.len ≤ 1024) (hpend : isPending o index sub d = true) (h : s.w.admits r index sub d = true) :
    s.put r index sub d = State.doOwed { s with w := s.w.promised r index sub d } [] (owedOf r index sub d) := by
  obtain ⟨hcar, hgrants⟩ := World.admits_split h
  obtain ⟨hcheck, hsel, hd, hval⟩ := World.grants_object hgrants hobj
  rw [State.put, State.request_eq, State.adpIn_pending [] hi hs (hd ▸ hlen) hcar hgrants ((State.writeOf_heard _ hcheck hsel hd hval).trans (if_pos hpend))]
  rfl

/-- The engine that has taken a READ of a request. -/
def World.takesRead (w : World) (r : Req) (index sub : Nat) : World := w.hears r (reqMsg w r kRead index sub [])

/-- A READ of a challenge is answered with the challenge, in the engine that has drawn it. -/
theorem State.request_read {s : State} {r : Req} {index sub status flags aux : Nat} {d : Bytes} {w : World} {o : Option ObjRun} (hi : index < 2 ^ 16)
    (hs : sub < 256) (h : s.w.carries r kRead = true) (hobj : s.w.objCheck (reqClient r) index sub false true = (0, o))
    (hsel : s.w.selCheck (reqOf r index sub) index sub = 0)
    (ha : State.doRead { s with w := s.w.takesRead r index sub } (reqOf r index sub) (s.w.reqWhole r kRead index sub []) =
      { st := { s with w := w }, status := status, data := d, flags := flags, aux := aux }) :
    s.request [] r kRead index sub [] = { s with w := w.replies r kRead status (reqResp s.w r kRead index sub status flags aux d) } := by
  have hkind : (kRead == kWrite) = false := rfl
  have ha' := (State.doObject_passed (s := { s with w := s.w.takesRead r index sub }) (w := s.w) (r := r) (kind := kRead) (d := [])
    (by simpa [hkind, World.takesRead] using hobj) (by simpa [World.takesRead] using hsel)).trans ((if_neg (by simp [hkind])).trans ha)
  rw [State.request_eq, State.adpIn_whole h (.inl ⟨rfl, rfl⟩) hi hs (by simp)]
  exact (congrArg (fun a : Answer => a.given r kRead (reqResp s.w r kRead index sub a.status a.flags a.aux a.data) []) ha').trans
    (Answer.given_sent rfl rfl)

/-! Clients' records (R310). -/

theorem World.client_of_clients {v w : World} (h : v.stn.clients = w.stn.clients) (id : Nat) : v.client id = w.client id := by
  simp only [World.client, h]

@[simp] theorem World.hears_client (w : World) (r : Req) (m : Bytes) (id : Nat) : (w.hears r m).client id = w.client id :=
  World.client_of_clients (w.hears_clients r m) id

@[simp] theorem World.replies_client (w : World) (r : Req) (kind status : Nat) (resp : Bytes) (id : Nat) :
    (w.replies r kind status resp).client id = w.client id := World.client_of_clients (w.replies_clients r kind status resp) id

@[simp] theorem World.event_client (w : World) (code kind i a b id : Nat) : (w.event code kind i a b).client id = w.client id :=
  World.client_of_clients (by simp) id

theorem World.client_id (w : World) (id : Nat) : (w.client id).id = id := by
  unfold World.client
  cases h : w.stn.clients.find? (fun c => c.id == id) with
  | none => rfl
  | some c => simpa using List.find?_some h

/-- A record replaces the one of its client. -/
theorem find_replaced {l : List Client} {id : Nat} {c : Client} (hc : c.id = id) (h : l.any (fun x => x.id == id) = true) :
    (l.map (fun x => if x.id = id then c else x)).find? (fun x => x.id == id) = some c := by
  induction l with
  | nil => simp at h
  | cons x l ih =>
    by_cases hx : x.id = id
    · simp [hx, hc]
    · have h' : l.any (fun y => y.id == id) = true := by simpa [hx] using h
      simpa [hx] using ih h'

/-- A client's record is changed (R310). -/
@[simp] theorem World.client_updClient {w : World} {id : Nat} {f : Client → Client} (hf : (f (w.client id)).id = id) :
    (w.updClient id f).client id = f (w.client id) := by
  generalize hc : f (w.client id) = c at hf
  simp only [World.updClient, hc]
  unfold World.client
  dsimp only
  split
  next h => rw [find_replaced hf h]; rfl
  next h =>
    have hnone : w.stn.clients.find? (fun x => x.id == id) = none := by simpa [List.find?_eq_none] using h
    simp [List.find?_append, hnone, hf]

end Sys2Proof.Machine

namespace Sys2Proof.Machine

open Sys2Proof

/-! Challenges (R310, R312, R375, R391). -/

/-- An object of the boot ROM's ranges that can be read passes the checks of a READ (R243, R292). -/
theorem World.objCheck_boot {w : World} {id index sub : Nat} {rs : List ObjRun} {o : ObjRun} (hboot : inBoot index = true)
    (hruns : runsOf index = some rs) (hobj : objAt rs sub = some o) (hsub : sub ≠ 0) (hacc : o.acc ≠ .wo) :
    w.objCheck id index sub false true = (0, some o) := by
  simp [World.objCheck, hboot, hruns, hobj, hsub, hacc]

/-- The engine that has drawn a challenge for a client. -/
def World.drawnFor (w : World) (id : Nat) (debug : Bool) : World :=
  let ch := Config.entropy w.sec.drawn % 2 ^ 128
  w.draw.1.updClient id (fun c => if debug then { c with dchal := some ch } else { c with chal := some ch })

theorem World.drawnFor_client (w : World) (id : Nat) (debug : Bool) : (w.drawnFor id debug).client id =
    (if debug then { w.client id with dchal := some (Config.entropy w.sec.drawn % 2 ^ 128) }
      else { w.client id with chal := some (Config.entropy w.sec.drawn % 2 ^ 128) }) := by
  unfold World.drawnFor
  rw [World.client_updClient]
  · rfl
  · split <;> exact World.client_id _ id

theorem World.drawnFor_sec (w : World) (id : Nat) (debug : Bool) : (w.drawnFor id debug).sec = { w.sec with drawn := w.sec.drawn + 1 } := rfl

theorem World.drawnFor_txq (w : World) (id : Nat) (debug : Bool) : (w.drawnFor id debug).stn.txq = w.stn.txq := rfl

/-- A challenge is drawn unless its client is locked out or the entropy source has failed. -/
theorem World.challenge_cases (w : World) (id : Nat) : w.challenge id =
    if (w.client id).locked ≠ 0 then (w, 0x0704, []) else if w.sec.entropyBad then (w, 0x070E, [])
    else (w.drawnFor id false, 0, leBytes 16 (Config.entropy w.sec.drawn % 2 ^ 128)) := rfl

theorem World.debugChallenge_cases (w : World) (id : Nat) : w.debugChallenge id =
    if (w.client id).dlocked ≠ 0 then (w, 0x0704, []) else if w.sec.entropyBad then (w, 0x070E, [])
    else (w.drawnFor id true, 0, leBytes 16 (Config.entropy w.sec.drawn % 2 ^ 128)) := rfl

/-- A READ of a challenge is answered with what was drawn. -/
theorem State.doRead_drawn {s : State} {v w : World} {r : Req} {index sub : Nat} {d : Bytes} (hread : s.readOf (reqOf r index sub) index sub = ({ s with w := w }, 0, d))
    (hd : d.length ≤ 1024) :
    s.doRead (reqOf r index sub) (v.reqWhole r kRead index sub []) = { st := { s with w := w }, status := 0, data := d, flags := 2, aux := 1 } := by
  have hindex : (v.reqWhole r kRead index sub []).index = index := rfl
  have hsub : (v.reqWhole r kRead index sub []).sub = sub := rfl
  simp only [State.doRead, hindex, hsub, hread, ne_eq, not_true_eq_false, if_false, hd, if_true]

/-- A READ of a challenge that is not drawn is answered with its status. -/
theorem State.doRead_undrawn {s : State} {v : World} {r : Req} {index sub status : Nat} {d : Bytes} (hread : s.readOf (reqOf r index sub) index sub = (s, status, d))
    (hstatus : status ≠ 0) :
    s.doRead (reqOf r index sub) (v.reqWhole r kRead index sub []) = { st := s, status := status, data := [], flags := 0, aux := 0 } := by
  have hindex : (v.reqWhole r kRead index sub []).index = index := rfl
  have hsub : (v.reqWhole r kRead index sub []).sub = sub := rfl
  simp only [State.doRead, hindex, hsub, hread, ne_eq, hstatus, not_false_eq_true, if_true]
  rfl

section
variable {s : State} {r : Req}

/-- The challenge of a level passes the checks of its object and its selector. -/
theorem World.levelChallenge_checks (w : World) (r : Req) : w.objCheck (reqClient r) 0x1101 1 false true = (0, some (ro 1 1 16)) ∧
    w.selCheck (reqOf r 0x1101 1) 0x1101 1 = 0 :=
  ⟨World.objCheck_boot rfl rfl rfl (by decide) (by decide), rfl⟩

/-- LEVEL_CHALLENGE answers with what is drawn, where a challenge is (R310, R375). -/
theorem State.levelChallenge_drawn (h : s.w.carries r kRead = true) (hfree : (s.w.client (reqClient r)).locked = 0) (hgood : s.w.sec.entropyBad = false) :
    Gives (.levelChallenge r) s (((s.w.takesRead r 0x1101 1).drawnFor (reqClient r) false).replies r kRead 0
      (reqResp s.w r kRead 0x1101 1 0 2 1 (leBytes 16 (Config.entropy s.w.sec.drawn % 2 ^ 128)))) := by
  obtain ⟨hobj, hsel⟩ := World.levelChallenge_checks s.w r
  refine congrArg Host.Outcome.next (State.request_read (by decide) (by decide) h hobj hsel (State.doRead_drawn ?_ (by simp [leBytes])))
  have hclient : (reqOf r 0x1101 1).client = reqClient r := rfl
  simp [State.readOf, World.challenge_cases, hclient, World.takesRead, hfree, hgood]

/-- LEVEL_CHALLENGE is refused while its client is locked out (R312), or the entropy source has failed (R375). -/
theorem State.levelChallenge_refused {status : Nat} {d : Bytes} (h : s.w.carries r kRead = true) (hstatus : status ≠ 0)
    (hcase : (s.w.takesRead r 0x1101 1).challenge (reqClient r) = (s.w.takesRead r 0x1101 1, status, d)) :
    Gives (.levelChallenge r) s ((s.w.takesRead r 0x1101 1).replies r kRead status (reqResp s.w r kRead 0x1101 1 status 0 0 [])) := by
  obtain ⟨hobj, hsel⟩ := World.levelChallenge_checks s.w r
  refine congrArg Host.Outcome.next (State.request_read (by decide) (by decide) h hobj hsel (State.doRead_undrawn (d := d) ?_ hstatus))
  have hclient : (reqOf r 0x1101 1).client = reqClient r := rfl
  simp [State.readOf, hclient, hcase]

/-- DEBUG_CHALLENGE draws a challenge (R391). -/
theorem State.debugChallenge_drawn (h : s.w.carries r kRead = true) (hobj : s.w.objCheck (reqClient r) 0x1300 8 false true = (0, some (ro 8 1 16)))
    (hfree : (s.w.client (reqClient r)).dlocked = 0) (hgood : s.w.sec.entropyBad = false) :
    Gives (.debugChallenge r) s (((s.w.takesRead r 0x1300 8).drawnFor (reqClient r) true).replies r kRead 0
      (reqResp s.w r kRead 0x1300 8 0 2 1 (leBytes 16 (Config.entropy s.w.sec.drawn % 2 ^ 128)))) := by
  refine congrArg Host.Outcome.next (State.request_read (by decide) (by decide) h hobj rfl (State.doRead_drawn ?_ (by simp [leBytes])))
  have hclient : (reqOf r 0x1300 8).client = reqClient r := rfl
  simp [State.readOf, World.debugChallenge_cases, hclient, World.takesRead, hfree, hgood]

end

end Sys2Proof.Machine

namespace Sys2Proof.Machine

open Sys2Proof

/-! Responses to challenges (R310, R312). -/

/-- Whether a response is the one to a level's challenge (R310). -/
def World.levelRight (w : World) (id : Nat) (d : Bytes) (ch : Nat) : Prop :=
  hmac (if leAt d 0 1 = 1 then w.integratorKey else w.factoryPassword) (leBytes 16 ch ++ [byteOf (leAt d 0 1), clientByte id] ++ slice w.live.factory 0 8) =
    slice d 1 32

/-- Whether a level can be asked for: there is a record, and the factory level is neither retired nor held by another client. -/
structure World.LevelFree (o : Otp) (w : World) (id : Nat) (d : Bytes) : Prop where
  hasRec : w.live.hasRec = true
  factory : leAt d 0 1 = 2 → bitAt o.secBits 2 = false ∧ w.stn.clients.all (fun x => x.id == id || x.level != 2) = true

/-- Where a level can be asked for, what a response does turns on whether it is right. -/
theorem World.answerLevel_free {o : Otp} {w : World} {id : Nat} {d : Bytes} (h : w.LevelFree o id d) : w.answerLevel o id d =
    if (w.client id).chal.any (fun ch => decide (hmac (if leAt d 0 1 = 1 then w.integratorKey else w.factoryPassword)
      (leBytes 16 ch ++ [byteOf (leAt d 0 1), clientByte id] ++ slice w.live.factory 0 8) = slice d 1 32)) then
      (w.updClient id (fun c => { c with chal := none, wrong := 0, locked := 0, level := if w.keepsLevel id then leAt d 0 1 else 0 }), 0)
    else (w.wrongLevel id, 0x0703) := by
  have hretired : (leAt d 0 1 == 2 && bitAt o.secBits 2) = false := by
    by_cases h2 : leAt d 0 1 = 2
    · simp [(h.factory h2).1]
    · simp [h2]
  have hheld : ¬(leAt d 0 1 = 2 ∧ w.stn.clients.any (fun x => decide (x.id ≠ id) && x.level == 2) = true) := by
    rintro ⟨h2, hany⟩
    obtain ⟨x, hx, hbad⟩ := List.any_eq_true.mp hany
    have := List.all_eq_true.mp (h.factory h2).2 x hx
    simp_all
  simp only [World.answerLevel, h.hasRec, hretired, hheld, Bool.not_true, Bool.or_self, Bool.false_eq_true, if_false]

theorem World.answerLevel_right {o : Otp} {w : World} {id ch : Nat} {d : Bytes} (h : w.LevelFree o id d) (hch : (w.client id).chal = some ch)
    (hright : w.levelRight id d ch) (hkeeps : w.keepsLevel id = true) :
    w.answerLevel o id d = (w.updClient id (fun c => { c with chal := none, wrong := 0, locked := 0, level := leAt d 0 1 }), 0) := by
  unfold World.levelRight at hright
  rw [World.answerLevel_free h, hch, Option.any_some, if_pos (decide_eq_true hright), hkeeps]
  rfl

theorem World.answerLevel_wrong {o : Otp} {w : World} {id : Nat} {d : Bytes} (h : w.LevelFree o id d)
    (hwrong : ∀ ch, (w.client id).chal = some ch → ¬w.levelRight id d ch) : w.answerLevel o id d = (w.wrongLevel id, 0x0703) := by
  unfold World.levelRight at hwrong
  rw [World.answerLevel_free h, if_neg]
  cases hch : (w.client id).chal with
  | none => simp
  | some ch => exact fun h => hwrong ch hch (of_decide_eq_true h)

/-- A wrong response is counted, spends the challenge, and from the third in a row locks the client out (R312). -/
theorem World.wrongLevel_client (w : World) (id : Nat) : (w.wrongLevel id).client id =
    { w.client id with
      chal := none
      wrong := (w.client id).wrong + 1
      locked := if (w.client id).wrong + 1 < 3 then (w.client id).locked else w.clock.ns + lockoutNs ((w.client id).wrong + 1) } :=
  World.client_updClient (w.client_id id)

section
variable {s : State} {r : Req}

/-- What a response to a level's challenge does, it does before its answer. -/
theorem State.levelResponse_put {d : Bytes} (h : s.w.admits r 0x1101 2 d = true) :
    let e := World.answerLevel s.otp (s.w.takes r 0x1101 2 d) (reqClient r) d
    Gives (.levelResponse r d) s (e.1.replies r kWrite e.2 (reqResp s.w r kWrite 0x1101 2 e.2 0 0 [])) :=
  congrArg Host.Outcome.next (State.put_now (o := wo 0 false 2 33) rfl (by decide) (by decide) (by decide) rfl h)

theorem State.closeLevel_put {v : Nat} (h : s.w.admits r 0x1101 4 (leBytes 1 v) = true) :
    Gives (.closeLevel r v) s (((s.w.takes r 0x1101 4 (leBytes 1 v)).closeLevel (reqClient r)).replies r kWrite 0 (reqResp s.w r kWrite 0x1101 4 0 0 0 [])) :=
  congrArg Host.Outcome.next (State.put_now (o := wo 0 false 4 1) rfl (by decide) (by decide) (by decide) rfl h)

theorem State.debugResponse_put {d : Bytes} (h : s.w.admits r 0x1300 9 d = true) :
    let e := World.answerDebug s.otp s.vault (s.w.takes r 0x1300 9 d) (reqClient r) d
    Gives (.debugResponse r d) s (e.1.replies r kWrite e.2 (reqResp s.w r kWrite 0x1300 9 e.2 0 0 [])) :=
  congrArg Host.Outcome.next (State.put_now (o := wo 0 false 9 33) rfl (by decide) (by decide) (by decide) rfl h)

theorem State.relockDebug_put {v : Nat} (h : s.w.admits r 0x1300 11 (leBytes 1 v) = true) :
    let e := World.relock s.vault (s.w.takes r 0x1300 11 (leBytes 1 v)) (reqClient r)
    Gives (.relockDebug r v) s (e.1.replies r kWrite e.2 (reqResp s.w r kWrite 0x1300 11 e.2 0 0 [])) :=
  congrArg Host.Outcome.next (State.put_now (o := wo 0 false 11 1) rfl (by decide) (by decide) (by decide) rfl h)

end

/-! A request is taken without the records of clients, the live values or the keys (R310, R391). -/

section
variable (w : World) (r : Req) (index sub : Nat) (d : Bytes)

@[simp] theorem World.takes_client (id : Nat) : (w.takes r index sub d).client id = w.client id := by simp [World.takes]
@[simp] theorem World.takes_clients : (w.takes r index sub d).stn.clients = w.stn.clients := by simp [World.takes]
@[simp] theorem World.takes_live : (w.takes r index sub d).live = w.live := by simp [World.takes]
@[simp] theorem World.takes_clock : (w.takes r index sub d).clock = w.clock := by simp [World.takes]
@[simp] theorem World.takes_sec : (w.takes r index sub d).sec = w.sec := by simp [World.takes]
@[simp] theorem World.takes_link : (w.takes r index sub d).link = w.link := by simp [World.takes]
@[simp] theorem World.takes_mem : (w.takes r index sub d).mem = w.mem := by simp [World.takes]
@[simp] theorem World.takes_wrong : (w.takes r index sub d).adp.wrong = w.adp.wrong := by simp [World.takes]

theorem World.takes_staged : (w.takes r index sub d).log.staged.length ≤ w.log.staged.length + 1 := w.hears_staged r _

theorem World.takes_room {w : World} {r : Req} (h : w.room r = true) : (w.takes r index sub d).room r = true := World.hears_room h

@[simp] theorem World.takes_keepsLevel (id : Nat) : (w.takes r index sub d).keepsLevel id = w.keepsLevel id := by simp [World.keepsLevel]

theorem World.levelRight_takes (id ch : Nat) (e : Bytes) : (w.takes r index sub d).levelRight id e ch ↔ w.levelRight id e ch := by
  simp only [World.levelRight, World.integratorKey, World.factoryPassword, World.takes_live]

theorem World.LevelFree.takes {w : World} {o : Otp} {id : Nat} {e : Bytes} (h : w.LevelFree o id e) : (w.takes r index sub d).LevelFree o id e :=
  ⟨by simpa using h.hasRec, by simpa using h.factory⟩

@[simp] theorem World.debugRight_takes (method ch : Nat) (e : Bytes) : (w.takes r index sub d).debugRight method ch e = w.debugRight method ch e := by
  simp only [World.debugRight, World.debugKey, World.rootKey, World.factoryPassword, World.takes_live]

end

end Sys2Proof.Machine

namespace Sys2Proof.Machine

open Sys2Proof

/-! Debug unlocking (R390, R391, R393). -/

/-- Whether debug can be unlocked by a response: it is not disabled, its method is not retired, and nothing is held here. -/
structure World.DebugFree (o : Otp) (v : Vault) (w : World) (d : Bytes) : Prop where
  enabled : bitAt o.secBits 1 = false
  factory : leAt d 0 1 = 2 → bitAt o.secBits 2 = false
  held : v.held = []
  session : w.sec.session = false
  job : w.link.jobState = 0

/-- Where debug can be unlocked, what a response does turns on whether it is right. -/
theorem World.answerDebug_free {o : Otp} {v : Vault} {w : World} {id : Nat} {d : Bytes} (h : w.DebugFree o v d) : w.answerDebug o v id d =
    if (w.client id).dchal.any (fun ch => w.debugRight (leAt d 0 1) ch (slice d 1 32)) then
      let u := w.updClient id (fun c => { c with dchal := none, dwrong := 0, dlocked := 0 })
      (({ u with sec := { u.sec with unlocked := true } } : World).event 0x0030 srcClient id (leAt d 0 1) id, 0)
    else (w.updClient id (fun c => { c with
      dchal := none, dwrong := c.dwrong + 1, dlocked := if c.dwrong + 1 < 3 then c.dlocked else w.now + lockoutNs (c.dwrong + 1) }), 0x0703) := by
  have hretired : ¬(leAt d 0 1 = 2 ∧ bitAt o.secBits 2 = true) := by
    rintro ⟨h2, hbit⟩
    simp [h.factory h2] at hbit
  simp only [World.answerDebug, h.enabled, hretired, h.held, h.session, h.job, List.isEmpty_nil, Bool.not_true, Bool.or_self, ne_eq, not_true_eq_false,
    decide_false, Bool.false_eq_true, if_false]

/-- The engine whose vendor debug chain a client has unlocked (R391). -/
def World.unlockedBy (w : World) (id method : Nat) : World :=
  let u := w.updClient id (fun c => { c with dchal := none, dwrong := 0, dlocked := 0 })
  ({ u with sec := { u.sec with unlocked := true } } : World).event 0x0030 srcClient id method id

theorem World.answerDebug_right {o : Otp} {v : Vault} {w : World} {id ch : Nat} {d : Bytes} (h : w.DebugFree o v d) (hch : (w.client id).dchal = some ch)
    (hright : w.debugRight (leAt d 0 1) ch (slice d 1 32) = true) : w.answerDebug o v id d = (w.unlockedBy id (leAt d 0 1), 0) := by
  rw [World.answerDebug_free h, hch, Option.any_some, if_pos hright]
  rfl

theorem World.answerDebug_wrong {o : Otp} {v : Vault} {w : World} {id : Nat} {d : Bytes} (h : w.DebugFree o v d)
    (hwrong : ∀ ch, (w.client id).dchal = some ch → w.debugRight (leAt d 0 1) ch (slice d 1 32) = false) :
    w.answerDebug o v id d = (w.updClient id (fun c => { c with
      dchal := none, dwrong := c.dwrong + 1, dlocked := if c.dwrong + 1 < 3 then c.dlocked else w.now + lockoutNs (c.dwrong + 1) }), 0x0703) := by
  rw [World.answerDebug_free h, if_neg]
  cases hch : (w.client id).dchal with
  | none => simp
  | some ch => simp [hwrong ch hch]

/-- An event that is staged is the last one. -/
theorem World.event_last {α : Type} {w : World} (g : Entry → α) (code kind i a b : Nat) (h : w.log.staged.length < 64) :
    (w.event code kind i a b).log.staged.getLast?.map g =
      some (g { ns := w.now, seq := w.log.seq, code := code, kind := kind, inst := i, a1 := a, a2 := b }) := by
  simp [World.event_staged _ _ _ _ _ h]

/-- An unlocking spends the challenge, and is logged where the log has room. -/
theorem World.unlockedBy_spec (w : World) (id method : Nat) : (w.unlockedBy id method).sec.unlocked = true ∧
    (w.unlockedBy id method).client id = { w.client id with dchal := none, dwrong := 0, dlocked := 0 } ∧
    (w.log.staged.length < 64 → (w.unlockedBy id method).log.staged.getLast?.map (fun e => (e.code, e.kind, e.inst, e.a1)) = some (0x0030, 7, id, method)) := by
  refine ⟨by simp [World.unlockedBy], ?_, fun h => ?_⟩
  · rw [World.unlockedBy, World.event_client, ← World.client_updClient (w := w) (f := fun c => { c with dchal := none, dwrong := 0, dlocked := 0 }) (w.client_id id)]
    rfl
  · unfold World.unlockedBy
    refine World.event_last _ _ _ _ _ _ ?_
    exact h

/-- Where nothing is held here, the chain that is unlocked is locked again (R393). -/
theorem World.relock_unlocked {v : Vault} {w : World} {id : Nat} (hheld : v.held = []) (hsession : w.sec.session = false) (h : w.sec.unlocked = true) :
    World.relock v w id = (({ w with sec := { w.sec with unlocked := false } } : World).event 0x0031 srcClient id 0 id, 0) := by
  simp [World.relock, hheld, hsession, h]

theorem World.DebugFree.takes {o : Otp} {v : Vault} {w : World} {d : Bytes} (r : Req) (index sub : Nat) (e : Bytes) (h : w.DebugFree o v d) :
    (w.takes r index sub e).DebugFree o v d :=
  ⟨h.enabled, h.factory, h.held, by simpa using h.session, by simpa using h.job⟩

/-- What is held open of an answer's frames does not change with a client's record. -/
theorem World.updClient_room {w : World} {r : Req} {id : Nat} {f : Client → Client} (h : w.room r = true) : (w.updClient id f).room r = true :=
  World.room_of_txq rfl h

/-- Sending an answer leaves the security state but for the count of free durations. -/
theorem World.replies_sec (w : World) (r : Req) (kind status : Nat) (resp : Bytes) : ∃ u, (w.replies r kind status resp).sec = { w.sec with used := u } :=
  (w.replies_answered r kind status resp).sec

@[simp] theorem World.replies_unlocked (w : World) (r : Req) (kind status : Nat) (resp : Bytes) :
    (w.replies r kind status resp).sec.unlocked = w.sec.unlocked := by
  obtain ⟨u, h⟩ := w.replies_sec r kind status resp
  rw [h]

@[simp] theorem World.replies_drawn (w : World) (r : Req) (kind status : Nat) (resp : Bytes) :
    (w.replies r kind status resp).sec.drawn = w.sec.drawn := by
  obtain ⟨u, h⟩ := w.replies_sec r kind status resp
  rw [h]

@[simp] theorem World.replies_log (w : World) (r : Req) (kind status : Nat) (resp : Bytes) : (w.replies r kind status resp).log = w.log :=
  (w.replies_answered r kind status resp).log

@[simp] theorem World.replies_mem (w : World) (r : Req) (kind status : Nat) (resp : Bytes) : (w.replies r kind status resp).mem = w.mem :=
  (w.replies_answered r kind status resp).mem

/-- A request that is taken leaves room in the log where two events had room. -/
theorem World.takes_logs {w : World} {r : Req} (index sub : Nat) (d : Bytes) (h : w.log.staged.length < 63) :
    (w.takes r index sub d).log.staged.length < 64 := by
  have := w.takes_staged r index sub d
  omega

section
variable {s : State} {r : Req}

/-- A level's challenge (R310, R312, R375). -/
theorem State.levelChallenge_spec (hroom : s.w.room r = true) (h : s.w.carries r kRead = true) :
    let w := s.w
    let id := reqClient r
    let c := w.client id
    (c.locked = 0 → w.sec.entropyBad = false → ∃ w', Gives (.levelChallenge r) s w' ∧ (w'.client id).chal = some (Config.entropy w.sec.drawn % 2 ^ 128) ∧
      w'.sec.drawn = w.sec.drawn + 1 ∧ w'.replied r (reqResp w r kRead 0x1101 1 0 2 1 (leBytes 16 (Config.entropy w.sec.drawn % 2 ^ 128)))) ∧
    (c.locked ≠ 0 → ∃ w', Gives (.levelChallenge r) s w' ∧ w'.client id = c ∧ w'.replied r (reqResp w r kRead 0x1101 1 0x0704 0 0 [])) ∧
    (c.locked = 0 → w.sec.entropyBad = true → ∃ w', Gives (.levelChallenge r) s w' ∧ w'.client id = c ∧ w'.replied r (reqResp w r kRead 0x1101 1 0x070E 0 0 [])) := by
  intro w id c
  have hroom' : (w.takesRead r 0x1101 1).room r = true := World.hears_room hroom
  have hclient : (w.takesRead r 0x1101 1).client id = c := World.hears_client ..
  have hsec : (w.takesRead r 0x1101 1).sec = w.sec := World.hears_sec ..
  refine ⟨fun hfree hgood => ⟨_, State.levelChallenge_drawn h hfree hgood, ?_, ?_, World.replies_replied kRead 0 _ (World.updClient_room hroom')⟩,
    fun hlocked => ⟨_, State.levelChallenge_refused (d := []) h (by decide) ?_, ?_, World.replies_replied kRead _ _ hroom'⟩,
    fun hfree hbad => ⟨_, State.levelChallenge_refused (d := []) h (by decide) ?_, ?_, World.replies_replied kRead _ _ hroom'⟩⟩
  · simp [World.drawnFor_client, hsec, w, id]
  · simp [World.drawnFor_sec, hsec, w]
  · rw [World.challenge_cases, hclient, if_pos hlocked]
  · simp [hclient, w, id]
  · rw [World.challenge_cases, hclient, if_neg (by simp [hfree]), hsec, if_pos hbad]
  · simp [hclient, w, id]

/-- The response to a level's challenge (R310, R312). -/
theorem State.levelResponse_spec {d : Bytes} (hroom : s.w.room r = true) (h : s.w.admits r 0x1101 2 d = true) (hfree : s.w.LevelFree s.otp (reqClient r) d) :
    let w := s.w
    let id := reqClient r
    let c := w.client id
    let lvl := leAt d 0 1
    (∀ ch, c.chal = some ch → w.levelRight id d ch → w.keepsLevel id = true → ∃ w', Gives (.levelResponse r d) s w' ∧ (w'.client id).level = lvl ∧
      ((w'.client id).chal, (w'.client id).wrong, (w'.client id).locked) = (none, 0, 0) ∧ w'.replied r (reqResp w r kWrite 0x1101 2 0 0 0 [])) ∧
    ((∀ ch, c.chal = some ch → ¬w.levelRight id d ch) → ∃ w', Gives (.levelResponse r d) s w' ∧ (w'.client id).level = c.level ∧ (w'.client id).chal = none ∧
      (w'.client id).wrong = c.wrong + 1 ∧ (2 ≤ c.wrong → (w'.client id).locked = w.clock.ns + min 64 (2 ^ (c.wrong - 2)) * 1000000000) ∧
      w'.adp.wrong = sat32 w.adp.wrong 1 ∧ w'.replied r (reqResp w r kWrite 0x1101 2 0x0703 0 0 [])) := by
  intro w id c lvl
  have hput := State.levelResponse_put h
  have hroom' := World.takes_room 0x1101 2 d hroom
  refine ⟨fun ch hch hright hkeeps => ?_, fun hwrong => ?_⟩
  · rw [World.answerLevel_right (hfree.takes r 0x1101 2 d) (by simpa using hch) ((World.levelRight_takes ..).mpr hright) (by simpa using hkeeps)] at hput
    refine ⟨_, hput, ?_, ?_, World.replies_replied kWrite 0 _ (World.updClient_room hroom')⟩
    all_goals rw [World.replies_client, World.client_updClient (World.client_id _ _)]
  · rw [World.answerLevel_wrong (hfree.takes r 0x1101 2 d) (fun ch hch => mt (World.levelRight_takes ..).mp (hwrong ch (by simpa using hch)))] at hput
    have hclient : ((((w.takes r 0x1101 2 d).wrongLevel id).replies r kWrite 0x0703 (reqResp w r kWrite 0x1101 2 0x0703 0 0 [])).client id) =
        { c with chal := none, wrong := c.wrong + 1, locked := if c.wrong + 1 < 3 then c.locked else w.clock.ns + lockoutNs (c.wrong + 1) } := by
      rw [World.replies_client, World.wrongLevel_client, World.takes_client, World.takes_clock]
    have hlocked : 2 ≤ c.wrong → lockoutNs (c.wrong + 1) = min 64 (2 ^ (c.wrong - 2)) * 1000000000 := fun h2 => by
      rw [lockoutNs, if_neg (by omega), show c.wrong + 1 - 3 = c.wrong - 2 by omega]
    refine ⟨_, hput, ?_, ?_, ?_, fun h2 => ?_, ?_, World.replies_replied kWrite 0x0703 _ (World.updClient_room hroom')⟩
    · rw [hclient]
    · rw [hclient]
    · rw [hclient]
    · rw [hclient, ← hlocked h2]
      exact if_neg (by omega)
    · simp [World.wrongLevel, w]

/-- The response to a debug challenge (R391). -/
theorem State.debugResponse_spec {d : Bytes} (hlog : s.w.log.staged.length < 63) (h : s.w.admits r 0x1300 9 d = true) (hfree : s.w.DebugFree s.otp s.vault d) :
    let w := s.w
    let id := reqClient r
    let c := w.client id
    (∀ ch, c.dchal = some ch → w.debugRight (leAt d 0 1) ch (slice d 1 32) = true → ∃ w', Gives (.debugResponse r d) s w' ∧ w'.sec.unlocked = true ∧
      ((w'.client id).dchal, (w'.client id).dwrong) = (none, 0) ∧
      (w'.log.staged.getLast?).map (fun e => (e.code, e.kind, e.inst, e.a1)) = some (0x0030, 7, id, leAt d 0 1)) ∧
    ((∀ ch, c.dchal = some ch → w.debugRight (leAt d 0 1) ch (slice d 1 32) = false) → ∃ w', Gives (.debugResponse r d) s w' ∧
      w'.sec.unlocked = w.sec.unlocked ∧ ((w'.client id).dchal, (w'.client id).dwrong) = (none, c.dwrong + 1)) := by
  intro w id c
  have hput := State.debugResponse_put h
  refine ⟨fun ch hch hright => ?_, fun hwrong => ?_⟩
  · rw [World.answerDebug_right (hfree.takes r 0x1300 9 d) (by simpa using hch) (by simpa using hright)] at hput
    obtain ⟨hunlocked, hclient, hlast⟩ := World.unlockedBy_spec (w.takes r 0x1300 9 d) id (leAt d 0 1)
    refine ⟨_, hput, by simpa using hunlocked, by rw [World.replies_client, hclient], ?_⟩
    rw [World.replies_log]
    exact hlast (World.takes_logs 0x1300 9 d hlog)
  · rw [World.answerDebug_wrong (hfree.takes r 0x1300 9 d) (fun ch hch => by simpa using hwrong ch (by simpa using hch))] at hput
    refine ⟨_, hput, by simp [w], ?_⟩
    rw [World.replies_client, World.client_updClient (World.client_id _ _), World.takes_client]

end

/-- Settles O54, by what each command does to the record of its client. -/
theorem levelsAndDebug : Obligations.LevelsAndDebug := by
  refine ⟨fun s r hroom => ?_, fun s r hroom hlog => ?_⟩
  · intro w id c
    refine ⟨State.levelChallenge_spec hroom, fun d hadmits hrec hfactory => ?_, fun v hadmits => ?_, fun hidle => ?_, fun hidle => ?_, fun debug => ?_⟩
    · exact State.levelResponse_spec hroom hadmits ⟨hrec, hfactory⟩
    · refine ⟨_, State.closeLevel_put hadmits, ?_, ?_⟩
      · rw [World.replies_client, World.closeLevel, World.client_updClient (World.client_id _ _)]
      · simp [World.closeLevel, w]
    · exact ⟨_, gives_of_eq rfl (if_neg hidle), World.client_updClient (w.client_id id)⟩
    · exact gives_of_eq rfl (if_pos hidle)
    · refine ⟨⟨_, rfl, World.client_updClient ?_⟩, ⟨_, rfl, World.client_updClient ?_⟩⟩
      all_goals split <;> exact w.client_id id
  · intro w id c
    refine ⟨fun h hobj hfree hgood => ⟨_, State.debugChallenge_drawn h hobj hfree hgood, ?_, ?_⟩,
      fun d hadmits henabled hfactory hheld hsession hjob => ?_, fun v hadmits hheld hsession hunlocked => ?_⟩
    · simp [World.drawnFor_client, World.takesRead, w, id]
    · simp [World.drawnFor_sec, World.takesRead, w]
    · exact State.debugResponse_spec hlog hadmits ⟨henabled, hfactory, hheld, hsession, hjob⟩
    · have hput := State.relockDebug_put hadmits
      rw [World.relock_unlocked hheld (by simpa using hsession) (by simpa using hunlocked)] at hput
      refine ⟨_, hput, by simp, ?_⟩
      rw [World.replies_log]
      refine World.event_last _ _ _ _ _ _ ?_
      exact World.takes_logs 0x1300 11 (leBytes 1 v) hlog

end Sys2Proof.Machine

namespace Sys2Proof.Machine

open Sys2Proof

/-! The engine that has answered a write PENDING (R289). -/

section
variable (w : World) (r : Req) (index sub : Nat) (d : Bytes)

/-- Answering PENDING changes the carriers, the event log and the pending vectors alone. -/
theorem World.promised_eq : ∃ l n a x u o, w.promised r index sub d =
    { w with log := l, stn := n, adp := a, msix := { w.msix with pend := x }, sec := { w.sec with used := u }, out := o } := by
  obtain ⟨l, b, y, mc, a, hhears⟩ := w.hears_eq r (reqMsg w r kWrite index sub d)
  obtain ⟨a', n, x, u, o, hans⟩ :=
    (w.takes r index sub d).replies_answered r kWrite 0x0103 (reqResp w r kWrite index sub 0x0103 0 0 [])
  refine ⟨l, n, a', x, u, o, ?_⟩
  rw [World.promised, hans, World.takes, hhears]

@[simp] theorem World.promised_live : (w.promised r index sub d).live = w.live := by obtain ⟨_, _, _, _, _, _, h⟩ := w.promised_eq r index sub d; rw [h]
@[simp] theorem World.promised_power : (w.promised r index sub d).power = w.power := by obtain ⟨_, _, _, _, _, _, h⟩ := w.promised_eq r index sub d; rw [h]
@[simp] theorem World.promised_meter : (w.promised r index sub d).meter = w.meter := by obtain ⟨_, _, _, _, _, _, h⟩ := w.promised_eq r index sub d; rw [h]
@[simp] theorem World.promised_link : (w.promised r index sub d).link = w.link := by obtain ⟨_, _, _, _, _, _, h⟩ := w.promised_eq r index sub d; rw [h]
@[simp] theorem World.promised_host : (w.promised r index sub d).host = w.host := by obtain ⟨_, _, _, _, _, _, h⟩ := w.promised_eq r index sub d; rw [h]
@[simp] theorem World.promised_mem : (w.promised r index sub d).mem = w.mem := by obtain ⟨_, _, _, _, _, _, h⟩ := w.promised_eq r index sub d; rw [h]
@[simp] theorem World.promised_sched : (w.promised r index sub d).sched = w.sched := by obtain ⟨_, _, _, _, _, _, h⟩ := w.promised_eq r index sub d; rw [h]

/-- Of the security state only the count of free durations changes. -/
theorem World.promised_sec : ∃ u, (w.promised r index sub d).sec = { w.sec with used := u } := by
  obtain ⟨_, _, _, _, u, _, h⟩ := w.promised_eq r index sub d
  exact ⟨u, by rw [h]⟩

@[simp] theorem World.promised_staged : (w.promised r index sub d).sec.staged = w.sec.staged := by obtain ⟨_, h⟩ := w.promised_sec r index sub d; rw [h]
@[simp] theorem World.promised_otpJobs : (w.promised r index sub d).sec.otpJobs = w.sec.otpJobs := by obtain ⟨_, h⟩ := w.promised_sec r index sub d; rw [h]
@[simp] theorem World.promised_loading : (w.promised r index sub d).sec.loading = w.sec.loading := by obtain ⟨_, h⟩ := w.promised_sec r index sub d; rw [h]
@[simp] theorem World.promised_fw : (w.promised r index sub d).sec.fw = w.sec.fw := by obtain ⟨_, h⟩ := w.promised_sec r index sub d; rw [h]
@[simp] theorem World.promised_session : (w.promised r index sub d).sec.session = w.sec.session := by obtain ⟨_, h⟩ := w.promised_sec r index sub d; rw [h]
@[simp] theorem World.promised_req : (w.promised r index sub d).sec.req = w.sec.req := by obtain ⟨_, h⟩ := w.promised_sec r index sub d; rw [h]
@[simp] theorem World.promised_entries : (w.promised r index sub d).sec.entries = w.sec.entries := by obtain ⟨_, h⟩ := w.promised_sec r index sub d; rw [h]
@[simp] theorem World.promised_tenReqs : (w.promised r index sub d).sec.tenReqs = w.sec.tenReqs := by obtain ⟨_, h⟩ := w.promised_sec r index sub d; rw [h]
@[simp] theorem World.promised_unlocked : (w.promised r index sub d).sec.unlocked = w.sec.unlocked := by obtain ⟨_, h⟩ := w.promised_sec r index sub d; rw [h]

@[simp] theorem World.promised_otpConditions : (w.promised r index sub d).otpConditions = w.otpConditions := by simp [World.otpConditions]
@[simp] theorem World.promised_load (a n : Nat) : (w.promised r index sub d).load a n = w.load a n := by simp [World.load]
@[simp] theorem World.promised_tenantBusy (id : Nat) : (w.promised r index sub d).tenantBusy id = w.tenantBusy id := by simp [World.tenantBusy]
@[simp] theorem World.promised_manifestKey : (w.promised r index sub d).manifestKey = w.manifestKey := by
  simp [World.manifestKey, World.rootKey, World.debugByte]
@[simp] theorem World.promised_exportKey : (w.promised r index sub d).exportKey = w.exportKey := by
  simp [World.exportKey, World.rootKey, World.debugByte]
@[simp] theorem World.promised_basis (counter a : Nat) : (w.promised r index sub d).basis counter a = w.basis counter a := by simp [World.basis]
@[simp] theorem World.promised_blob (id : Nat) (t : Tenant) (session : Nat) : (w.promised r index sub d).blob id t session = w.blob id t session := by
  simp [World.blob]
@[simp] theorem World.promised_openBlob (e : ManEntry) (a : Nat) : (w.promised r index sub d).openBlob e a = w.openBlob e a := by simp [World.openBlob]
@[simp] theorem World.promised_anySealed (a n : Nat) : (w.promised r index sub d).anySealed a n = w.anySealed a n := by simp [World.anySealed]
@[simp] theorem World.promised_areasOk (t : Tenant) : (w.promised r index sub d).areasOk t = w.areasOk t := by simp [World.areasOk]

end

/-! Fields of the values that are written. -/

/-- A field behind a run of bytes. -/
theorem slice_append_right (a b : Bytes) (off n : Nat) : slice (a ++ b) (a.length + off) n = slice b off n := by
  simp [slice, List.drop_append, List.drop_of_length_le (Nat.le_add_right a.length off)]

/-- The first field of a value, of `n` bytes. -/
theorem leAt_leBytes_append {n v : Nat} (b : Bytes) (h : v < 2 ^ (8 * n)) : leAt (leBytes n v ++ b) 0 n = v := by
  have hlen : (leBytes n v).length = n := Laws.Blob.leBytes_length n v
  rw [leAt, Laws.Blob.slice_left _ _ _ _ (by omega), slice_all hlen, leVal_leBytes, Nat.mod_eq_of_lt h]

/-- A field that follows a run of bytes. -/
theorem leAt_append_leBytes {a : Bytes} {off n v : Nat} (b : Bytes) (ha : a.length = off) (h : v < 2 ^ (8 * n)) :
    leAt (a ++ (leBytes n v ++ b)) off n = v := by
  have := slice_append_right a (leBytes n v ++ b) 0 n
  rw [Nat.add_zero, ha] at this
  rw [leAt, this]
  exact leAt_leBytes_append b h

/-! Requests to program OTP (R368, R371, R374, R394). -/

/-- Where VIN and the temperatures allow it, a request to program OTP is queued (R368). -/
theorem State.program_queued {s : State} {r : Req} {index sub : Nat} {d : Bytes} {c : Instr} (j : OtpJob) (hc : s.w.otpConditions = true)
    (h : exec c s = .next (State.program { s with w := s.w.promised r index sub d } (pendOf_ r index sub) j)) :
    ∃ w', Gives c s w' ∧ w'.sec.otpJobs = s.w.sec.otpJobs ++ [(j, some (pendOf_ r index sub))] ∧ w'.mem = s.w.mem ∧ w'.sched = s.w.sched := by
  rw [State.program, if_pos (by simpa using hc)] at h
  exact ⟨_, h, by simp, by simp, by simp⟩

/-- An image is copied where none is being loaded, and firmware does not run or the engine is idle (R373). -/
theorem World.loadFirmware_starts {w : World} (p : Pend) (addr len : Nat) (hnone : w.sec.loading = none)
    (hidle : w.sec.fw = 0 ∨ (w.power.st = .idle ∧ w.sched.tasks = [] ∧ w.link.jobState = 0)) :
    w.loadFirmware p addr len = { w with sec := { w.sec with loading := some (w.load addr len, p), fwPrev := w.sec.fw, fw := 0 } } := by
  have hmay : ¬(w.sec.fw ≠ 0 ∧ (!(w.power.st == .idle && w.sched.tasks.isEmpty && w.link.jobState == 0)) = true) := by
    rcases hidle with hfw | ⟨hst, htasks, hjob⟩
    · simp [hfw]
    · simp [hst, htasks, hjob]
  simp only [World.loadFirmware, hnone, Option.isSome_none, Bool.false_eq_true, if_false, if_neg hmay]

section
variable {s : State} {r : Req}

/-- A staged record is programmed into the lowest blank generation (R371). -/
theorem State.programStagedRecord_queued {b : Bytes} {g : Nat} (hc : s.w.otpConditions = true) (h : s.w.admits r 0x1200 5 (leBytes 1 1) = true)
    (hstaged : s.w.sec.staged = some b) (hgen : s.nextGen = some g) :
    ∃ w', Gives (.programStagedRecord r) s w' ∧ w'.sec.otpJobs = s.w.sec.otpJobs ++ [(.record g (recordOf b) 0, some (pendOf_ r 0x1200 5))] ∧
      w'.mem = s.w.mem ∧ w'.sched = s.w.sched := by
  refine State.program_queued (d := leBytes 1 1) _ hc (congrArg Host.Outcome.next ?_)
  rw [State.put_pending (o := wo 1 true 5 1) rfl (by decide) (by decide) (by decide) rfl h]
  have hgen' : State.nextGen { s with w := s.w.promised r 0x1200 5 (leBytes 1 1) } = some g := by simpa [State.nextGen] using hgen
  change State.programRecord _ _ = _
  simp only [State.programRecord, World.promised_staged, hstaged, hgen']
  rfl

theorem State.retireFactoryLevel_queued (hc : s.w.otpConditions = true) (h : s.w.admits r 0x1200 9 (leBytes 1 1) = true) :
    ∃ w', Gives (.retireFactoryLevel r) s w' ∧ w'.sec.otpJobs = s.w.sec.otpJobs ++ [(.security 4, some (pendOf_ r 0x1200 9))] ∧
      w'.mem = s.w.mem ∧ w'.sched = s.w.sched :=
  State.program_queued _ hc (congrArg Host.Outcome.next (State.put_pending (o := wo 1 true 9 1) rfl (by decide) (by decide) (by decide) rfl h))

theorem State.disableDebug_queued (hc : s.w.otpConditions = true) (h : s.w.admits r 0x1300 12 (leBytes 1 1) = true) :
    ∃ w', Gives (.disableDebug r) s w' ∧ w'.sec.otpJobs = s.w.sec.otpJobs ++ [(.security 2, some (pendOf_ r 0x1300 12))] ∧
      w'.mem = s.w.mem ∧ w'.sched = s.w.sched :=
  State.program_queued _ hc (congrArg Host.Outcome.next (State.put_pending (o := wo 1 true 12 1) rfl (by decide) (by decide) (by decide) rfl h))

/-- A key hash is programmed into a slot that holds none (R374). -/
theorem State.programKeySlot_queued {slot : Nat} {hash : Bytes} (hc : s.w.otpConditions = true)
    (h : s.w.admits r 0x1300 4 (leBytes 1 slot ++ zeros 3 ++ hash) = true) (hslot : slot < 4) (hfree : s.slotUsed slot = false) :
    ∃ w', Gives (.programKeySlot r slot hash) s w' ∧ w'.sec.otpJobs = s.w.sec.otpJobs ++ [(.hash slot (slice hash 0 32) 0, some (pendOf_ r 0x1300 4))] ∧
      w'.mem = s.w.mem ∧ w'.sched = s.w.sched := by
  generalize hd : leBytes 1 slot ++ zeros 3 ++ hash = d at h
  have hat : leAt d 0 1 = slot := by
    rw [← hd, List.append_assoc]
    exact leAt_leBytes_append _ (by omega)
  have hhash : slice (slice d 4 32) 0 32 = slice hash 0 32 := by
    rw [slice_all (Laws.Blob.slice_length _ _ _), ← hd]
    exact slice_append_right (leBytes 1 slot ++ zeros 3) hash 0 32
  refine State.program_queued (d := d) _ hc (congrArg Host.Outcome.next ?_)
  rw [hd, State.put_pending (o := wo 1 true 4 36) rfl (by decide) (by decide) (by decide) rfl h]
  change State.programSlot _ _ (leAt d 0 1) (slice d 4 32) = _
  have hfree' : State.slotUsed { s with w := s.w.promised r 0x1300 4 d } slot = false := by simpa [State.slotUsed] using hfree
  rw [hat, State.programSlot, hfree', hhash]
  rfl

/-- A slot beside which another is usable is revoked (R374). -/
theorem State.revokeKeySlot_queued {slot other : Nat} (hc : s.w.otpConditions = true) (h : s.w.admits r 0x1300 5 (leBytes 1 slot) = true)
    (hslot : slot < 4) (hother : other < 4) (hne : other ≠ slot) (husable : usableSlot s.marksDue other = true) :
    ∃ w', Gives (.revokeKeySlot r slot) s w' ∧ w'.sec.otpJobs = s.w.sec.otpJobs ++ [(.mark (2 ^ (slot + 4)), some (pendOf_ r 0x1300 5))] ∧
      w'.mem = s.w.mem ∧ w'.sched = s.w.sched := by
  have hat : leAt (leBytes 1 slot) 0 1 = slot := by
    simpa using leAt_leBytes_append (n := 1) [] (show slot < 2 ^ (8 * 1) by omega)
  refine State.program_queued (d := leBytes 1 slot) _ hc (congrArg Host.Outcome.next ?_)
  rw [State.put_pending (o := wo 1 true 5 1) rfl (by decide) (by decide) (by decide) rfl h]
  change State.revokeSlot _ _ (leAt (leBytes 1 slot) 0 1) = _
  have hmarks : State.marksDue { s with w := s.w.promised r 0x1300 5 (leBytes 1 slot) } = s.marksDue := by simp [State.marksDue]
  rw [hat, State.revokeSlot, if_pos]
  · rfl
  · exact List.any_eq_true.mpr ⟨other, List.mem_range.mpr hother, by simp [hne, hmarks, husable]⟩

/-- A firmware load copies the image, and no version is shown until it has verified (R14, R373). -/
theorem State.firmwareLoad_loading {addr len : Nat} (haddr : addr < 2 ^ 64) (hlen : len < 2 ^ 32)
    (h : s.w.admits r 0x1300 1 (leBytes 8 addr ++ leBytes 4 len ++ zeros 4) = true) (hnone : s.w.sec.loading = none)
    (hidle : s.w.sec.fw = 0 ∨ (s.w.power.st = .idle ∧ s.w.sched.tasks = [] ∧ s.w.link.jobState = 0)) :
    ∃ w', Gives (.firmwareLoad r addr len) s w' ∧ w'.sec.loading = some (s.w.load addr len, pendOf_ r 0x1300 1) ∧
      (w'.sec.fw, w'.sec.fwPrev) = (0, s.w.sec.fw) := by
  generalize hd : leBytes 8 addr ++ leBytes 4 len ++ zeros 4 = d at h
  have hat : leAt d 0 8 = addr := by
    rw [← hd, List.append_assoc]
    exact leAt_leBytes_append _ haddr
  have hat' : leAt d 8 4 = len := by
    rw [← hd, List.append_assoc]
    exact leAt_append_leBytes (n := 4) _ (Laws.Blob.leBytes_length 8 addr) hlen
  have hput : s.put r 0x1300 1 d = { s with w := (s.w.promised r 0x1300 1 d).loadFirmware (pendOf_ r 0x1300 1) (leAt d 0 8) (leAt d 8 4) } :=
    State.put_pending (o := wo 0 true 1 16) rfl (by decide) (by decide) (by decide) rfl h
  rw [hat, hat', World.loadFirmware_starts _ _ _ (by simpa using hnone) (by simpa using hidle)] at hput
  exact ⟨_, congrArg Host.Outcome.next ((congrArg (fun d => s.put r 0x1300 1 d) hd).trans hput), by simp, by simp⟩

end

end Sys2Proof.Machine

namespace Sys2Proof.Machine

open Sys2Proof

/-! Sessions (R385, R387). -/

/-- The engine that starts to advance the session counter for a session request (R368). -/
def World.advances (w : World) (counter : Nat) (q : SessReq) (p : Pend) : World :=
  { w with sec := { w.sec with req := some (q, p), otpJobs := w.sec.otpJobs ++ [(.session counter, some p)] } }

/-- A session may begin or end: the counter is not spent, and VIN and the temperatures allow programming (R368). -/
structure State.SessionFree (s : State) : Prop where
  req : s.w.sec.req = none
  counter : s.otp.session < 12288
  conditions : s.w.otpConditions = true

/-- A session opens with the tenants of its basis, armed by its arming bits (R385). -/
theorem State.openSession_begins {s : State} {p : Pend} {d : Bytes} {es : List ManEntry} (h : s.SessionFree) (hclosed : s.w.sec.session = false)
    (hnone : leAt d 8 8 = 0 → es = []) (hbasis : leAt d 8 8 ≠ 0 → s.w.basis s.otp.session (leAt d 8 8) = some es) (hroom : 64 + 48 * es.length ≤ leAt d 4 4) :
    s.openSession p d = { s with w := s.w.advances s.otp.session {
      op := 1
      outLen := leAt d 4 4
      out := leAt d 24 8
      entries := es.map (fun (e : ManEntry) => { e with armed := bitAt (leAt (s.w.load (leAt d 16 8) 512) (e.id / 8) 1) (e.id % 8) }) } p } := by
  have hes : (if leAt d 8 8 = 0 then some [] else s.w.basis s.otp.session (leAt d 8 8)) = some es := by
    split
    next h0 => rw [hnone h0]
    next h0 => exact hbasis h0
  obtain ⟨hreq, hcounter, hconditions⟩ := h
  simp only [State.openSession, hclosed, hreq, Option.isSome_none, Bool.or_self, Bool.false_eq_true, if_false, hes, List.length_map,
    Nat.not_lt.mpr hroom, sessionBits, Nat.not_le.mpr hcounter, hconditions, Bool.not_true]
  rfl

/-- A session that holds no tenant closes with the entries that it had (R387). -/
theorem State.closeSession_bare {s : State} {p : Pend} {d : Bytes} (h : s.SessionFree) (hopen : s.w.sec.session = true) (hheld : s.vault.held = [])
    (hroom : 64 + 48 * s.w.sec.entries.length ≤ leAt d 4 4) :
    s.closeSession p d = { s with w := s.w.advances s.otp.session {
      op := 2
      outLen := 64 + 48 * s.w.sec.entries.length
      out := leAt d 24 8
      entries := s.w.sec.entries.map (fun (e : ManEntry) => { e with armed := false, done := false }) } p } := by
  obtain ⟨hreq, hcounter, hconditions⟩ := h
  simp only [State.closeSession, hopen, hreq, hheld, List.filter_nil, blobPlaces, blobsEnd, List.foldl_nil, List.getLast?_nil, Option.elim_none,
    List.length_nil, Nat.zero_add, Nat.not_lt.mpr hroom, sessionBits, Nat.not_le.mpr hcounter, hconditions, Option.isSome_none, Bool.not_true, Bool.or_self,
    List.any_nil, Bool.not_false, List.filter_true, Bool.false_eq_true, if_false, List.map_nil]
  simp only [State.advance, State.onW, World.advances, hopen]

/-- The places of the one armed tenant of a session: its blob stands behind a manifest of one entry (Table 15.9). -/
theorem blobPlaces_one (id : Nat) (t : Tenant) : (blobPlaces [(id, t)] 1).1 = [(id, t, 128)] := rfl

/-- A session that holds one armed tenant writes its blob first (R387). -/
theorem State.closeSession_one {s : State} {p : Pend} {d : Bytes} {id : Nat} {t : Tenant} (h : s.SessionFree) (hopen : s.w.sec.session = true)
    (hheld : s.vault.held = [(id, t)]) (harmed : t.st = 2) (hbusy : s.w.tenantBusy id = false) (hentries : s.w.sec.entries = [])
    (hroom : 128 + t.blobLen ≤ leAt d 4 4) :
    ∃ q, s.closeSession p d = { s with w := (s.w.store (leAt d 24 8 + 128) (s.w.blob id t (s.otp.session + 1))).advances s.otp.session q p } := by
  obtain ⟨hreq, hcounter, hconditions⟩ := h
  have hany : [(id, t)].any (fun e => s.w.tenantBusy e.1) = false := by simp [hbusy]
  have hfilter : [(id, t)].filter (fun e => e.2.st == 2) = [(id, t)] := by simp [harmed]
  have hend : blobsEnd [(id, t, 128)] 1 = 128 + t.blobLen := rfl
  simp only [State.closeSession, hopen, hreq, hheld, hany, hfilter, hentries, List.filter_nil, List.length_singleton, List.length_nil, Nat.add_zero,
    blobPlaces_one, hend, Nat.not_lt.mpr hroom, sessionBits, Nat.not_le.mpr hcounter, hconditions, Option.isSome_none, Bool.not_true, Bool.or_self,
    Bool.false_eq_true, if_false]
  exact ⟨_, rfl⟩

/-- A session request that is answered PENDING begins or ends a session then, by its operation (R385, R387). -/
theorem State.session_put {s : State} {r : Req} {d : Bytes} {op : Nat} (h : s.w.admits r 0x3700 4 d = true) (hop : leAt d 0 1 = op) :
    s.putOp r 0x3700 4 op d =
      if leAt d 0 1 = 1 then State.openSession { s with w := s.w.promised r 0x3700 4 d } (pendOf_ r 0x3700 4) d
      else State.closeSession { s with w := s.w.promised r 0x3700 4 d } (pendOf_ r 0x3700 4) d := by
  rw [State.putOp, if_pos hop, State.put_pending (o := wo 1 true 4 32) rfl (by decide) (by decide) (by decide) rfl h]
  rfl

theorem State.SessionFree.promised {s : State} (h : s.SessionFree) (r : Req) (index sub : Nat) (d : Bytes) :
    State.SessionFree { s with w := s.w.promised r index sub d } :=
  ⟨by simpa using h.req, h.counter, by simpa using h.conditions⟩

/-- Settles O56: each granted write is answered PENDING, and what it owes is the request that its object gives. -/
theorem programmingAndSessionRequests : Obligations.ProgrammingAndSessionRequests := by
  refine ⟨fun s r => ?_, fun s r d h hreq hcounter hconditions => ?_⟩
  · intro w queues
    refine ⟨fun hc => ⟨?_, ?_, ?_, ?_, ?_⟩, ?_⟩
    · exact fun b g h hstaged hgen => State.programStagedRecord_queued hc h hstaged hgen
    · exact fun h => State.retireFactoryLevel_queued hc h
    · exact fun slot hash h hslot hfree => State.programKeySlot_queued hc h hslot hfree
    · exact fun slot other h hslot hother hne husable => State.revokeKeySlot_queued hc h hslot hother hne husable
    · exact fun h => State.disableDebug_queued hc h
    · exact fun addr len haddr hlen h hnone hidle => State.firmwareLoad_loading haddr hlen h hnone hidle
  · intro w p out room a advances
    have hfree := State.SessionFree.promised ⟨hreq, hcounter, hconditions⟩ r 0x3700 4 d
    refine ⟨fun es hop hclosed hnone hbasis hroom => ?_, fun hop hopen hheld hroom => ?_, fun id t hop hopen hheld harmed hbusy hentries hroom => ?_⟩
    · have hput := (State.session_put h hop).trans ((if_pos hop).trans
        (State.openSession_begins hfree (by simpa using hclosed) hnone (by simpa using hbasis) hroom))
      refine ⟨_, congrArg Host.Outcome.next hput, ?_, ?_, ?_⟩ <;> simp [World.advances, advances, w, p, out, room]
    · have hne : leAt d 0 1 ≠ 1 := by omega
      have hput := (State.session_put h hop).trans ((if_neg hne).trans
        (State.closeSession_bare hfree (by simpa using hopen) hheld (by simpa using hroom)))
      refine ⟨_, congrArg Host.Outcome.next hput, ?_, ?_, ?_⟩
      · simp [World.advances, advances, w, p]
      · simp [SameMemory, World.advances, w]
      · simp [World.advances, w, p, out]
    · have hne : leAt d 0 1 ≠ 1 := by omega
      obtain ⟨q, hclose⟩ := State.closeSession_one (d := d) (p := p) hfree (by simpa using hopen) hheld harmed (by simpa using hbusy) (by simpa using hentries) hroom
      refine ⟨_, congrArg Host.Outcome.next ((State.session_put h hop).trans ((if_neg hne).trans hclose)), ?_, ?_⟩
      · simp [World.advances, advances, w, p]
      · have hwrote := (w.promised r 0x3700 4 d).store_wrote (out + 128) (w.blob id t (s.otp.session + 1))
        simpa [Wrote, World.advances, w, out] using hwrote

end Sys2Proof.Machine

namespace Sys2Proof.Machine

open Sys2Proof

/-! Memory and seals of tenants (R378, R382, R384). -/

/-- A table that keeps its entries by their keys reads as before where a key is kept. -/
theorem Tab.get_keep {α : Type} (d : α) (t : Tab α) (p : Nat → Bool) (j : Nat) :
    Tab.get d (t.keep (fun k _ => p k)) j = if p j then Tab.get d t j else d := by
  induction t with
  | nil => simp [Tab.keep, Tab.get]
  | cons e t ih =>
    obtain ⟨k, a⟩ := e
    simp only [Tab.keep] at ih
    by_cases hk : p k = true
    · simp only [Tab.keep, List.filter_cons, hk, if_true, Tab.get, ih]
      by_cases hj : j = k
      · simp [hj, hk]
      · simp [hj]
    · simp only [Tab.keep, List.filter_cons, hk, Tab.get]
      by_cases hj : j = k
      · simpa [hj, hk] using ih
      · simpa [hj] using ih

/-- What a fold reads whose every step gives `v` where it hits, and the value before elsewhere. -/
theorem foldl_resets {σ α β : Type} (get : σ → α) {f : σ → β → σ} {hit : β → Bool} {v : α} (h : ∀ s b, get (f s b) = if hit b then v else get s)
    (l : List β) (s : σ) : get (l.foldl f s) = if l.any hit then v else get s := by
  induction l generalizing s with
  | nil => rfl
  | cons b l ih =>
    rw [List.foldl_cons, ih, h, List.any_cons]
    by_cases hl : l.any hit = true <;> simp [hl]

/-- Whether a byte lies in a range. -/
def inRange (x : Nat) (a : Nat × Nat) : Bool := decide (a.1 ≤ x) && decide (x < a.1 + a.2)

/-- A range that is zeroed reads 0. -/
theorem Mem.zero_get (m : Mem) (a : Nat × Nat) (x : Nat) : (m.zero a.1 a.2).mem.get 0 x = if inRange x a then 0 else m.mem.get 0 x := by
  refine (Tab.get_keep 0 m.mem (fun k => decide (k < a.1) || decide (a.1 + a.2 ≤ k)) x).trans ?_
  by_cases h : a.1 ≤ x ∧ x < a.1 + a.2
  · simp [inRange, h, show ¬ x < a.1 by omega, show ¬ a.1 + a.2 ≤ x by omega]
  · rw [if_neg (c := inRange x a = true) (by simpa [inRange] using h), if_pos (by simp; omega)]

/-- A range that is sealed names its owner in each of its granules. -/
theorem Mem.seal_get (m : Mem) (e a n g : Nat) :
    (m.seal e a n).seals.get 0 g = if decide (g ∈ granulesOf a n) then e else m.seals.get 0 g := by
  have hset : ∀ (t : Tab Nat) (k : Nat), Tab.get 0 (Tab.set 0 t k e) g = if (g == k) then e else Tab.get 0 t g := by
    intro t k
    rw [Tab.get_set]
    simp
  refine (foldl_resets (fun t : Tab Nat => Tab.get 0 t g) hset (granulesOf a n) m.seals).trans ?_
  simp

/-- The granules of some areas. -/
def granulesIn (as_ : List (Nat × Nat)) : List Nat := as_.flatMap (fun a => granulesOf a.1 a.2)

theorem any_granules (as_ : List (Nat × Nat)) (g : Nat) : as_.any (fun a => decide (g ∈ granulesOf a.1 a.2)) = decide (g ∈ granulesIn as_) := by
  rw [Bool.eq_iff_iff, List.any_eq_true, decide_eq_true_eq]
  simp only [decide_eq_true_eq, granulesIn, List.mem_flatMap]

/-- The areas of a tenant that are zeroed as it is sealed: all but generation 0 (R382). -/
def Tenant.fresh (t : Tenant) : List (Nat × Nat) := (t.genBase 1, alignUp t.genLen 4096) :: t.areas.drop 1

section
variable (w : World) (id : Nat) (t : Tenant)

/-- Areas are zeroed one by one. -/
def World.zeroed (as_ : List (Nat × Nat)) : World := as_.foldl (fun w a => { w with mem := w.mem.zero a.1 a.2 }) w

theorem World.sealAreas_eq : w.sealAreas id t =
    t.areas.foldl (fun w a => { w with mem := w.mem.seal (id + 1) a.1 a.2 }) (w.zeroed t.fresh) := by
  simp only [World.sealAreas, World.zeroed, Tenant.fresh, Tenant.genBase, Nat.one_mul]

/-- The bytes of a tenant that is sealed are zeroed but for generation 0 (R382). -/
theorem World.sealAreas_mem (x : Nat) : (w.sealAreas id t).mem.mem.get 0 x = if t.fresh.any (inRange x) then 0 else w.mem.mem.get 0 x := by
  rw [World.sealAreas_eq]
  exact (foldl_keeps (fun w : World => w.mem.mem.get 0 x) (f := fun w (a : Nat × Nat) => { w with mem := w.mem.seal (id + 1) a.1 a.2 }) (fun _ _ => rfl) _ _).trans
    (foldl_resets (fun w : World => w.mem.mem.get 0 x) (fun w a => Mem.zero_get w.mem a x) _ _)

/-- The granules of a tenant that is sealed name it (R378). -/
theorem World.sealAreas_seals (g : Nat) :
    (w.sealAreas id t).mem.seals.get 0 g = if g ∈ granulesIn t.areas then id + 1 else w.mem.seals.get 0 g := by
  have hzero : (w.zeroed t.fresh).mem.seals.get 0 g = w.mem.seals.get 0 g :=
    foldl_keeps (fun w : World => w.mem.seals.get 0 g) (f := fun w (a : Nat × Nat) => { w with mem := w.mem.zero a.1 a.2 }) (fun _ _ => rfl) _ _
  rw [World.sealAreas_eq, ← hzero]
  refine (foldl_resets (fun w : World => w.mem.seals.get 0 g) (fun w a => Mem.seal_get w.mem (id + 1) a.1 a.2 g) _ _).trans ?_
  rw [any_granules]
  simp

/-- The bytes of a tenant that is retired are zeroed (R384). -/
theorem World.unsealAreas_mem (x : Nat) : (w.unsealAreas t).mem.mem.get 0 x = if t.areas.any (inRange x) then 0 else w.mem.mem.get 0 x :=
  foldl_resets (fun w : World => w.mem.mem.get 0 x) (fun w a => Mem.zero_get w.mem a x) _ _

/-- The granules of a tenant that is retired are no one's (R384). -/
theorem World.unsealAreas_seals (g : Nat) :
    (w.unsealAreas t).mem.seals.get 0 g = if g ∈ granulesIn t.areas then 0 else w.mem.seals.get 0 g := by
  refine (foldl_resets (fun w : World => w.mem.seals.get 0 g) (fun w a => Mem.seal_get (w.mem.zero a.1 a.2) 0 a.1 a.2 g) _ _).trans ?_
  rw [any_granules]
  simp

end

/-! The seal map is left alone by the slices. -/

theorem Mem.seals_foldl {β : Type} {f : Mem → β → Mem} (hf : ∀ m b, (f m b).seals = m.seals) (l : List β) (m : Mem) :
    (l.foldl f m).seals = m.seals := foldl_keeps Mem.seals hf l m

@[simp] theorem Mem.countEnc_seals (m : Mem) (b : Bool) : (m.countEnc b).seals = m.seals := by cases b <;> rfl

@[simp] theorem Mem.evict_seals (m : Mem) (l : Line) : (m.evict l).seals = m.seals := by
  unfold Mem.evict
  split
  · rfl
  · exact Mem.seals_foldl (f := fun m i => m.writeBack (4 * l.addr + i)) (fun _ _ => rfl) _ _

@[simp] theorem Mem.place_seals (m : Mem) (l : Line) : (m.place l).seals = m.seals := by
  simp only [Mem.place]
  split
  · rfl
  · exact Mem.seals_foldl Mem.evict_seals _ _

@[simp] theorem Mem.resettle_seals (m : Mem) (key : Nat) (c : CSet) (i : Nat) (l : Line) (rest : List Line) :
    (m.resettle key c i l rest).seals = m.seals := by
  unfold Mem.resettle
  split
  · exact Mem.seals_foldl Mem.place_seals _ _
  · split <;> rfl

@[simp] theorem Mem.recode_seals (m : Mem) (la : Nat) (remote : Bool) : (m.recode la remote).seals = m.seals := by
  unfold Mem.recode
  dsimp only
  split
  · exact (Mem.resettle_seals _ _ _ _ _ _).trans (Mem.countEnc_seals _ _)
  · rfl

@[simp] theorem Mem.touch_seals (m : Mem) (la v d : Nat) : (m.touch la v d).seals = m.seals := by
  simp only [Mem.touch, Mem.recode_seals]
  split
  · rfl
  · exact Mem.place_seals _ _

/-- A store leaves the seal map. -/
@[simp] theorem Mem.store_seals (m : Mem) (a : Nat) (bs : Bytes) : (m.store a bs).seals = m.seals :=
  (Mem.seals_foldl (f := fun m la => m.touch la (touchMask la a bs.length) (touchMask la a bs.length)) (fun m la => Mem.touch_seals m la _ _) _ _).trans rfl

end Sys2Proof.Machine

namespace Sys2Proof.Machine

open Sys2Proof

/-! Requests on tenants (R382, R384, R386). -/

/-- The tenant command's final status is noted (R289). -/
def World.tenantNoted (w : World) (status : Nat) (p : Pend) : World :=
  { w with sec := { w.sec with tenReqs := w.sec.tenReqs ++ [(status, p)] } }

@[simp] theorem Vault.put_tenant (v : Vault) (id : Nat) (t : Tenant) : (v.put id t).tenant id = t := by
  simp [Vault.tenant, Vault.put, Tab.get_set]

theorem Vault.put_tenant_ne (v : Vault) {id n : Nat} (t : Tenant) (h : n ≠ id) : (v.put id t).tenant n = v.tenant n := by
  simp [Vault.tenant, Vault.put, Tab.get_set, h]

/-- In a session a record makes an absent tenant (R382). -/
theorem State.createTenant_made {s : State} {p : Pend} {d : Bytes} (hsession : s.w.sec.session = true) (habsent : (s.vault.tenant (leAt d 0 2)).st = 0) :
    s.createTenant p d = { s with
      vault := s.vault.put (leAt d 0 2) (tenantOfRecord d)
      w := (s.w.sealAreas (leAt d 0 2) (tenantOfRecord d)).tenantNoted 0 p } := by
  simp only [State.createTenant, hsession, habsent, Bool.not_true, Bool.false_eq_true, if_false, ne_eq, not_true_eq_false]
  rfl

/-- The engine that has imported a tenant's generation 0 and marked its entry done (R386). -/
def World.imported (w : World) (id : Nat) (t : Tenant) (gen : Bytes) : World :=
  let v := (w.sealAreas id t).store (t.genBase 0) gen
  { v with sec := { v.sec with entries := v.sec.entries.map (fun (x : ManEntry) => if x.id = id then { x with done := true } else x) } }

/-- In a session the blob of a listed tenant makes it (R386). -/
theorem State.importTenant_made {s : State} {p : Pend} {d pt : Bytes} {e : ManEntry} (hsession : s.w.sec.session = true)
    (hentry : s.w.sec.entries.find? (fun e => e.id == leAt d 2 2) = some e) (hfresh : e.done = false) (habsent : (s.vault.tenant (leAt d 2 2)).st = 0)
    (hblob : s.w.openBlob e (leAt d 8 8) = some pt)
    (hlen : pt.length = 96 + (tenantOfBlob pt e.armed (fun i => leAt d (16 + 8 * i) 8)).genLen)
    (hareas : s.w.areasOk (tenantOfBlob pt e.armed (fun i => leAt d (16 + 8 * i) 8)) = true) :
    let t := tenantOfBlob pt e.armed (fun i => leAt d (16 + 8 * i) 8)
    s.importTenant p d = { s with
      vault := s.vault.put (leAt d 2 2) t
      w := (s.w.imported (leAt d 2 2) t (slice pt 96 t.genLen)).tenantNoted 0 p } := by
  intro t
  simp only [State.importTenant, hsession, hentry, hfresh, habsent, hblob, ne_eq, not_true_eq_false, decide_false, Bool.or_self, Bool.not_true,
    Bool.false_eq_true, if_false]
  rw [if_neg (by simpa using hlen), if_neg (by simpa using hareas)]
  rfl

/-- A tenant that no task and no context names is retired (R384). -/
theorem State.retireTenant_retired {s : State} {p : Pend} {d : Bytes} (hthere : (s.vault.tenant (leAt d 2 2)).st ≠ 0) (hfree : s.w.tenantBusy (leAt d 2 2) = false) :
    let u := s.w.unsealAreas (s.vault.tenant (leAt d 2 2))
    s.retireTenant p d = { s with
      vault := s.vault.put (leAt d 2 2) {}
      w := ({ u with sec := { u.sec with entries := u.sec.entries.filter (fun e => decide (e.id ≠ leAt d 2 2)) } } : World).tenantNoted 0 p } := by
  simp only [State.retireTenant, hthere, hfree, Bool.false_eq_true, if_false]
  rfl

/-- A creation record that is answered PENDING makes its tenant then. -/
theorem State.createTenant_put {s : State} {r : Req} {d : Bytes} (h : s.w.admits r 0x3702 1 d = true) : exec (.createTenant r d) s =
    .next (State.createTenant { s with w := s.w.promised r 0x3702 1 d } (pendOf_ r 0x3702 1) d) :=
  congrArg Host.Outcome.next (State.put_pending (o := wo 1 true 1 128) rfl (by decide) (by decide) (by decide) rfl h)

/-- A tenant command that is answered PENDING imports or retires a tenant then. -/
theorem State.tenantCommand_put {s : State} {r : Req} {d : Bytes} {op : Nat} (h : s.w.admits r 0x3702 2 d = true) (hop : leAt d 0 1 = op) :
    s.putOp r 0x3702 2 op d =
      if leAt d 0 1 = 1 then State.importTenant { s with w := s.w.promised r 0x3702 2 d } (pendOf_ r 0x3702 2) d
      else State.retireTenant { s with w := s.w.promised r 0x3702 2 d } (pendOf_ r 0x3702 2) d := by
  rw [State.putOp, if_pos hop, State.put_pending (o := wo 1 true 2 48) rfl (by decide) (by decide) (by decide) rfl h]
  rfl

/-- Generation 0 of a tenant that is imported reads as the blob gave it. -/
theorem World.imported_gen (w : World) (id : Nat) (t : Tenant) (gen : Bytes) :
    (w.imported id t gen).mem.mem.getRun 0 (t.genBase 0) gen.length = gen := by
  change Tab.getRun 0 ((w.sealAreas id t).mem.store (t.genBase 0) gen).mem _ _ = _
  rw [Mem.store_mem, Laws.Blob.getRun_setRun]

/-- The entries of a tenant that is imported are done. -/
theorem World.imported_done (w : World) (id : Nat) (t : Tenant) (gen : Bytes) : ∀ x ∈ (w.imported id t gen).sec.entries, x.id = id → x.done = true := by
  intro x hx hid
  obtain ⟨y, -, rfl⟩ := List.mem_map.mp hx
  split at hid
  next hy => simp [hy]
  next hy => exact absurd hid hy

theorem World.imported_seals (w : World) (id : Nat) (t : Tenant) (gen : Bytes) : (w.imported id t gen).mem.seals = (w.sealAreas id t).mem.seals :=
  Mem.store_seals _ _ _

/-- The oldest tenant command's status is reported (R289). -/
theorem World.tenantDone_cons {w : World} {status : Nat} {p : Pend} {rest : List (Nat × Pend)} (h : w.sec.tenReqs = (status, p) :: rest) :
    w.tenantDone = ({ w with sec := { w.sec with tenReqs := rest, tenStatus := status } } : World).writeDone p status := by
  simp only [World.tenantDone, h]

theorem World.tenantDone_nil {w : World} (h : w.sec.tenReqs = []) : w.tenantDone = w := by simp only [World.tenantDone, h]

/-- Settles O57, by what each request makes of the table, the seal map and memory. -/
theorem tenantRequests : Obligations.TenantRequests := by
  intro s r d w inAny granules others
  refine ⟨fun h hsession habsent => ?_, fun e pt h hop hsession hentry hfresh habsent hblob => ?_, fun h hop hthere hbusy => ?_,
    fun status p rest hreqs => ?_, fun hreqs => ?_⟩
  · intro id t
    refine ⟨_, (State.createTenant_put h).trans (congrArg Host.Outcome.next (State.createTenant_made (by simpa using hsession) habsent)),
      Vault.put_tenant _ _ _, fun n hn => Vault.put_tenant_ne _ _ hn, rfl, fun g hg => ?_, fun g hg => ?_, fun x => ?_, ?_⟩
    · change ((w.promised r 0x3702 1 d).sealAreas id t).mem.seals.get 0 g = _
      rw [World.sealAreas_seals]
      exact if_pos hg
    · change ((w.promised r 0x3702 1 d).sealAreas id t).mem.seals.get 0 g = _
      rw [World.sealAreas_seals, World.promised_mem]
      exact if_neg hg
    · change ((w.promised r 0x3702 1 d).sealAreas id t).mem.mem.get 0 x = _
      rw [World.sealAreas_mem, World.promised_mem]
      rfl
    · simp [World.tenantNoted, w]
  · intro id t hlen hareas
    refine ⟨_, congrArg Host.Outcome.next ((State.tenantCommand_put h hop).trans ((if_pos hop).trans
      (State.importTenant_made (by simpa using hsession) (by simpa using hentry) hfresh habsent (by simpa using hblob) hlen (by simpa using hareas)))),
      Vault.put_tenant _ _ _, fun n hn => Vault.put_tenant_ne _ _ hn, ?_, fun g hg => ?_, ?_, ?_⟩
    · have := World.imported_gen (w.promised r 0x3702 2 d) id t (slice pt 96 t.genLen)
      rwa [Laws.Blob.slice_length] at this
    · change ((w.promised r 0x3702 2 d).imported id t (slice pt 96 t.genLen)).mem.seals.get 0 g = _
      rw [World.imported_seals, World.sealAreas_seals]
      exact if_pos hg
    · exact World.imported_done (w.promised r 0x3702 2 d) id t (slice pt 96 t.genLen)
    · simp [World.tenantNoted, World.imported, w]
  · intro id t
    have hne : leAt d 0 1 ≠ 1 := by omega
    refine ⟨_, congrArg Host.Outcome.next ((State.tenantCommand_put h hop).trans ((if_neg hne).trans
      (State.retireTenant_retired hthere (by simpa using hbusy)))),
      Vault.put_tenant _ _ _, fun n hn => Vault.put_tenant_ne _ _ hn, fun g hg => ?_, fun x => ?_, ?_⟩
    · change ((w.promised r 0x3702 2 d).unsealAreas t).mem.seals.get 0 g = _
      rw [World.unsealAreas_seals]
      exact if_pos hg
    · change ((w.promised r 0x3702 2 d).unsealAreas t).mem.mem.get 0 x = _
      rw [World.unsealAreas_mem, World.promised_mem]
      rfl
    · simp [World.tenantNoted, w]
  · refine ⟨_, gives_of_eq rfl (World.tenantDone_cons hreqs), ?_⟩
    simp
  · exact gives_of_eq rfl (World.tenantDone_nil hreqs)

end Sys2Proof.Machine

namespace Sys2Proof.Machine

open Sys2Proof

/-! Completions and stopped queues (R103, R323, R325). -/

@[simp] theorem World.queue_updQueue_self (w : World) (n : Nat) (f : Queue → Queue) : (w.updQueue n f).queue n = f (w.queue n) := by
  simp [World.queue_updQueue]

theorem World.queue_of_host {v w : World} (h : v.host = w.host) (n : Nat) : v.queue n = w.queue n := by simp only [World.queue, h]

@[simp] theorem World.vector_queue (w : World) (v n : Nat) : (w.vector v).queue n = w.queue n := World.queue_of_host (by simp) n
@[simp] theorem World.event_queue (w : World) (code kind i a b n : Nat) : (w.event code kind i a b).queue n = w.queue n :=
  World.queue_of_host (by simp) n
@[simp] theorem World.send_queue (w : World) (o : Out) (n : Nat) : (w.send o).queue n = w.queue n := rfl

/-- A completion moves its queue's count and its vector's bookkeeping alone (R325, R326). -/
theorem World.complete_queue (w : World) (t : Task) (st : Nat) : ∃ c u a, (w.complete t st).queue t.id.queue =
    { w.queue t.id.queue with c := c, unsig := u, unsigAt := a } := by
  unfold World.complete
  dsimp only
  split
  · exact ⟨_, _, _, by rw [World.queue_updQueue_self, World.vector_queue, World.queue_updQueue_self]; rfl⟩
  · exact ⟨_, _, _, World.queue_updQueue_self _ _ _⟩

/-- A queue that is stopped says why, and keeps the rest (R323). -/
@[simp] theorem World.stopQueue_queue (w : World) (n status : Nat) : (w.stopQueue n status).queue n = { w.queue n with st := 2, err := status } := by
  simp [World.stopQueue]

@[simp] theorem World.stopQueue_tasks (w : World) (n status : Nat) : (w.stopQueue n status).sched = w.sched := by simp [World.stopQueue]
@[simp] theorem World.stopQueue_mem (w : World) (n status : Nat) : (w.stopQueue n status).mem = w.mem := by simp [World.stopQueue]

theorem World.stopQueue_out {w : World} {o : Out} (n status : Nat) (h : o ∈ w.out) : o ∈ (w.stopQueue n status).out :=
  World.vector_mem_out 66 (by simpa using h)

/-- A queue that is stopped fetches no slot (R323). -/
theorem World.fetches_stopped {w : World} {n : Nat} (h : (w.queue n).st = 2) : w.fetches n = false := by
  simp [World.fetches, Queue.runs, h]

/-! Fetching a descriptor (R323, R324, R327, R329). -/

/-- The engine that has counted a fetched descriptor. -/
def World.fetched (w : World) (n : Nat) : World :=
  w.updQueue n (fun q => { q with
    f := ((w.queue n).f + 1) % 2 ^ 32
    posts := q.posts.filter (fun e => precedes (((w.queue n).f + 1) % 2 ^ 32) e.1) })

/-- The task of the descriptor that a queue fetches next. -/
def World.nextTask (w : World) (n : Nat) (b : Bytes) : Task :=
  taskOf n ((w.queue n).f % (w.queue n).e) (w.queue n).ceil ((w.queue n).coveredAt (w.queue n).f w.now) b

/-- A queue that does not fetch leaves the engine as it is. -/
theorem World.taskFetch_idle {v : Vault} {w : World} {n : Nat} {b : Bytes} (h : w.fetches n = false) : w.taskFetch v n b = w :=
  if_pos (by simp [h])

/-- What a fetch does, by its four outcomes. -/
theorem World.taskFetch_cases {v : Vault} {w : World} {n : Nat} {b : Bytes} (h : w.fetches n = true) (hb : b.length = 64) : w.taskFetch v n b =
    if (w.nextTask n b).id.seq ≠ (w.queue n).f then
      ((w.fetched n).complete { w.nextTask n b with id := ⟨n, (w.queue n).f⟩ } 0x0818).stopQueue n 0x0818
    else if (w.queue n).cancel = some (w.queue n).f then
      ((w.fetched n).updQueue n (fun q => { q with cancel := none })).complete { w.nextTask n b with id := ⟨n, (w.queue n).f⟩ } 0x020C
    else match firstFail ((w.fetched n).taskFails v b (w.nextTask n b)) with
      | some status => (w.fetched n).complete (w.nextTask n b) status
      | none =>
        if !(w.fetched n).placeOk (w.nextTask n b) then (w.fetched n).complete (w.nextTask n b) 0x080C
        else { w.fetched n with sched := { (w.fetched n).sched with tasks := (w.fetched n).sched.tasks ++ [{ w.nextTask n b with
          st := if (w.nextTask n b).kind = 1 ∨ (w.fetched n).power.st ≠ .active then .posted else .ready
          stgs := ((w.fetched n).stageStarts (w.nextTask n b)).map (fun e => ({ pc := e % 2 ^ 40 } : Stage)) }] } } := by
  have hmay : ¬((!w.fetches n || decide (b.length ≠ 64)) = true) := by simp [h, hb]
  refine (if_neg hmay).trans ?_
  unfold World.fetched World.nextTask
  dsimp only <;>
  · generalize taskOf n _ _ _ b = t
    rfl

theorem World.fetched_queue (w : World) (n : Nat) : (w.fetched n).queue n = { w.queue n with
    f := ((w.queue n).f + 1) % 2 ^ 32
    posts := (w.queue n).posts.filter (fun e => precedes (((w.queue n).f + 1) % 2 ^ 32) e.1) } := World.queue_updQueue_self _ _ _

/-- A fetched descriptor that ends at once: its completion is written, F has risen, and the tasks are as before. -/
theorem World.fetched_ends {w v : World} {n : Nat} {t : Task} {status : Nat} (ht : t.id.queue = n) (hbase : (v.queue n).compBase = (w.queue n).compBase)
    (hc : (v.queue n).c = (w.queue n).c) (he : (v.queue n).e = (w.queue n).e) (hf : (v.queue n).f = ((w.queue n).f + 1) % 2 ^ 32)
    (hsched : v.sched = w.sched) (hnow : v.now = w.now) :
    (v.complete t status).sched.tasks = w.sched.tasks ∧
      Out.hostWrite ((w.queue n).compBase + 16 * ((w.queue n).c % (w.queue n).e)) (completionBytes (w.queue n) t status w.now) ∈ (v.complete t status).out ∧
      ((v.complete t status).queue n).f = ((w.queue n).f + 1) % 2 ^ 32 := by
  subst ht
  refine ⟨by simp [hsched], ?_, ?_⟩
  · have hwrites := v.complete_writes t status
    have hbytes : completionBytes (v.queue t.id.queue) t status w.now = completionBytes (w.queue t.id.queue) t status w.now := by
      simp only [completionBytes, hc, he]
    simpa only [hbase, hc, he, hnow, hbytes] using hwrites
  · obtain ⟨c, u, a, hcq⟩ := v.complete_queue t status
    rw [hcq]
    exact hf

/-- The sequence of the next task is the first field of its descriptor (Table 13.4). -/
theorem World.nextTask_seq (w : World) (n : Nat) (b : Bytes) : (w.nextTask n b).id.seq = fld (leVal b) 0 32 := rfl

theorem World.nextTask_queue (w : World) (n : Nat) (b : Bytes) : (w.nextTask n b).id.queue = n := rfl

/-- A fetched descriptor that ends at once ends on the queue as it was. -/
theorem World.fetched_completes (w : World) {n : Nat} {t : Task} (status : Nat) (ht : t.id.queue = n) :
    ((w.fetched n).complete t status).sched.tasks = w.sched.tasks ∧
      Out.hostWrite ((w.queue n).compBase + 16 * ((w.queue n).c % (w.queue n).e)) (completionBytes (w.queue n) t status w.now) ∈
        ((w.fetched n).complete t status).out ∧
      (((w.fetched n).complete t status).queue n).f = ((w.queue n).f + 1) % 2 ^ 32 :=
  World.fetched_ends ht (by rw [w.fetched_queue]) (by rw [w.fetched_queue]) (by rw [w.fetched_queue]) (by rw [w.fetched_queue]) rfl rfl

/-- The queue whose kept cancel meets its fetch (R327). -/
theorem World.uncancelled_queue (w : World) (n : Nat) : ((w.fetched n).updQueue n (fun q => { q with cancel := none })).queue n =
    { w.queue n with
      cancel := none
      f := ((w.queue n).f + 1) % 2 ^ 32
      posts := (w.queue n).posts.filter (fun e => precedes (((w.queue n).f + 1) % 2 ^ 32) e.1) } := by
  rw [World.queue_updQueue_self, World.fetched_queue]

/-- A fetch leaves memory as it was. -/
@[simp] theorem World.taskFetch_mem (v : Vault) (w : World) (n : Nat) (b : Bytes) : (w.taskFetch v n b).mem = w.mem := by
  unfold World.taskFetch
  dsimp only
  (repeat' split) <;> simp

/-- The first field of a descriptor is its four low bytes. -/
theorem fld_leVal_low {b : Bytes} (h : 4 ≤ b.length) : fld (leVal b) 0 32 = leAt b 0 4 := by
  match b, h with
  | b0 :: b1 :: b2 :: b3 :: l, _ =>
    have h0 := b0.isLt
    have h1 := b1.isLt
    have h2 := b2.isLt
    have h3 := b3.isLt
    simp only [leAt_cons_zero, leAt_zero, fld, leVal]
    omega

section
variable {v : Vault} {w : World} {n : Nat} {b : Bytes} (h : w.fetches n = true) (hb : b.length = 64)
include h hb

/-- A descriptor with another sequence completes, and its queue stops (R324). -/
theorem World.taskFetch_mismatch (hseq : (w.nextTask n b).id.seq ≠ (w.queue n).f) : w.taskFetch v n b =
    ((w.fetched n).complete { w.nextTask n b with id := ⟨n, (w.queue n).f⟩ } 0x0818).stopQueue n 0x0818 :=
  (World.taskFetch_cases h hb).trans (if_pos hseq)

/-- A descriptor that was cancelled before its fetch completes so (R327). -/
theorem World.taskFetch_cancelled (hseq : (w.nextTask n b).id.seq = (w.queue n).f) (hcancel : (w.queue n).cancel = some (w.queue n).f) :
    w.taskFetch v n b =
      ((w.fetched n).updQueue n (fun q => { q with cancel := none })).complete { w.nextTask n b with id := ⟨n, (w.queue n).f⟩ } 0x020C :=
  (World.taskFetch_cases h hb).trans ((if_neg (not_not.mpr hseq)).trans (if_pos hcancel))

/-- A descriptor completes with its first failure (R329). -/
theorem World.taskFetch_failed {status : Nat} (hseq : (w.nextTask n b).id.seq = (w.queue n).f) (hcancel : (w.queue n).cancel ≠ some (w.queue n).f)
    (hfail : firstFail ((w.fetched n).taskFails v b (w.nextTask n b)) = some status) : w.taskFetch v n b = (w.fetched n).complete (w.nextTask n b) status := by
  rw [World.taskFetch_cases h hb, if_neg (not_not.mpr hseq), if_neg hcancel, hfail]

/-- A descriptor whose place is not valid completes so (R128). -/
theorem World.taskFetch_misplaced (hseq : (w.nextTask n b).id.seq = (w.queue n).f) (hcancel : (w.queue n).cancel ≠ some (w.queue n).f)
    (hok : firstFail ((w.fetched n).taskFails v b (w.nextTask n b)) = none) (hplace : (w.fetched n).placeOk (w.nextTask n b) = false) :
    w.taskFetch v n b = (w.fetched n).complete (w.nextTask n b) 0x080C := by
  rw [World.taskFetch_cases h hb, if_neg (not_not.mpr hseq), if_neg hcancel, hok]
  simp only [hplace, Bool.not_false, if_true]

/-- Any other descriptor becomes a task (R329). -/
theorem World.taskFetch_taken (hseq : (w.nextTask n b).id.seq = (w.queue n).f) (hcancel : (w.queue n).cancel ≠ some (w.queue n).f)
    (hok : firstFail ((w.fetched n).taskFails v b (w.nextTask n b)) = none) (hplace : (w.fetched n).placeOk (w.nextTask n b) = true) :
    w.taskFetch v n b = { w.fetched n with sched := { (w.fetched n).sched with tasks := (w.fetched n).sched.tasks ++ [{ w.nextTask n b with
      st := if (w.nextTask n b).kind = 1 ∨ (w.fetched n).power.st ≠ .active then .posted else .ready
      stgs := ((w.fetched n).stageStarts (w.nextTask n b)).map (fun e => ({ pc := e % 2 ^ 40 } : Stage)) }] } } := by
  rw [World.taskFetch_cases h hb, if_neg (not_not.mpr hseq), if_neg hcancel, hok]
  simp only [hplace, Bool.not_true, Bool.false_eq_true, if_false]

end

/-- Settles O28, by the outcomes of a fetch. -/
theorem taskFetch : Obligations.TaskFetch := by
  intro s n b h hb w q t named fetched ended
  refine ⟨World.taskFetch s.vault w n b, rfl, World.taskFetch_mem _ _ _ _, fun hseq => ?_, fun hseq hcancel => ?_, fun hseq hcancel status hfail => ?_,
    fun hseq hcancel hok => ?_⟩
  · obtain ⟨htasks, hout, hf⟩ := w.fetched_completes (t := named) 0x0818 rfl
    rw [World.taskFetch_mismatch h hb hseq]
    refine ⟨⟨by simpa using htasks, World.stopQueue_out _ _ hout, ?_⟩, by simp, by simp⟩
    rw [World.stopQueue_queue]
    exact hf
  · have hq := w.uncancelled_queue n
    rw [World.taskFetch_cancelled h hb hseq hcancel]
    refine ⟨World.fetched_ends rfl (by rw [hq]) (by rw [hq]) (by rw [hq]) (by rw [hq]) rfl rfl, ?_⟩
    obtain ⟨c, u, a, hcq⟩ := ((w.fetched n).updQueue n (fun q => { q with cancel := none })).complete_queue named 0x020C
    exact congrArg Queue.cancel (hcq.trans (by rw [show named.id.queue = n from rfl, hq]))
  · rw [World.taskFetch_failed h hb hseq hcancel hfail]
    exact w.fetched_completes status rfl
  · split
    next hplace =>
      rw [World.taskFetch_taken h hb hseq hcancel hok hplace]
      exact ⟨rfl, rfl⟩
    next hplace =>
      rw [World.taskFetch_misplaced h hb hseq hcancel hok (eq_false_of_ne_true hplace)]
      exact w.fetched_completes 0x080C rfl

/-- Settles O29: the first field of the descriptor is the sequence that the fetch compares, and a stopped queue fetches nothing. -/
theorem sequenceMismatchStops : Obligations.SequenceMismatchStops := by
  intro s n b h hb hseq q slot
  have hne : (s.w.nextTask n b).id.seq ≠ (s.w.queue n).f := by
    rw [World.nextTask_seq, fld_leVal_low (by omega)]
    exact hseq
  obtain ⟨htasks, hout, -⟩ := s.w.fetched_completes (t := { s.w.nextTask n b with id := ⟨n, q.f⟩ }) 0x0818 rfl
  have hfetch := World.taskFetch_mismatch (v := s.vault) h hb hne
  refine ⟨World.taskFetch s.vault s.w n b, rfl, ?_, ?_, ?_, fun d => ?_⟩
  · rw [hfetch]
    exact World.stopQueue_out _ _ hout
  · rw [hfetch]
    simpa using htasks
  · rw [hfetch]
    simp
  · have hst : ((World.taskFetch s.vault s.w n b).queue n).st = 2 := by simp [hfetch]
    exact gives_of_eq rfl (World.taskFetch_idle (World.fetches_stopped hst))

end Sys2Proof.Machine

namespace Sys2Proof.Machine

open Sys2Proof

/-! A write of no bytes at the end of the doorbell registers (R318). -/

/-- An engine that the host reaches, with vector 0 pending while its entry is not masked. -/
def pendingWorld : World :=
  { power := { st := .active }, pins := { ready := true, perstN := true }, host := { speed := 1 }, msix := { pend := [0] } }

/-- A write of no bytes at 0x800 reaches entry 0 of the MSI-X table, and sends the vector that is pending there. -/
theorem pendingWorld_sends : pendingWorld.hostUp = true ∧ pendingWorld.msix.pend = [0] ∧ (pendingWorld.doorbellWrite 0x800 0 0).msix.pend = [] := by
  decide

/-- Refutes O27: its clause on narrow accesses takes in a write of no bytes at 0x800, which the model takes as one of the MSI-X table, so
that it sends a vector that is pending there and not masked. -/
theorem not_doorbells : ¬ Obligations.Doorbells := by
  rintro ⟨-, -, hwindow, -⟩
  obtain ⟨hup, hpend, hsent⟩ := pendingWorld_sends
  obtain ⟨-, -, -, hnarrow, -⟩ := hwindow { State.reset with w := pendingWorld } 0 0 hup (by decide) (by decide)
  obtain ⟨-, hwrite⟩ := hnarrow 0x800 0 (by decide) (by decide)
  have hsame : (pendingWorld.doorbellWrite 0x800 0 0).msix.pend = pendingWorld.msix.pend := congrArg (fun w : World => w.msix.pend) hwrite
  rw [hsent, hpend] at hsame
  exact absurd hsame (by decide)

end Sys2Proof.Machine

namespace Sys2Proof.Machine

open Sys2Proof

/-! Words of OTP (R368). -/

/-- The security state after a word: one that does not verify is counted, and takes a free choice of its ones. -/
def Sec.afterWord (c : Sec) (ok : Bool) : Sec :=
  { c with verFail := if ok then c.verFail else sat32 c.verFail 1, used := if ok then c.used else c.used + 1 }

section
variable {s : State} {j : OtpJob} {p : Option Pend} {rest : List (OtpJob × Option Pend)} (ok : Bool) (h : s.w.sec.otpJobs = (j, p) :: rest)
include h

/-- A request that goes on stands at the front with its next word. -/
theorem State.otpWord_next {j' : OtpJob} (hnext : (s.otp.word j s.w.sec.used ok).follow j ok = .inl j') :
    s.otpWord ok = { s with
      otp := s.otp.word j s.w.sec.used ok
      w := { s.w with sec := { s.w.sec.afterWord ok with otpJobs := (j', p) :: rest } } } := by
  simp only [State.otpWord, h, hnext]
  rfl

/-- A request other than the session counter's that ends is answered with its status. -/
theorem State.otpWord_ends {status : Nat} (hend : (s.otp.word j s.w.sec.used ok).follow j ok = .inr status) (hj : ∀ i, j ≠ .session i) :
    (s.otpWord ok).otp = s.otp.word j s.w.sec.used ok ∧ (s.otpWord ok).w.sec.otpJobs = rest := by
  cases j with
  | session i => exact absurd rfl (hj i)
  | record g d k => simp [State.otpWord, h, hend, State.done]
  | hash g d k => simp [State.otpWord, h, hend, State.done]
  | mark b => simp [State.otpWord, h, hend, State.done]
  | security b => simp [State.otpWord, h, hend, State.done]

/-- The session counter's request that verifies opens a session of its own, where none was asked for (R389). -/
theorem State.otpWord_session {i : Nat} (hj : j = .session i) (hreq : s.w.sec.req = none) :
    (s.otpWord true).otp = { s.otp with sess := Nat.lor s.otp.sess (2 ^ i) } ∧
      ((s.otpWord true).w.sec.session, (s.otpWord true).w.sec.entries) = (true, []) ∧ (s.otpWord true).w.sec.otpJobs = rest := by
  subst hj
  simp [State.otpWord, h, Otp.word, Otp.follow, State.done, State.sessionAdvanced, hreq]

end

/-- A counter with a bit set stands above it (R368). -/
theorem Otp.session_programmed (o : Otp) (i : Nat) : i + 1 ≤ ({ o with sess := Nat.lor o.sess (2 ^ i) } : Otp).session := by
  have hbit : (Nat.lor o.sess (2 ^ i)).testBit i = true := by
    change (o.sess ||| 2 ^ i).testBit i = true
    simp
  have hge : 2 ^ i ≤ Nat.lor o.sess (2 ^ i) := Nat.ge_two_pow_of_testBit hbit
  have hne : Nat.lor o.sess (2 ^ i) ≠ 0 := by
    have := Nat.two_pow_pos i
    omega
  simp only [Otp.session, hne, if_false]
  exact Nat.succ_le_succ ((Nat.le_log2 hne).mpr hge)

/-! Firmware (R14, R373). -/

/-- Where no doorbell write waits, none acts. -/
theorem World.doorbellsDue_none {w : World} (h : w.host.waits = []) : w.doorbellsDue = w := by
  unfold World.doorbellsDue
  have hsame : ({ w with host := { w.host with waits := [] } } : World) = w := by rw [← h]
  split
  · rw [hsame, h]
    rfl
  · rfl

/-- The engine whose image has verified with a status (R373, R401). -/
def World.verifiedAs (w : World) (img : Bytes) (status : Nat) : World :=
  let v := { w with sec := { w.sec with
    loading := none
    fwStatus := status
    fw := if status = 0 then leAt img 4 4 else w.sec.fwPrev
    fwSlot := if status = 0 then leAt img 12 1 else w.sec.fwSlot } }
  if status = 0 ∧ w.log.wd then { v with log := { w.log with wd := false }, pins := { w.pins with faultN := some (!w.pt.halted) } } else v

/-- An image that verifies becomes the firmware, and lets go of FAULT_N where the watchdog held it (R401). -/
theorem World.verifiedAs_good (w : World) (img : Bytes) :
    ((w.verifiedAs img 0).sec.fw, (w.verifiedAs img 0).sec.fwSlot, (w.verifiedAs img 0).sec.fwStatus) = (leAt img 4 4, leAt img 12 1, 0) ∧
      (w.verifiedAs img 0).sec.loading = none ∧ (w.verifiedAs img 0).log.wd = false ∧
      (w.log.wd = true → (w.verifiedAs img 0).pins.faultN = some (!w.pt.halted)) ∧ (w.verifiedAs img 0).mem = w.mem := by
  unfold World.verifiedAs
  dsimp only
  split
  next => exact ⟨rfl, rfl, rfl, fun _ => rfl, rfl⟩
  next hwd =>
    have hwd' : ¬ w.log.wd = true := fun h => hwd ⟨rfl, h⟩
    exact ⟨rfl, rfl, eq_false_of_ne_true hwd', fun h => absurd h hwd', rfl⟩

/-- A load that ends leaves the engine that its image gives, and tells its client. -/
theorem World.firmwareDone_loaded {o : Otp} {w : World} {img : Bytes} {p : Pend} (hwaits : w.host.waits = []) (h : w.sec.loading = some (img, p)) :
    w.firmwareDone o = (w.verifiedAs img (o.verify img)).writeDone p (o.verify img) := by
  have hdue : ((w.verifiedAs img (o.verify img)).writeDone p (o.verify img)).host.waits = [] := by
    rw [World.writeDone_host, World.verifiedAs]
    dsimp only
    split <;> exact hwaits
  rw [← World.doorbellsDue_none hdue]
  simp only [World.firmwareDone, h]
  rfl

/-- What an image that verifies is (R373). -/
theorem Otp.verify_good {o : Otp} {img : Bytes} (h : o.verify img = 0) :
    leAt img 0 4 = 0x4D574659 ∧ img.length = 160 + leAt img 8 4 ∧ leAt img 12 1 < 4 ∧ usableSlot o.markBits (leAt img 12 1) = true ∧
      sha256 (slice img 16 64) = o.hashes.getD (leAt img 12 1) [] := by
  unfold Otp.verify at h
  dsimp only at h
  split at h
  · exact absurd h (by decide)
  next hform =>
    split at h
    · exact absurd h (by decide)
    next hslot =>
      split at h
      · exact absurd h (by decide)
      next hhash =>
        simp only [Bool.or_eq_true, decide_eq_true_eq, not_or, not_not] at hform
        obtain ⟨⟨⟨⟨⟨hmagic, -⟩, -⟩, -⟩, -⟩, hlen⟩ := hform
        simp only [Bool.not_eq_true', Bool.not_eq_false, Bool.and_eq_true, decide_eq_true_eq] at hslot
        exact ⟨hmagic, hlen, hslot.1, hslot.2, not_not.mp hhash⟩

/-- An image of the right form under a slot that is not usable is refused so (R373). -/
theorem Otp.verify_revoked {o : Otp} {img : Bytes} (hmagic : leAt img 0 4 = 0x4D574659) (hzero : allZero (slice img 13 3) = true)
    (hzero' : allZero (slice img 144 16) = true) (hpos : 1 ≤ leAt img 8 4) (hmax : leAt img 8 4 ≤ 2 ^ 23) (hlen : img.length = 160 + leAt img 8 4)
    (hslot : usableSlot o.markBits (leAt img 12 1) = false) : o.verify img = 0x0709 := by
  have hform : ¬((leAt img 0 4 ≠ fwMagic || !allZero (slice img 13 3) || !allZero (slice img 144 16) || leAt img 8 4 = 0 || decide (2 ^ 23 < leAt img 8 4) ||
      img.length ≠ 160 + leAt img 8 4) = true) := by
    simp only [hmagic, hzero, hzero', hlen, fwMagic]
    simp
    omega
  unfold Otp.verify
  dsimp only
  rw [if_neg hform, if_pos (by simp [hslot])]

/-- Settles O59, by what a word and an image leave. -/
theorem otpAndFirmware : Obligations.OtpAndFirmware := by
  refine ⟨fun s p rest => ?_, fun s img p => ?_, fun o img => ⟨Otp.verify_good, Otp.verify_revoked⟩⟩
  · intro jobs
    refine ⟨fun g d k h _ hk => ?_, fun g d k h _ hk => ?_, fun g d k h hk => ?_, fun b h => ?_, fun b h => ?_, fun i h hreq => ?_, fun i h hi => ?_, fun h ok => ?_⟩
    · have hnext : (s.otp.word (.record g d k) s.w.sec.used true).follow (.record g d k) true = .inl (.record g d (k + 1)) := if_pos hk
      exact ⟨_, congrArg Host.Outcome.next (State.otpWord_next true h hnext), rfl, rfl, rfl, rfl⟩
    · have hnext : (s.otp.word (.record g d k) s.w.sec.used false).follow (.record g d k) false = .inl (.record g d (k + 1)) := if_pos hk
      exact ⟨_, Config.otpBits s.w.sec.used, congrArg Host.Outcome.next (State.otpWord_next false h hnext), rfl, rfl, rfl⟩
    · have hnext : (s.otp.word (.hash g d k) s.w.sec.used true).follow (.hash g d k) true = .inl (.hash g d (k + 1)) := if_pos hk
      exact ⟨_, congrArg Host.Outcome.next (State.otpWord_next true h hnext), rfl, rfl⟩
    · exact ⟨_, rfl, State.otpWord_ends true h rfl (fun i => by simp)⟩
    · exact ⟨_, rfl, State.otpWord_ends true h rfl (fun i => by simp)⟩
    · obtain ⟨hotp, hsession, hjobs⟩ := State.otpWord_session h rfl hreq
      exact ⟨_, rfl, hotp ▸ Otp.session_programmed s.otp i, hsession, hjobs⟩
    · have hnext : (s.otp.word (.session i) s.w.sec.used false).follow (.session i) false = .inl (.session (i + 1)) := if_pos hi
      exact ⟨_, congrArg Host.Outcome.next (State.otpWord_next false h hnext), rfl⟩
    · have hnone : s.otpWord ok = s := by simp only [State.otpWord, show s.w.sec.otpJobs = [] from h]
      exact congrArg Host.Outcome.next hnone
  · intro w
    refine ⟨fun hwaits hload hgood => ⟨_, gives_of_eq rfl (World.firmwareDone_loaded hwaits hload), ?_⟩,
      fun hwaits hload hbad => ⟨_, gives_of_eq rfl (World.firmwareDone_loaded hwaits hload), ?_⟩, fun hnone => ?_, fun b hclk => gives_of_eq rfl (if_pos hclk)⟩
    · rw [hgood]
      simpa using World.verifiedAs_good w img
    · simp [World.verifiedAs, hbad, w]
    · exact gives_of_eq rfl (by simp only [World.firmwareDone, show s.w.sec.loading = none from hnone, w])

end Sys2Proof.Machine

namespace Sys2Proof.Machine

open Sys2Proof

/-! The fault counters under the end of a task (R398, R325). -/

theorem World.log_of_offPorts {w w' : World} (h : w'.offPorts = w.offPorts) : w'.log = w.log :=
  show w'.offPorts.log = w.offPorts.log from congrArg World.log h

@[simp] theorem World.messageTo_log (w : World) (typ vc l tag addr : Nat) (data : Bytes) : (w.messageTo typ vc l tag addr data).log = w.log := by
  unfold World.messageTo
  split
  · exact World.log_of_offPorts (World.launchFrom_offPorts ..)
  · rfl

@[simp] theorem World.semMsg_log (w : World) (l op sem q slot core rank : Nat) : (w.semMsg l op sem q slot core rank).log = w.log := by
  simp [World.semMsg]

@[simp] theorem World.forgetChain_log (w : World) (c : Chain) : (w.forgetChain c).log = w.log := by
  refine (foldl_keeps World.log (fun w h => ?_) _ _).trans rfl
  rfl

@[simp] theorem World.farHeld_log (w : World) (n : Nat) : (w.farHeld n).log = w.log := by
  unfold World.farHeld
  split
  · exact (foldl_keeps World.log (fun _ _ => World.semMsg_log ..) _ _).trans rfl
  · exact World.semMsg_log ..

@[simp] theorem World.dropChains_log (w : World) (p : Chain → Bool) : (w.dropChains p).log = w.log := by
  refine foldl_keeps World.log (fun w c => ?_) _ _
  dsimp only
  split
  · simp
  · exact World.forgetChain_log w c

/-- The counters of faults that have been counted. -/
def World.faults (w : World) : List Nat := w.log.faults

theorem World.orphan_faults (glob : Bool) (queue : Nat) (w : World) (n : Nat) : (w.orphan glob queue n).faults = w.faults :=
  World.event_faults ..

theorem World.faults_of_log {w w' : World} (h : w'.log = w.log) : w'.faults = w.faults := congrArg Log.faults h

theorem World.orphaned_faults (w : World) (t : Task) : (w.orphaned t).faults = w.faults := by
  have hsems (sems : List Nat) (b : Bool) (v : World) : (sems.foldl (World.orphan b t.id.queue) v).faults = v.faults :=
    foldl_keeps World.faults (fun v n => World.orphan_faults b t.id.queue v n) sems v
  have howns (l : List Nat) (v : World) :
      (if v.multi then l.foldl (fun w n => w.semMsg w.sched.semHome 8 n t.id.queue t.slot 0 0) v else v).faults = v.faults := by
    split
    · exact foldl_keeps World.faults (fun v n => World.faults_of_log (World.semMsg_log ..)) l v
    · rfl
  unfold World.orphaned
  refine (foldl_keeps World.faults (fun v c => World.faults_of_log (v.forgetChain_log c)) _ _).trans ?_
  refine (World.faults_of_log (World.dropChains_log _ _)).trans ?_
  exact (howns _ _).trans ((hsems _ _ _).trans (hsems _ _ _))

theorem World.removeTask_faults (w : World) (t : Task) (status : Nat) : (w.removeTask t status).faults = w.faults := by
  have hstep := (World.endStep_keeps World.faults (fun _ _ _ => rfl) (w.orphaned t) t.id status).trans (w.orphaned_faults t)
  simp only [World.faults] at hstep ⊢
  rw [World.removeTask_eq, hstep]

@[simp] theorem World.switchIn_log (w : World) : w.switchIn.log = w.log := World.switchIn_keeps _ (fun _ _ _ => rfl) w

@[simp] theorem World.settleReset_log (w : World) (n : Nat) : (w.settleReset n).log = w.log :=
  World.settleReset_keeps _ (fun _ _ _ => rfl) (fun _ _ => by simp) w n

/-- The end of a task counts no fault. -/
@[simp] theorem World.finish_faults (w : World) (t : Task) (status : Nat) : (w.finish t status).log.faults = w.log.faults := by
  unfold World.finish
  dsimp only
  rw [World.switchIn_log, World.settleReset_log, apply_ite World.log, World.complete_log, ite_self]
  exact w.removeTask_faults t status

/-- The counter of a cause after one fault of it (R398). -/
theorem getD_modAt_self {α : Type} (l : List α) {i : Nat} (f : α → α) (d : α) (h : i < l.length) : (modAt l i f).getD i d = f (l.getD i d) := by
  simp [modAt, List.getD_eq_getElem?_getD, h]

theorem World.countFault_counts (w : World) {cause : Nat} (suspect kind i : Nat) (h0 : 0 < cause) (h : cause ≤ w.log.faults.length) :
    (w.countFault cause suspect kind i).log.faults.getD (cause - 1) 0 = sat32 (w.log.faults.getD (cause - 1) 0) 1 := by
  rw [World.countFault_faults]
  exact getD_modAt_self _ _ _ (by omega)

/-! The watchdog (R401). -/

/-- What the watchdog leaves of the management core, once the tasks have ended. -/
def World.mgmtDown (w : World) : World :=
  { w with
    sec := { w.sec with fw := 0, fwPrev := 0, fwSlot := 0xFF, loading := none }
    log := { w.log with wd := true }
    pins := { w.pins with faultN := some false } }

theorem World.watchdogFires_eq {w : World} (h : w.clocked = true) : w.watchdogFires =
    ((w.countFault 10 w.node srcMgmt 0).endAll 0x0404).mgmtDown.writeDone?
      ((((w.countFault 10 w.node srcMgmt 0).endAll 0x0404).sec.loading).map (·.2)) 0x0404 :=
  if_neg (by simp [h])

theorem World.endAll_none {w : World} (status : Nat) (h : w.sched.tasks = []) : w.endAll status = w := by
  simp [World.endAll, h]

theorem World.endAll_one {w : World} {t : Task} (status : Nat) (h : w.sched.tasks = [t]) :
    w.endAll status = (w.dropCkpt t.id).finish t status := by
  simp [World.endAll, World.task?, h]

theorem World.writeDone?_mem_out {w : World} {o : Out} (p : Option Pend) (status : Nat) (h : o ∈ w.out) : o ∈ (w.writeDone? p status).out := by
  cases p with
  | none => exact h
  | some p => exact World.writeDone_mem_out p status h

/-- A completion that has been written stays, whatever else is sent and changed but the tasks. -/
theorem World.Completes.of_later {w v v' : World} {t : Task} {status : Nat} (h : w.Completes t status v) (hs : v'.sched = v.sched)
    (ho : ∀ o ∈ v.out, o ∈ v'.out) : w.Completes t status v' := by
  obtain ⟨hgone, hout⟩ := h
  refine ⟨?_, fun hl => ho _ (hout hl)⟩
  rw [World.task?, hs]
  exact hgone

theorem World.dropCkpt_same (w : World) (id : TaskId) : (w.dropCkpt id).clock = w.clock ∧ (w.dropCkpt id).host = w.host := by
  unfold World.dropCkpt
  split <;> exact ⟨rfl, rfl⟩

theorem watchdog_idle {s : State} (hc : s.w.clocked = true) (ht : s.w.sched.tasks = []) : ∃ w', Gives .watchdog s w' ∧
    (w'.sec.fw, w'.sec.fwPrev, w'.sec.loading) = (0, 0, none) ∧ (w'.log.wd, w'.pins.faultN) = (true, some false) ∧
    (10 ≤ s.w.log.faults.length → w'.log.faults.getD (10 - 1) 0 = sat32 (s.w.log.faults.getD (10 - 1) 0) 1) ∧ w'.mem = s.w.mem := by
  refine ⟨_, gives_of_eq rfl (World.watchdogFires_eq hc), ?_⟩
  rw [World.endAll_none _ (by simpa using ht)]
  refine ⟨by simp [World.mgmtDown], by simp [World.mgmtDown], fun hl => ?_, by simp [World.mgmtDown]⟩
  rw [World.writeDone?_log]
  exact World.countFault_counts _ _ _ _ (by decide) hl

theorem watchdog_task {s : State} {t : Task} (hc : s.w.clocked = true) (ht : s.w.sched.tasks = [t]) :
    ∃ w', Gives .watchdog s w' ∧ s.w.Completes t 0x0404 w' ∧ (w'.sec.fw, w'.log.wd) = (0, true) := by
  refine ⟨_, gives_of_eq rfl (World.watchdogFires_eq hc), ?_, by simp [World.mgmtDown]⟩
  rw [World.endAll_one _ (by simpa using ht)]
  obtain ⟨hclock, hhost⟩ := World.dropCkpt_same (s.w.countFault 10 s.w.node srcMgmt 0) t.id
  have hdone : s.w.Completes t 0x0404 (((s.w.countFault 10 s.w.node srcMgmt 0).dropCkpt t.id).finish t 0x0404) :=
    (World.finish_completes _ t 0x0404).of_same (hclock.trans (by simp)) (hhost.trans (by simp))
  exact hdone.of_later (by simp [World.mgmtDown]) (fun o ho => World.writeDone?_mem_out _ _ ho)

/-! Errors of a core (R399, R400). -/

/-- A core's staging SRAM and L1 are cleared, and the tasks switched out there are lost. -/
def World.coreCleared (w : World) (c : Nat) : World :=
  { w with
    mem := { w.mem with
      staging := w.mem.staging.keep (fun k _ => decide (k / 524288 ≠ c))
      l1 := w.mem.l1.set [] c [] }
    sched := { w.sched with tasks := w.sched.tasks.map (fun (t : Task) => if t.out.contains c then { t with lost := true } else t) } }

theorem World.coreFails_idle {w : World} {c : Nat} (hc : w.clocked = true) (h16 : c < 16) (hf : w.sched.tasks.find? (fun t => t.runsOn c) = none) :
    w.coreFails c = (w.countFault 3 w.node srcCore c).coreCleared c := by
  have hgo : ¬((!w.clocked || decide (16 ≤ c)) = true) := by simp [hc]; omega
  refine (if_neg hgo).trans ?_
  simp only [hf]
  rfl

theorem World.coreCleared_task? {w : World} {c : Nat} {t : Task} (h : w.task? t.id = some t) :
    ∃ u, (w.coreCleared c).task? t.id = some u ∧ u.id = t.id ∧ u.slot = t.slot ∧ u.silent = t.silent := by
  refine ⟨if t.out.contains c then { t with lost := true } else t, ?_, ?_⟩
  · have hid : ((fun u : Task => u.id == t.id) ∘ fun u : Task => if u.out.contains c then { u with lost := true } else u) =
        fun u => u.id == t.id := by
      funext u
      simp only [Function.comp_apply]
      split <;> rfl
    simp only [World.task?, World.coreCleared, List.find?_map, hid]
    rw [World.task?] at h
    rw [h, Option.map_some]
  · split <;> exact ⟨rfl, rfl, rfl⟩

theorem World.coreFails_task {w : World} {c : Nat} {t u : Task} (hc : w.clocked = true) (h16 : c < 16)
    (hf : w.sched.tasks.find? (fun t => t.runsOn c) = some t) (hm : w.multi = false)
    (hu : ((w.countFault 3 w.node srcCore c).coreCleared c).task? t.id = some u) :
    w.coreFails c = ((w.countFault 3 w.node srcCore c).coreCleared c).finish u 0x0403 := by
  have hgo : ¬((!w.clocked || decide (16 ≤ c)) = true) := by simp [hc]; omega
  have hcount : w.taskFault t 3 srcCore c = w.countFault 3 w.node srcCore c := by simp [World.taskFault, hm]
  refine (if_neg hgo).trans ?_
  simp only [hf, hcount]
  change (match ((w.countFault 3 w.node srcCore c).coreCleared c).task? t.id with
    | some t => ((w.countFault 3 w.node srcCore c).coreCleared c).finish t 0x0403
    | none => (w.countFault 3 w.node srcCore c).coreCleared c) = _
  rw [hu]

theorem coreError_idle {s : State} {c : Nat} (hc : s.w.clocked = true) (h16 : c < 16)
    (hf : s.w.sched.tasks.find? (fun t => t.runsOn c) = none) : ∃ w', Gives (.coreError c) s w' ∧
    (3 ≤ s.w.log.faults.length → w'.log.faults.getD (3 - 1) 0 = sat32 (s.w.log.faults.getD (3 - 1) 0) 1) ∧ w'.mem.l1.get [] c = [] ∧
    (∀ k, w'.mem.staging.get 0 k = if k / 524288 = c then 0 else s.w.mem.staging.get 0 k) ∧ SameMemory s.w w' ∧
    (∀ t ∈ w'.sched.tasks, t.out.contains c = true → t.lost = true) := by
  refine ⟨_, gives_of_eq rfl (World.coreFails_idle hc h16 hf), World.countFault_counts _ _ _ _ (by decide), ?_, fun k => ?_, fun x => ?_, ?_⟩
  · simp [World.coreCleared, Tab.get_set]
  · simp only [World.coreCleared, World.countFault_mem]
    refine (Tab.get_keep 0 s.w.mem.staging (fun k => decide (k / 524288 ≠ c)) k).trans ?_
    by_cases h : k / 524288 = c <;> simp [h]
  · simp [World.coreCleared]
  · simp only [World.coreCleared, List.mem_map]
    rintro _ ⟨t, -, rfl⟩
    split <;> simp_all

theorem coreError_task {s : State} {c : Nat} {t : Task} (hc : s.w.clocked = true) (h16 : c < 16)
    (hf : s.w.sched.tasks.find? (fun t => t.runsOn c) = some t) (ht : s.w.task? t.id = some t) (hm : s.w.multi = false) :
    ∃ w', Gives (.coreError c) s w' ∧ s.w.Completes t 0x0403 w' ∧
      (3 ≤ s.w.log.faults.length → w'.log.faults.getD (3 - 1) 0 = sat32 (s.w.log.faults.getD (3 - 1) 0) 1) := by
  have hcounted : (s.w.countFault 3 s.w.node srcCore c).task? t.id = some t := by
    rw [World.task?, World.countFault_sched]
    exact ht
  obtain ⟨u, hu, hid, hslot, hsil⟩ := World.coreCleared_task? (c := c) hcounted
  refine ⟨_, gives_of_eq rfl (World.coreFails_task hc h16 hf hm hu), ?_, fun hl => ?_⟩
  · refine ((World.finish_completes _ u 0x0403).of_task hid hslot hsil).of_same ?_ ?_
    · simp [World.coreCleared]
    · simp [World.coreCleared]
  · rw [World.finish_faults]
    exact World.countFault_counts _ _ _ _ (by decide) hl

end Sys2Proof.Machine

namespace Sys2Proof.Machine

open Sys2Proof

/-! The event log (R403, R404). -/

theorem World.event_dropped {w : World} (code kind i a b : Nat) (h : 64 ≤ w.log.staged.length) :
    (w.event code kind i a b).log.staged = w.log.staged ∧ (w.event code kind i a b).log.dropped = sat32 w.log.dropped 1 ∧
      (w.event code kind i a b).log.seq = (w.log.seq + 1) % 2 ^ 32 := by
  simp [World.event, Nat.not_lt.mpr h]

@[simp] theorem World.event_ring (w : World) (code kind i a b : Nat) : (w.event code kind i a b).log.ring = w.log.ring := by
  simp only [World.event]
  split <;> rfl

@[simp] theorem World.event_copied (w : World) (code kind i a b : Nat) : (w.event code kind i a b).log.copied = w.log.copied := by
  simp only [World.event]
  split <;> rfl

theorem World.event_gap {w : World} (code kind i a b : Nat) (h : w.log.staged.length < 64) : (w.event code kind i a b).log.gap = w.log.gap := by
  simp [World.event, h]

/-- No carrier notes an event whose bits are clear (R306). -/
theorem World.noteCarriers_off {w : World} {x y : Nat} (hx : bitAt w.adp.noteCar x = false) (hy : bitAt w.adp.noteCar y = false) (i sub : Nat) (d : Bytes) :
    w.noteCarriers x y i sub d = w := by
  simp [World.noteCarriers, hx, hy]

/-- The engine whose oldest staged entry stands in the ring. -/
def World.ringed (w : World) (e : Entry) (rest : List Entry) : World :=
  { w with log := { w.log with
    staged := rest
    ring := w.log.ring.set {} (e.seq % 1024) e
    copied := add64 w.log.copied 1
    overs := if (Tab.get ({} : Entry) w.log.ring (e.seq % 1024)).code = 0 then w.log.overs else sat32 w.log.overs 1 } }

section
variable {w : World} {e : Entry} {rest : List Entry} (hst : w.log.staged = e :: rest) (h2 : bitAt w.adp.noteCar 2 = false)
  (h3 : bitAt w.adp.noteCar 3 = false)
include hst h2 h3

theorem World.copyEvent_whole (hgap : w.log.gap = none) : w.copyEvent = w.ringed e rest := by
  simp only [World.copyEvent, hst]
  rw [World.noteCarriers_off]
  · simp only [hgap, World.ringed]
  · exact h2
  · exact h3

theorem World.copyEvent_gap {n first : Nat} (hgap : w.log.gap = some (n, first)) : w.copyEvent =
    World.event { w.ringed e rest with log := { (w.ringed e rest).log with gap := none } } 0x0040 srcMgmt 0 n first := by
  simp only [World.copyEvent, hst]
  rw [World.noteCarriers_off]
  · simp only [hgap, World.ringed]
  · exact h2
  · exact h3

theorem eventLogCopy_spec {s : State} (hs : s.w = w) (hc : w.clocked = true) : ∃ w', Gives .eventLogCopy s w' ∧
    w'.log.ring.get {} (e.seq % 1024) = e ∧ w'.log.copied = add64 w.log.copied 1 ∧ (w.log.gap = none → w'.log.staged = rest) ∧
    (∀ n first, w.log.gap = some (n, first) → rest.length < 64 → w'.log.gap = none ∧
      w'.log.staged = rest ++ [{ ns := w.clock.ns, seq := w.log.seq, code := 0x0040, kind := 3, inst := 0, a1 := n, a2 := first }]) := by
  subst hs
  have hgives : Gives .eventLogCopy s s.w.copyEvent := gives_of_eq rfl (if_pos hc)
  refine ⟨_, hgives, ?_⟩
  cases hgap : s.w.log.gap with
  | none =>
    rw [World.copyEvent_whole hst h2 h3 hgap]
    exact ⟨by simp [World.ringed, Tab.get_set], rfl, fun _ => rfl, fun _ _ h => (Option.some_ne_none _ h.symm).elim⟩
  | some g =>
    obtain ⟨n, first⟩ := g
    rw [World.copyEvent_gap hst h2 h3 hgap]
    refine ⟨by simp [World.ringed, Tab.get_set], by simp [World.ringed], fun h => (Option.some_ne_none _ h).elim, ?_⟩
    intro n' first' h hlen
    cases h
    exact ⟨by simp [World.event_gap, World.ringed, hlen], World.event_staged _ _ _ _ _ hlen⟩

end

/-! The test access port (R361, R362). -/

@[simp] theorem World.tapTo_pins (w : World) (code : Nat) : (w.tapTo code).pins = w.pins := by
  unfold World.tapTo
  dsimp only
  (repeat' split) <;> rfl

@[simp] theorem World.tapTo_out (w : World) (code : Nat) : (w.tapTo code).out = w.out := by
  unfold World.tapTo
  dsimp only
  (repeat' split) <;> rfl

theorem World.tapTo_tap {w : World} (code : Nat) (h : w.pins.vio = true) : (w.tapTo code).tap = { w.tap with ir := code, takeover := false } := by
  simp only [World.tapTo, h, Bool.not_true, Bool.false_eq_true, if_false]
  split <;> rfl

/-- The balls are the engine's own, as its pins give them. -/
def World.BallsFree (w w' : World) : Prop := w'.tap.takeover = false ∧ w'.readyBall = some w.pins.ready ∧ w'.faultBall = w.pins.faultN

theorem World.ballsFree_of {w w' : World} (ht : w'.tap.takeover = false) (hp : w'.pins = w.pins) : w.BallsFree w' := by
  simp [World.BallsFree, World.readyBall, World.faultBall, World.shown, ht, hp]

theorem World.tapTo_ballsFree {w : World} (code : Nat) (h : w.pins.vio = true) : w.BallsFree (w.tapTo code) :=
  World.ballsFree_of (by rw [World.tapTo_tap code h]) (w.tapTo_pins code)

/-- A level as the number that its cell adds. -/
theorem level_lt {x : Bool} {n : Nat} (h : (if x then 1 else 0) = n) : n < 2 := by
  subst h
  split <;> decide

theorem bitAt_of_level {v i n : Nat} {x : Bool} (hn : (if x then 1 else 0) = n) (h : v / 2 ^ i % 2 = n) : bitAt v i = x := by
  rw [bitAt, Nat.testBit_eq_decide_div_mod_eq, h, ← hn]
  cases x <;> rfl

/-- The captured levels stand at the cells' places in Table 14.3. -/
theorem World.cellLevels_bits (w : World) :
    (bitAt w.cellLevels 0, bitAt w.cellLevels 10, bitAt w.cellLevels 11, bitAt w.cellLevels 12) =
      (w.pins.perstN, w.pins.wake, w.pins.ready, w.pins.faultN.getD true) ∧
    (bitAt w.cellLevels 13, bitAt w.cellLevels 14, bitAt w.cellLevels 15) = (w.pins.pwrAlertN, w.pins.coolOk, w.pins.resetN) := by
  have hballs : Config.balls w.sec.used % 2 ^ 9 < 2 ^ 9 := Nat.mod_lt _ (by decide)
  simp only [World.cellLevels, Prod.mk.injEq]
  generalize Config.balls w.sec.used % 2 ^ 9 = f at hballs ⊢
  generalize hperst : (if w.pins.perstN then 1 else 0) = perst
  generalize hwake : (if w.pins.wake then 1 else 0) = wake
  generalize hready : (if w.pins.ready then 1 else 0) = ready
  generalize hfault : (if w.pins.faultN.getD true then 1 else 0) = fault
  generalize halert : (if w.pins.pwrAlertN then 1 else 0) = alert
  generalize hcool : (if w.pins.coolOk then 1 else 0) = cool
  generalize hreset : (if w.pins.resetN then 1 else 0) = reset
  have := level_lt hperst
  have := level_lt hwake
  have := level_lt hready
  have := level_lt hfault
  have := level_lt halert
  have := level_lt hcool
  have := level_lt hreset
  refine ⟨⟨bitAt_of_level hperst ?_, bitAt_of_level hwake ?_, bitAt_of_level hready ?_, bitAt_of_level hfault ?_⟩,
    bitAt_of_level halert ?_, bitAt_of_level hcool ?_, bitAt_of_level hreset ?_⟩ <;> omega

/-! A takeover of the balls (R362). -/

/-- A port that runs has lost its clock. -/
def World.portLost (w : World) (p : Nat) : World := if (w.tdm p).st = 2 then w.loseClock p else w

section
variable (w : World) (p : Nat)

theorem World.loseClock_same : (w.loseClock p).log = w.log ∧ (w.loseClock p).tap = w.tap ∧ (w.loseClock p).power = w.power := by
  unfold World.loseClock
  dsimp only
  split
  · exact ⟨rfl, rfl, rfl⟩
  · exact ⟨(World.vector_log ..).trans rfl, (World.vector_tap ..).trans rfl, (World.vector_power ..).trans rfl⟩

theorem World.portLost_same : (w.portLost p).log = w.log ∧ (w.portLost p).tap = w.tap ∧ (w.portLost p).power = w.power := by
  unfold World.portLost
  split
  · exact w.loseClock_same p
  · exact ⟨rfl, rfl, rfl⟩

theorem World.loseClock_tdm (hc : w.clocked = true) (hen : (w.tdm p).en = true) (hst : (w.tdm p).st = 2) (q : Nat) :
    (w.loseClock p).tdm q = if q = p then { w.tdm p with st := 3, losses := sat32 (w.tdm p).losses 1, good := 0 } else w.tdm q := by
  have hlost : w.loseClock p = ((w.updTdm p (fun t => { t with st := 3, losses := sat32 t.losses 1, good := 0 })).markGap p).vector 67 := by
    simp [World.loseClock, hc, hen, hst]
  rw [hlost, World.tdm, World.vector_host]
  exact Tab.get_set {} w.host.tdms p _ q

/-- An enabled port that runs stands without its clock, and any other port is as it was. -/
theorem World.portLost_tdm (hc : w.clocked = true) (q : Nat) :
    ((w.portLost p).tdm q).en = (w.tdm q).en ∧
      ((w.tdm q).en = true → ((w.portLost p).tdm q).st = if q = p ∧ (w.tdm q).st = 2 then 3 else (w.tdm q).st) := by
  by_cases hrun : (w.tdm p).st = 2
  · rw [World.portLost, if_pos hrun]
    by_cases hen : (w.tdm p).en = true
    · rw [w.loseClock_tdm p hc hen hrun q]
      by_cases hq : q = p
      · subst hq
        simp [hrun]
      · simp [hq]
    · rw [show w.loseClock p = w from if_pos (by simp [hen])]
      refine ⟨rfl, fun hq => (if_neg ?_).symm⟩
      rintro ⟨rfl, -⟩
      exact hen hq
  · rw [World.portLost, if_neg hrun]
    refine ⟨rfl, fun _ => (if_neg ?_).symm⟩
    rintro ⟨rfl, h⟩
    exact hrun h

end

/-- The engine with an instruction loaded that takes the balls over. -/
def World.tapTaken (w : World) (code : Nat) : World := { w with tap := { w.tap with ir := code, takeover := true } }

theorem World.takeover_again {w : World} (code : Nat) (hv : w.pins.vio = true) (ht : w.tap.takeover = true) : w.takeover code = w.tapTaken code := by
  simp [World.takeover, World.tapTaken, hv, ht]

theorem World.takeover_entry {w : World} (code : Nat) (hv : w.pins.vio = true) (ht : w.tap.takeover = false) :
    w.takeover code = (((w.tapTaken code).event 0x0017 srcMgmt 0 code 0).portLost 0).portLost 1 :=
  (if_neg (by simp [hv])).trans (if_neg (by simp [ht]))

theorem World.takeover_tap {w : World} (code : Nat) (hv : w.pins.vio = true) : (w.takeover code).tap = { w.tap with ir := code, takeover := true } := by
  cases ht : w.tap.takeover with
  | true => rw [World.takeover_again code hv ht]; rfl
  | false =>
    rw [World.takeover_entry code hv ht, (World.portLost_same _ 1).2.1, (World.portLost_same _ 0).2.1, World.event_tap]
    rfl

/-- The balls are taken over: an event and the loss of every running clock on entry (R362). -/
def World.BallsTaken (w : World) (code : Nat) (w' : World) : Prop :=
  (w'.tap.ir, w'.tap.takeover) = (code, true) ∧ w'.tap.cells = w.tap.cells ∧
    (w.tap.takeover = false → w.clocked = true → ∀ p, p < 2 → (w.tdm p).en = true → (w'.tdm p).st = if (w.tdm p).st = 2 then 3 else (w.tdm p).st) ∧
    (w.tap.takeover = false → w.log.staged.length < 64 → ∃ e, w'.log.staged = w.log.staged ++ [e] ∧ (e.code, e.a1) = (0x0017, code))

theorem World.takeover_taken {w : World} (code : Nat) (hv : w.pins.vio = true) : w.BallsTaken code (w.takeover code) := by
  refine ⟨by rw [World.takeover_tap code hv], by rw [World.takeover_tap code hv], fun ht hc p hp hen => ?_, fun ht hlen => ?_⟩
  · rw [World.takeover_entry code hv ht]
    generalize hu : (w.tapTaken code).event 0x0017 srcMgmt 0 code 0 = u
    have hpower : u.power = w.power := by rw [← hu, World.event_power]; rfl
    have htdm : u.tdm p = w.tdm p := by rw [← hu, World.tdm, World.event_host]; rfl
    have hu0 : u.clocked = true := by simpa only [World.clocked, hpower] using hc
    have hu1 : (u.portLost 0).clocked = true := by simpa only [World.clocked, (World.portLost_same u 0).2.2] using hu0
    obtain ⟨hen0, hst0⟩ := u.portLost_tdm 0 hu0 p
    obtain ⟨-, hst1⟩ := (u.portLost 0).portLost_tdm 1 hu1 p
    rw [htdm] at hen0 hst0
    rw [hst1 (hen0.trans hen), hst0 hen]
    obtain rfl | rfl : p = 0 ∨ p = 1 := by omega
    · simp
    · simp
  · rw [World.takeover_entry code hv ht, (World.portLost_same _ 1).1, (World.portLost_same _ 0).1, World.event_staged]
    · exact ⟨_, rfl, rfl⟩
    · exact hlen

/-! The signals (R341, R352). -/

/-- BCLK and FSYNC of a port are driven together, only while the ports' pins are their own, and then by an enabled master. -/
theorem World.wire_clocks (w : World) (p : Nat) : (w.wire (.fsync p)).drives = (w.wire (.bclk p)).drives ∧
    (w.tdmPins = false → (w.wire (.bclk p)).drives = false) ∧
    (w.tdmPins = true → w.tap.takeover = false → (w.wire (.bclk p)).drives = ((w.tdm p).en && (w.tdm p).role == 1)) := by
  have hdrives : (w.wire (.bclk p)).drives = ((w.tdm p).en && (w.tdm p).role == 1 && !w.tap.takeover && w.tdmPins) := rfl
  refine ⟨rfl, fun h => ?_, fun h ht => ?_⟩
  · rw [hdrives, h, Bool.and_false]
  · rw [hdrives, h, ht, Bool.not_false, Bool.and_true, Bool.and_true]

/-- A signal of the VIO domain has no pull while that domain is down (R352). -/
theorem World.wire_unpowered {w : World} (hv : w.pins.vio = false) (x : Sig) (hx : x.onVio = true) : (w.wire x).pull = none := by
  cases x <;> simp_all [World.wire, Sig.onVio]

/-- What the balls show in a takeover (R362). -/
theorem World.takeover_balls {w : World} {code : Nat} (hv : w.pins.vio = true) (hcode : code ≠ 0x03) :
    (w.takeover code).readyBall = some (bitAt w.tap.cells 11) ∧ (w.takeover code).faultBall = some (bitAt w.tap.cells 12) := by
  simp [World.readyBall, World.faultBall, World.shown, World.takeover_tap code hv, hcode]

theorem World.takeover_highz {w : World} (hv : w.pins.vio = true) : ((w.takeover 0x03).readyBall, (w.takeover 0x03).faultBall) = (none, none) := by
  simp [World.readyBall, World.faultBall, World.shown, World.takeover_tap 0x03 hv]

/-- BYPASS, and a code that is not public while the chain is locked, shift the bypass register (R361). -/
theorem World.tapBypass_eq {o : Otp} {w : World} {code b : Nat} (hv : w.pins.vio = true)
    (hcode : code = 0xFF ∨ (publicCodes.contains code = false ∧ w.chainOpen o = false)) :
    w.tapBypass o ⟨code, b⟩ = World.send { w.tapTo code with tap := { (w.tapTo code).tap with byp := b % 2 } } (.tdo 0) := by
  have hprivate : publicCodes.contains code = false := hcode.elim (fun h => by rw [h]; decide) (·.1)
  have hshift : ¬(code ≠ 0xFF ∧ w.chainOpen o = true) := by
    rintro ⟨hne, hopen⟩
    obtain hff | ⟨-, hlocked⟩ := hcode
    · exact hne hff
    · rw [hlocked] at hopen; cases hopen
  refine (if_neg (by simp only [hv, hprivate]; decide)).trans ?_
  exact if_neg hshift

theorem testPort_spec {s : State} (hv : s.w.pins.vio = true) :
    (∀ code b, code = 0xFF ∨ (publicCodes.contains code = false ∧ s.w.chainOpen s.otp = false) →
      ∃ w', Gives (.tapBypass ⟨code, b⟩) s w' ∧ s.w.BallsFree w' ∧ (w'.tap.ir, w'.tap.byp) = (code, b % 2) ∧ w'.out = s.w.out ++ [.tdo 0]) ∧
    (∃ w', Gives .tapIdcode s w' ∧ s.w.BallsFree w' ∧ w'.tap.ir = 0x01 ∧ w'.out = s.w.out ++ [.tdo 0x10416A4B]) ∧
    (∀ cells, ∃ w' v, Gives (.tapSample cells) s w' ∧ s.w.BallsFree w' ∧ (w'.tap.ir, w'.tap.cells) = (0x02, cells % 2 ^ 25) ∧ w'.out = s.w.out ++ [.tdo v] ∧
      (bitAt v 0, bitAt v 10, bitAt v 11, bitAt v 12) = (s.w.pins.perstN, s.w.pins.wake, s.w.pins.ready, s.w.pins.faultN.getD true) ∧
      (bitAt v 13, bitAt v 14, bitAt v 15) = (s.w.pins.pwrAlertN, s.w.pins.coolOk, s.w.pins.resetN)) := by
  refine ⟨fun code b hcode => ?_, ?_, fun cells => ?_⟩
  · refine ⟨_, gives_of_eq rfl (World.tapBypass_eq hv hcode), World.ballsFree_of ?_ ?_, ?_, ?_⟩
    · simp [World.tapTo_tap code hv]
    · simp
    · simp [World.tapTo_tap code hv]
    · simp [World.send]
  · have hgives : Gives .tapIdcode s ((s.w.tapTo 0x01).send (.tdo 0x10416A4B)) := gives_of_eq rfl (if_pos hv)
    refine ⟨_, hgives, World.ballsFree_of ?_ ?_, ?_, ?_⟩
    · simp [World.tapTo_tap 0x01 hv]
    · simp
    · simp [World.tapTo_tap 0x01 hv]
    · simp [World.send]
  · refine ⟨World.send { s.w.tapTo 0x02 with
      tap := { (s.w.tapTo 0x02).tap with cells := cells % 2 ^ 25 }
      sec := { (s.w.tapTo 0x02).sec with used := (s.w.tapTo 0x02).sec.used + 1 } } (.tdo s.w.cellLevels), s.w.cellLevels, ?_, World.ballsFree_of ?_ ?_, ?_, ?_,
      s.w.cellLevels_bits⟩
    · exact gives_of_eq rfl (if_neg (by simp [hv]))
    · simp [World.tapTo_tap 0x02 hv]
    · simp
    · simp [World.tapTo_tap 0x02 hv]
    · simp [World.send]

/-- Settles O60, by the command. -/
theorem faultsAndTestPort : Obligations.FaultsAndTestPort := by
  refine ⟨fun s hc => ⟨watchdog_idle hc, fun t => watchdog_task hc, fun c => coreError_idle hc, fun c t => coreError_task hc⟩, ?_, fun s hv => ?_, fun w => ?_⟩
  · intro s e rest hst
    refine ⟨fun hc h2 h3 => eventLogCopy_spec hst h2 h3 rfl hc, fun code kind i a b hlen => ?_, fun code kind i a b hlen => ?_⟩
    · exact World.event_staged _ _ _ _ _ (by rw [hst, List.length_cons]; omega)
    · exact World.event_dropped _ _ _ _ _ (by rw [hst, List.length_cons]; omega)
  · obtain ⟨hbypass, hidcode, hsample⟩ := testPort_spec hv
    refine ⟨hbypass, hidcode, hsample, ?_, ?_, ?_, ?_⟩
    · exact ⟨_, rfl, World.takeover_taken 0x00 hv, World.takeover_balls hv (by decide)⟩
    · exact ⟨_, rfl, World.takeover_taken 0x03 hv, World.takeover_highz hv⟩
    · exact ⟨_, rfl, World.takeover_taken 0x04 hv, World.takeover_balls hv (by decide)⟩
    · exact ⟨_, rfl, World.tapTo_ballsFree 0x01 hv, by rw [World.tapTo_tap 0x01 hv]⟩
  · exact ⟨w.wire_clocks, World.wire_unpowered, rfl⟩

end Sys2Proof.Machine

namespace Sys2Proof.Machine

open Sys2Proof

/-! Resets of the host port (R305, R320). -/

/-- What the reset of a queue leaves: memory, the pins, the rest of the host port that a reset names, and which tasks are here. -/
def World.offQueues (w : World) : Mem × Pins × Nat × Nat × Nat × List TaskId :=
  (w.mem, w.pins, w.host.resets, w.host.speed, w.host.discarded, w.sched.tasks.map (·.id))

theorem World.resetQueue_offQueues (w : World) (n : Nat) (silent : Bool) : (w.resetQueue n silent).offQueues = w.offQueues := by
  unfold World.resetQueue
  dsimp only
  rw [World.settleReset_keeps World.offQueues (fun _ _ _ => rfl) (fun _ _ => by simp [World.offQueues])]
  simp only [World.offQueues, World.updQueue, List.map_map]
  refine congrArg (fun l => (w.mem, w.pins, w.host.resets, w.host.speed, w.host.discarded, l)) (List.map_congr_left fun t _ => ?_)
  simp only [Function.comp_apply]
  split <;> rfl

/-- The engine with every queue reset. -/
def World.queuesReset (w : World) : World := (w.host.queues.map (·.1)).foldl (fun w n => w.resetQueue n true) w

theorem World.queuesReset_offQueues (w : World) : w.queuesReset.offQueues = w.offQueues :=
  foldl_keeps World.offQueues (fun w n => w.resetQueue_offQueues n true) _ w

/-- A task that ends without a completion. -/
def Task.cancelled (t : Task) : Task := { t with stop := some (t.stop.getD 0x020C), silent := true }

theorem World.hostReset_eq (w : World) : w.hostReset =
    { World.clearWindow { w.queuesReset with sched := { w.queuesReset.sched with tasks := w.queuesReset.sched.tasks.map Task.cancelled } } with
      host := { w.queuesReset.host with waits := [], resets := sat32 w.queuesReset.host.resets 1 } } := rfl

theorem Rx.lose_window {x : Rx} {m : Bytes} {ps : List Peer} {lost : Bool} (h : x.lose = .window m ps lost) : lost = true := by
  cases x with
  | window m' ps' l => cases h; rfl
  | frame mac m' ps' => cases h

/-- The host port's side of the engine is wiped, its tasks are cancelled without a completion, and memory stands (R305, R311, R320). -/
def World.Wiped (w w' : World) : Prop :=
  w'.mem = w.mem ∧ w'.host.resets = sat32 w.host.resets 1 ∧ (w'.stn.busy, w'.stn.done, w'.stn.overrun, w'.stn.head, w'.stn.tail) =
    (false, false, false, 0, 0) ∧ w'.stn.reqBuf = [] ∧ w'.host.waits = [] ∧
    (∀ m ps lost, Rx.window m ps lost ∈ w'.stn.rx → lost = true) ∧ (∀ t ∈ w'.sched.tasks, t.silent = true ∧ t.stop ≠ none) ∧
    (∀ c ∈ w'.stn.clients, c.id = 254 → c.level = 0) ∧ w'.sched.tasks.map (·.id) = w.sched.tasks.map (·.id)

theorem World.hostReset_same (w : World) : w.hostReset.mem = w.mem ∧ w.hostReset.pins = w.pins ∧ w.hostReset.host.resets = sat32 w.host.resets 1 ∧
    w.hostReset.host.speed = w.host.speed ∧ w.hostReset.host.discarded = w.host.discarded ∧
    w.hostReset.sched.tasks.map (·.id) = w.sched.tasks.map (·.id) := by
  have h := w.queuesReset_offQueues
  simp only [World.offQueues, Prod.mk.injEq] at h
  obtain ⟨hmem, hpins, hresets, hspeed, hdisc, hids⟩ := h
  rw [World.hostReset_eq]
  exact ⟨hmem, hpins, congrArg (sat32 · 1) hresets, hspeed, hdisc, (List.map_map ..).trans hids⟩

theorem World.hostReset_wiped (w : World) : w.Wiped w.hostReset := by
  obtain ⟨hmem, -, hresets, -, -, hids⟩ := w.hostReset_same
  refine ⟨hmem, hresets, rfl, rfl, rfl, fun m ps lost hx => ?_, fun t ht => ?_, fun c hc hid => ?_, hids⟩
  · rw [World.hostReset_eq] at hx
    obtain ⟨x, -, hx⟩ := List.mem_map.mp hx
    exact Rx.lose_window hx
  · rw [World.hostReset_eq] at ht
    obtain ⟨u, -, rfl⟩ := List.mem_map.mp ht
    exact ⟨rfl, Option.some_ne_none _⟩
  · rw [World.hostReset_eq] at hc
    obtain ⟨d, -, rfl⟩ := List.mem_map.mp hc
    split at hid
    next h => rw [if_pos h]
    next h => exact absurd hid h

/-- What is wiped stays so under a change of the pins and of the rest of the host port. -/
theorem World.Wiped.later {w v v' : World} (h : w.Wiped v) (hmem : v'.mem = v.mem) (hstn : v'.stn = v.stn) (hsched : v'.sched = v.sched)
    (hresets : v'.host.resets = v.host.resets) (hwaits : v'.host.waits = v.host.waits) : w.Wiped v' := by
  simpa only [World.Wiped, hmem, hstn, hsched, hresets, hwaits] using h

theorem World.powered_of_on {w : World} (h : w.portOn = true ∨ w.power.st = .doze) : w.portPowered = true := by
  obtain h | h := h
  · simp only [World.portOn, Bool.and_eq_true] at h
    simp [World.portPowered, h.2]
  · simp [World.portPowered, h]

theorem perstNLow_spec {s : State} (hon : s.w.portOn = true ∨ s.w.power.st = .doze) (hp : s.w.pins.perstN = true) :
    ∃ w', Gives .perstNLow s w' ∧ s.w.Wiped w' ∧ w'.pins.perstN = false ∧ (w'.host.speed, w'.host.width) = (0, 0) :=
  ⟨_, gives_of_eq rfl (if_pos (by simp [World.powered_of_on hon, hp])), s.w.hostReset_wiped.later rfl rfl rfl rfl rfl, rfl, rfl⟩

theorem functionLevelReset_spec {s : State} (hup : s.w.hostUp = true) :
    ∃ w', Gives .functionLevelReset s w' ∧ s.w.Wiped w' ∧ w'.host.speed = s.w.host.speed := by
  obtain ⟨-, -, -, hspeed, -⟩ := s.w.hostReset_same
  exact ⟨_, gives_of_eq rfl (if_pos hup), s.w.hostReset_wiped, hspeed⟩

theorem linkDown_spec {s : State} (hon : s.w.portOn = true) (hlink : s.w.host.speed ≠ 0) (lost : Nat) :
    ∃ w', Gives (.linkDown lost) s w' ∧ s.w.Wiped w' ∧ (w'.host.speed, w'.host.width) = (0, 0) ∧
      w'.host.discarded = sat32 s.w.host.discarded lost ∧ w'.pins = s.w.pins := by
  obtain ⟨-, hpins, -, -, hdisc, -⟩ := s.w.hostReset_same
  exact ⟨_, gives_of_eq rfl (if_pos (by simp [hon, hlink])), s.w.hostReset_wiped.later rfl rfl rfl rfl rfl, rfl, congrArg (sat32 · lost) hdisc, hpins⟩

/-- The link trains at a speed and a width that the port supports (R315, R316). -/
theorem World.trainPcie_up {w : World} {speed width : Nat} (hon : w.portOn = true) (h0 : 0 < speed) (h4 : speed ≤ 4) (ht : speed ≤ w.host.target)
    (hw : width ∈ [1, 2, 4]) :
    w.trainPcie speed width = { w with pins := { w.pins with perstN := true }, host := { w.host with speed := speed, width := width } } := by
  have hwidth : pcie.widths.contains width = true := List.contains_iff_mem.mpr hw
  have hspeeds : pcie.speeds = 4 := rfl
  refine if_neg ?_
  simp only [hon, hwidth, hspeeds, Bool.not_true, Bool.false_or, Bool.or_false, Bool.or_eq_true, decide_eq_true_eq]
  omega

/-! The memory window (R319). -/

/-- A vector whose entry is not masked is sent while PERST_N is high. -/
theorem World.vector_sent {w : World} {v : Nat} (hp : w.pins.perstN = true) (hm : w.masked v = false) : Out.msix v ∈ (w.vector v).out := by
  simp [World.vector, hp, hm, World.send]

theorem World.perstN_of_hostUp {w : World} (h : w.hostUp = true) : w.pins.perstN = true := by
  simp only [World.hostUp, Bool.and_eq_true] at h
  exact h.1.2

/-- An access that is refused changes no byte of memory, and raises vector 66 (R319). -/
def World.WindowRefused (w w' : World) : Prop := SameMemory w w' ∧ (w.masked 66 = false → Out.msix 66 ∈ w'.out)

theorem World.WindowRefused.send {w w' : World} (h : w.WindowRefused w') (o : Out) : w.WindowRefused (w'.send o) := by
  obtain ⟨hmem, hout⟩ := h
  exact ⟨hmem, fun hm => List.mem_append_left _ (hout hm)⟩

theorem World.send_getLast? (w : World) (o : Out) : (w.send o).out.getLast? = some o := by simp [World.send]

section
variable {w : World} (hp : w.pins.perstN = true)
include hp

theorem World.badWindow_refused : w.WindowRefused w.badWindow := by
  refine ⟨fun x => by simp [World.badWindow], fun hm => ?_⟩
  exact World.vector_sent hp hm

theorem World.sealedWindow_refused (off : Nat) : w.WindowRefused (w.sealedWindow off) := by
  unfold World.sealedWindow
  dsimp only
  split
  · exact ⟨fun x => by simp, fun hm => World.vector_sent (by simpa using hp) (by simpa [World.masked] using hm)⟩
  · exact ⟨fun x => by simp, fun hm => World.vector_sent hp hm⟩

end

@[simp] theorem World.badWindow_count (w : World) : w.badWindow.host.badEntry = sat32 w.host.badEntry 1 := by simp [World.badWindow]

@[simp] theorem World.sealedWindow_count (w : World) (off : Nat) : (w.sealedWindow off).host.sealedRef = sat32 w.host.sealedRef 1 := by
  unfold World.sealedWindow
  dsimp only
  split <;> simp

section
variable {w : World} {off len : Nat} (hup : w.hostUp = true) (hshape : windowShape off len = true)
include hup hshape

theorem World.windowRead_bad (h : w.windowAddr off = none) : w.windowRead off len = w.badWindow.send (.tlp none false) := by
  simp [World.windowRead, hup, hshape, h]

theorem World.windowRead_sealed {a : Nat} (h : w.windowAddr off = some a) (hs : w.anySealed a len = true) :
    w.windowRead off len = (w.sealedWindow off).send (.tlp none false) := by
  simp [World.windowRead, hup, hshape, h, hs]

theorem World.windowRead_ok {a : Nat} (h : w.windowAddr off = some a) (hs : w.anySealed a len = false) :
    w.windowRead off len = w.send (.tlp (some (w.load a len)) (w.mem.poisoned a len)) := by
  simp [World.windowRead, hup, hshape, h, hs]

end

section
variable {w : World} {off : Nat} {data : Bytes} (hup : w.hostUp = true) (hshape : windowShape off data.length = true)
include hup hshape

theorem World.windowWrite_bad (h : w.windowAddr off = none) : w.windowWrite off data = w.badWindow := by
  simp [World.windowWrite, hup, hshape, h]

theorem World.windowWrite_sealed {a : Nat} (h : w.windowAddr off = some a) (hs : w.anySealed a data.length = true) :
    w.windowWrite off data = w.sealedWindow off := by
  simp [World.windowWrite, hup, hshape, h, hs]

theorem World.windowWrite_ok {a : Nat} (h : w.windowAddr off = some a) (hs : w.anySealed a data.length = false) :
    w.windowWrite off data = w.store a data := by
  simp [World.windowWrite, hup, hshape, h, hs]

end

/-- Settles O30: the three resets share `hostReset`, and an access of the window turns on its entry and the seals. -/
theorem hostResetsAndWindow : Obligations.HostResetsAndWindow := by
  refine ⟨fun s hon => ⟨perstNLow_spec hon, functionLevelReset_spec, linkDown_spec, fun speed width hport h0 h4 ht hw => ?_⟩, fun s off len data hup => ?_⟩
  · exact gives_of_eq rfl (World.trainPcie_up hport h0 h4 ht hw)
  · have hp := World.perstN_of_hostUp hup
    refine ⟨fun hshape => ⟨fun a ha hs => ?_, fun ha => ?_, fun a ha hs => ?_⟩, fun hshape => ⟨fun a ha hs => ?_, fun ha => ?_, fun a ha hs => ?_⟩⟩
    · exact gives_of_eq rfl (World.windowRead_ok hup hshape ha hs)
    · exact ⟨_, gives_of_eq rfl (World.windowRead_bad hup hshape ha), (World.badWindow_refused hp).send _, World.send_getLast? _ _,
        World.badWindow_count _⟩
    · exact ⟨_, gives_of_eq rfl (World.windowRead_sealed hup hshape ha hs), (World.sealedWindow_refused hp off).send _, World.send_getLast? _ _,
        World.sealedWindow_count _ off⟩
    · exact ⟨_, gives_of_eq rfl (World.windowWrite_ok hup hshape ha hs), World.store_wrote _ a data⟩
    · exact ⟨_, gives_of_eq rfl (World.windowWrite_bad hup hshape ha), World.badWindow_refused hp, World.badWindow_count _⟩
    · exact ⟨_, gives_of_eq rfl (World.windowWrite_sealed hup hshape ha hs), World.sealedWindow_refused hp off, World.sealedWindow_count _ off⟩

end Sys2Proof.Machine
